-- ==== Sys2Proof/Word.lean ====
section
/-! DEFINITION. The words the ZN16 works on: bytes, 64-bit registers and binary32 lanes (R5, R6, R34). -/

namespace Sys2Proof

/-- One byte (R5). -/
abbrev Byte := BitVec 8

/-- One register, general register or descriptor word: 64 bits (R6). -/
abbrev Word := BitVec 64

/-- The bits of one FP32 value, or of one INT32 accumulator entry (R34, R46). -/
abbrev F32 := BitVec 32

end Sys2Proof
end

