-- ==== Sys2Proof/Syntax.lean ====
section
/-! DEFINITION. The commands of the block: one constructor of Instr for each row of the opcode table, with the operands
the row's rule names. A command is either something the world outside does (a doorbell, a packet, a pin, a sample) or a
step that a unit of the device takes (a tile operation, a window's end, a completion). -/

namespace Sys2Proof

/-- A packet of the on-die network, its header fields as in R108 and its payload. -/
structure NocPkt where
  typ : Nat
  vc : Nat
  len : Nat
  job : Nat
  tag : Nat
  dst : Nat
  src : Nat
  red : Bool
  rfmt : Nat
  ph : Nat
  addr : Nat
  cnt : Nat
  total : Nat
  hb : Nat
  payload : List Byte
  deriving DecidableEq, Repr

/-- A Bamat packet, its header fields as in R273 and its payload. -/
structure BamatPkt where
  op : Nat
  vc : Nat
  red : Bool
  rfmt : Nat
  cls : Nat
  dir : Nat
  job : Nat
  tag : Nat
  dstdev : Nat
  srcdev : Nat
  dstep : Nat
  srcep : Nat
  addr : Nat
  cnt : Nat
  total : Nat
  hb : Nat
  hops : Nat
  arg : Nat
  payload : List Byte
  deriving DecidableEq, Repr

/-- A Bamat flit as it arrives at a port (R270): the link word's fields, the content and the CRC. -/
structure Flit where
  link : Word
  content : List Byte
  crc : BitVec 32
  deriving DecidableEq, Repr

/-- Where and when a packet reaches a router: by a port, in the first or the second CLK_NOC cycle of a ns (R120). -/
structure MeshPort where
  port : Nat
  odd : Bool
  deriving DecidableEq, Repr

/-- What an owner asks of a backup: a step's collective, the contributor that is missing, and its ranges (R253). -/
structure BackupAsk where
  step : Nat
  contrib : Nat
  ranges : List Nat
  deriving DecidableEq, Repr

/-- The four stamps of an exchange of TIME flits, in ps (R284). -/
structure Stamps where
  t1 : Int
  t2 : Int
  t3 : Int
  t4 : Int
  deriving DecidableEq, Repr

/-- What an Ethernet frame holds (R289): the flits of a peer, a PAUSE with its quanta, or a priority flow control frame with the quanta
of each priority that it sets. -/
inductive EthBody where
  | flits (fs : List Flit)
  | pause (quanta : Nat)
  | pfc (quanta : List (Option Nat))
  deriving DecidableEq, Repr

/-- The identity a peer sends in its IDENT control flit (R282). -/
structure PeerId where
  dev : Nat
  port : Nat
  topoId : Word
  vers : Nat
  deriving DecidableEq, Repr

/-- Who asks the sync fabric for an operation (R95, R97). -/
inductive SyncAgent where
  | tile (t : Nat)
  | host (q : Nat)
  | timer (i : Nat)
  | page (ctx : Nat)
  | sampler (n : Nat) (ctx : Nat)
  | controller (n : Nat) (ctx : Nat)
  | collective (ctx : Nat)
  | port (k : Nat) (job : Nat)
  deriving DecidableEq, Repr

/-- The operations of the sync fabric (R95). -/
inductive SyncOp where
  | signal
  | wait
  | sreset
  deriving DecidableEq, Repr

/-- Who waits on a sync object: a tile, or a descriptor named by its queue and ring number (R96). -/
inductive Waiter where
  | tile (t : Nat)
  | desc (q n : Nat)
  deriving DecidableEq, Repr

/-- Who consumes the data of a memory access (the table of R143): a tile, a running descriptor named by its queue and ring
number, a remote module reading for a context, the scrubber. -/
inductive Consumer where
  | tile (t : Nat)
  | engine (q n : Nat)
  | remote (dev ctx : Nat)
  | scrubber
  deriving DecidableEq, Repr

/-- A bank for refresh (R138, R164): of a near layer, or of a far stack. -/
inductive BankId where
  | near (tile layer : Nat)
  | far (stack pc bg bank : Nat)
  deriving DecidableEq, Repr

/-- A thermal spot (R376): a tile, a near-memory layer of a tile, a far stack, an edge router. -/
inductive Spot where
  | tile (t : Nat)
  | near (t k : Nat)
  | far (n : Nat)
  | edge (e : Nat)
  deriving DecidableEq, Repr

/-- What the world finds of one unit in the start-up test (R401): kind, unit and index as in R402. -/
structure Defect where
  kind : Nat
  source : Nat
  unit : Nat
  index : Nat
  state : Nat
  deriving DecidableEq, Repr

/-- What the driver wrote into host memory before it rang a doorbell: runs of bytes at an IOVA (R302, R328). -/
abbrev HostWrites := List (Nat × List Byte)

/-- A request to the I3C target (R425). -/
inductive I3cReq where
  | mctpControl
  | fruSerial
  | fruRevision
  | tripRecord
  | sensor (i : Nat)
  | other
  deriving DecidableEq, Repr

/-- Wrong symbols that have struck a tile's SRAM: ((granule of 64 bytes, symbol position), error value) (R71). -/
abbrev Upsets := List ((Nat × Nat) × Byte)

/-- The commands, one constructor per row of the opcode table, in the table's order. -/
inductive Instr where
  | registerWrite (fn off size : Nat) (val : Word)
  | rcRead (fn off size : Nat)
  | malformedRead (fn off size : Nat)
  | devConfig (mb : Nat)
  | devConfigGet (mb : Nat)
  | loadw (t : Nat) (err : Upsets)
  | loadwt (t : Nat) (err : Upsets)
  | issue (t : Nat) (err : Upsets)
  | issuel (t : Nat)
  | drainv (t : Nat)
  | drains (t : Nat)
  | rampStep (t : Nat) (ready : Bool)
  | throttleBubble (c : Nat)
  | vopAdd (t : Nat)
  | vopSub (t : Nat)
  | vopMul (t : Nat)
  | vopFma (t : Nat)
  | vopMin (t : Nat)
  | vopMax (t : Nat)
  | vopAbs (t : Nat)
  | vopNeg (t : Nat)
  | vopCmp (t : Nat)
  | vopSel (t : Nat)
  | vopCvt (t : Nat)
  | vopSqrt (t : Nat)
  | vopRcp (t : Nat)
  | vopRsqrt (t : Nat)
  | vopExp2 (t : Nat)
  | vopLog2 (t : Nat)
  | vopDiv (t : Nat)
  | vopExp (t : Nat)
  | vopLog (t : Nat)
  | vopTanh (t : Nat)
  | vopSigmoid (t : Nat)
  | vopSilu (t : Nat)
  | vopGelu (t : Nat)
  | vopSubmax (t : Nat)
  | vopScaleinv (t : Nat)
  | vopMaxred (t : Nat)
  | vopSumred (t : Nat)
  | vopMov (t : Nat)
  | vopSplat (t : Nat)
  | ldv (t : Nat) (err : Upsets)
  | ldg (t : Nat) (err : Upsets)
  | ldc (t : Nat)
  | mcopyIn (t : Nat)
  | mcopyOut (t : Nat) (err : Upsets)
  | latfill (t : Nat)
  | stv (t : Nat)
  | stg (t : Nat)
  | sendv (t : Nat)
  | recvv (t : Nat)
  | send (t : Nat) (err : Upsets)
  | recv (t : Nat)
  | gaddi (t : Nat)
  | gadd (t : Nat)
  | gshl (t : Nat)
  | loop (t : Nat)
  | br (t : Nat)
  | bne (t : Nat)
  | ginfo (t : Nat)
  | signal (t : Nat)
  | wait (t : Nat)
  | sreset (t : Nat)
  | halt (t : Nat)
  | syncPacket (agent : SyncAgent) (op : SyncOp) (obj val : Nat)
  | syncTimeout (obj : Nat) (who : Waiter)
  | stream (sid prod cons : Nat)
  | credit (sid prod cons : Nat)
  | streamTimeout (t : Nat)
  | pipeline (q : Nat)
  | pipeBound (p : Nat)
  | pipeDone (p : Nat)
  | packetInject (pkt : NocPkt)
  | epArrival (node : Nat) (port : MeshPort) (dstdev : Nat) (pkt : NocPkt)
  | epHoldExpiry (node : Nat)
  | flitCrcFail (node dir : Nat) (again : Bool)
  | purgeDone
  | memRead (addr : Nat) (who : Consumer) (err retry : List (Nat × Byte))
  | memWrite (addr : Nat) (data : List Byte) (who : Consumer)
  | ceWriteback (addr : Nat)
  | refresh (bank : BankId)
  | refreshBoundary (tile : Nat) (fails : List Nat)
  | clkFallback
  | evacPageCopy
  | scrub (ctrl : Nat) (err retry : List (Nat × Byte))
  | pimAdd (q : Nat)
  | pimMul (q : Nat)
  | pimMad (q : Nat)
  | pimRelu (q : Nat)
  | pimGelu (q : Nat)
  | pimSilu (q : Nat)
  | pimClamp (q : Nat)
  | pool (q : Nat)
  | sequenceStart (stack lane rows : Nat)
  | sequenceEnd (stack lane : Nat)
  | pimCmdDone (stack : Nat)
  | pimBudgetWindow
  | seqOpen (q : Nat)
  | seqClose (q : Nat)
  | poolAdd (q : Nat)
  | append (q : Nat)
  | copyOnWrite (seq layer page : Nat)
  | fork (q : Nat)
  | truncate (q : Nat)
  | fetch (q : Nat)
  | push (q : Nat)
  | pageRead (pkt : BamatPkt)
  | pageData (pkt : BamatPkt)
  | sample (q : Nat)
  | sampleRow (n : Nat)
  | smpTimeout (n slot : Nat)
  | gambit (q : Nat)
  | gambitDecision (n : Nat)
  | update (q : Nat)
  | updateUnit (n : Nat)
  | konaocAdd (n d a b : Nat)
  | konaocSub (n d a b : Nat)
  | konaocMul (n d a b : Nat)
  | konaocFma (n d a b c : Nat)
  | konaocDiv (n d a b : Nat)
  | konaocSqrt (n d a : Nat)
  | konaocRsqrt (n d a : Nat)
  | konaocMin (n d a b : Nat)
  | konaocMax (n d a b : Nat)
  | konaocAbs (n d a : Nat)
  | konaocNeg (n d a : Nat)
  | konaocSign (n d a : Nat)
  | konaocCmplt (n d a b : Nat)
  | konaocSel (n d a b c : Nat)
  | konaocMov (n d a : Nat)
  | konaocBsum (n d a : Nat)
  | konaocBmax (n d a : Nat)
  | konaocPhase (n : Nat)
  | audit (q : Nat)
  | ownerHashes (job owner tidx nElems wfmt : Nat) (hashes : List (Nat × Word))
  | noticeAuditDone (job dev : Nat)
  | auditTimeout (job : Nat)
  | reduceScatter (q : Nat)
  | allGather (q : Nat)
  | allReduce (q : Nat)
  | broadcast (q : Nat)
  | allToAll (q : Nat)
  | collectiveAcc (pkt : NocPkt)
  | plainAccumulate (pkt : NocPkt)
  | checkPacket (id : Nat) (contrib : Nat) (bkp : Bool) (samples : List (Nat × F32))
  | deadlineD1 (id : Nat)
  | deadlineD2 (id : Nat)
  | collTimeout (id : Nat)
  | localSummary (id member level : Nat) (word : Word) (detail : List Byte) (missing : List Nat)
  | noticeDone (id member : Nat)
  | noticeBackupReq (job owner : Nat) (ask : BackupAsk)
  | noticeAbandon (job dev : Nat)
  | allGatherBlock (id member block : Nat) (data : List Byte) (hash : Word)
  | quietPeriodEnd (job : Nat)
  | trainingAttempt (k : Nat) (good : BitVec 8)
  | ident (k : Nat) (peer : PeerId)
  | laneDropped (k lane : Nat)
  | flitReceive (k : Nat) (f : Flit)
  | resendTimeout (k : Nat)
  | bamatWrite (pkt : BamatPkt)
  | bamatRead (pkt : BamatPkt)
  | bamatRdata (pkt : BamatPkt)
  | bamatAck (pkt : BamatPkt)
  | bamatSignal (pkt : BamatPkt)
  | bamatSreset (pkt : BamatPkt)
  | noticeRing (dim seg : Nat) (broken : Bool)
  | refuse (pkt : BamatPkt)
  | tempoExchange (k : Nat) (stamps : Stamps) (err : Int)
  | ethFrame (k srcMac etherType vlan : Nat) (body : EthBody)
  | mirrorAdd (q : Nat)
  | mirrorDel (q : Nat)
  | proxyAdd (q : Nat)
  | proxyDel (q : Nat)
  | perstN (level : Bool)
  | modResetN (level : Bool)
  | hotReset
  | linkDown
  | linkUp (speed width : Nat)
  | flrVf (f : Nat)
  | flrPf
  | vfEnableCleared
  | bmeCleared (f : Nat)
  | sqTail (fn off size : Nat) (val : Word) (hw : HostWrites)
  | cqHead (fn off size : Nat) (val : Word)
  | hifAdmqTail (fn size : Nat) (val : Word) (hw : HostWrites)
  | hifAdmqHead (fn size : Nat) (val : Word)
  | hifAdmqCfg (fn size : Nat) (val : Word)
  | hifHeartbeat (fn size : Nat) (val : Word)
  | heartbeatLate (fn : Nat)
  | heartbeatTimeout (fn : Nat)
  | descriptorFetch (q : Nat)
  | nop (q : Nat)
  | ctxCreate (q : Nat)
  | ctxDestroy (q : Nat)
  | queueCreate (q : Nat)
  | queueDestroy (q : Nat)
  | queueAdopt (q : Nat)
  | memAlloc (q : Nat)
  | memFree (q : Nat)
  | syncAlloc (q : Nat)
  | syncFree (q : Nat)
  | syncOpSignal (q : Nat)
  | syncOpWait (q : Nat)
  | syncOpSreset (q : Nat)
  | copy (q : Nat)
  | copyDone (q n : Nat)
  | descriptorTimeout (q n : Nat)
  | resignQueue (fn target : Nat)
  | resignContext (fn target : Nat)
  | resignFunction (fn target : Nat)
  | resignDevice (fn : Nat)
  | resignDone (fn : Nat)
  | watchdogRestart (code : List Byte) (cfgOk : Bool)
  | readback (found : List (Nat × Word))
  | versionGet (mb : Nat)
  | fwLoad (mb : Nat)
  | svnCommit (mb : Nat)
  | attest (mb : Nat)
  | challenge (mb : Nat)
  | respond (mb : Nat)
  | lock (mb : Nat)
  | jobOpen (mb : Nat)
  | jobClose (mb : Nat)
  | dump (mb : Nat)
  | traceCfg (mb : Nat)
  | schedCfg (mb : Nat)
  | queueClass (mb : Nat)
  | powerSet (mb : Nat)
  | clusterFreqMax (mb : Nat)
  | gpioSet (mb : Nat)
  | gpioGet (mb : Nat)
  | timerCfg (mb : Nat)
  | timerExpiry (i : Nat)
  | z8Info (mb : Nat)
  | z8Attest (mb : Nat)
  | z8FwLoad (mb : Nat)
  | z8CapSet (mb : Nat)
  | z8PowerGet (mb : Nat)
  | z8PrioSet (mb : Nat)
  | z8AgingSet (mb : Nat)
  | z8ClkSet (mb : Nat)
  | z8Gate (mb : Nat)
  | z8CluStatus (mb : Nat)
  | urgentWindow
  | urgentSpent
  | traceFull
  | convPhaseFailed (i : Nat)
  | ivrPhaseFailed (c i : Nat)
  | ageStep (c : Nat)
  | droopBoost (c : Nat)
  | clockStretch (c : Nat)
  | shuntClamp (c : Nat)
  | slopeTokenReturn (quad : Nat)
  | powerSample (vin10mV current10mA : Nat)
  | cappingWindow (clusterNj currents : List Nat) (slots : List (Nat × Nat)) (granules : List (Nat × Consumer × Nat)) (memNj : List Nat)
  | freqWindow
  | sensorSample (spot : Spot) (raw : List (Option Int)) (granules : List Nat)
  | flowSample (flow : Option Nat) (inlet outlet : Option Int)
  | coolantWindow
  | leak (high : Bool)
  | stopDone
  | keepWarm (c : Nat)
  | castled
  | castleAbandoned
  | inputGood
  | inputLockout (mV : Nat)
  | vinRange (mV : Nat)
  | auxRange (mV : Nat)
  | bistDone (found : List Defect) (untested : Nat)
  | pllLockLoss
  | readyLate
  | strapChanged (slot : Nat)
  | gpioEdge (g : Nat) (level : Bool)
  | i3cAddressed (addr : Nat)
  | i3cRequest (req : I3cReq)
  | mailboxDoorbell (mb size : Nat) (val : Word) (hw : HostWrites)
  | completionTimeout (q : Nat) (desc : Option Nat)
  | testAccessPort (ir : Nat)
  | tempoPps (g : Nat)
  | auxiliaryPowerOn
  deriving DecidableEq, Repr

end Sys2Proof
end

