-- ==== Sys2Proof/Decode.lean ====
section
/-! DEFINITION. Commands spelled by table words. The opcode table gives no row any bits: a command comes with its operands
from outside (a doorbell, a packet, a pin), never as an encoded word. -/

namespace Sys2Proof

/-- The command that a word spells by the table's bits: none, since no row of the table has bits (PRESUMED, log entry 126). -/
def decodeTableWord (_nbits _w : Nat) : Option Instr := none

end Sys2Proof
end

