-- ==== Sys2Proof/Machine/Base.lean ====
section
/-! DEFINITION. Small plain-data tools the whole model shares: little-endian bytes (R5), bit fields (R5), sparse lists in
one canonical form, association lists, saturating counters. -/

namespace Sys2Proof.Machine

/-! ### Little-endian bytes (R5) -/

/-- The low `k` bytes of `n`, least significant first. -/
def leBytes : (k n : Nat) → List Byte
  | 0, _ => []
  | k + 1, n => BitVec.ofNat 8 n :: leBytes k (n / 256)

/-- The number that a run of bytes spells, least significant first. -/
def leNat : List Byte → Nat
  | [] => 0
  | b :: bs => b.toNat + 256 * leNat bs

/-- The `size` bytes at offset `off` of a structure. -/
def bytesAt (l : List Byte) (off size : Nat) : List Byte := (l.drop off).take size

/-- The field of `size` bytes at offset `off` of a structure, as a number. -/
def natAt (l : List Byte) (off size : Nat) : Nat := leNat (bytesAt l off size)

/-- Every byte from offset `off`, `size` of them, is 0. -/
def zeroAt (l : List Byte) (off size : Nat) : Bool := (bytesAt l off size).all (· == 0)

/-- Bit `i` of a number. -/
def bit (n i : Nat) : Bool := n.testBit i

/-- Bits `hi` down to `lo` of a number. -/
def bits (n hi lo : Nat) : Nat := (n >>> lo) % 2 ^ (hi + 1 - lo)

/-- A Boolean as a number. -/
def b2n (b : Bool) : Nat := if b then 1 else 0

/-! ### Bit fields of a register (R5) -/

/-- A field of a register: its lowest bit and its width. -/
structure Field where
  lo : Nat
  w : Nat
  deriving DecidableEq, Repr

/-- The bits of a field, set to ones. -/
def Field.mask (f : Field) : Word := BitVec.ofNat 64 (2 ^ f.w - 1) <<< f.lo

/-- The value of a field in a word. -/
def fieldGet (x : Word) (f : Field) : Nat := (x.toNat >>> f.lo) % 2 ^ f.w

/-- The word with a field set; the value is cut to the field. -/
def fieldPut (x : Word) (f : Field) (v : Nat) : Word :=
  (x &&& ~~~ f.mask) ||| (BitVec.ofNat 64 (v % 2 ^ f.w) <<< f.lo)

/-- Addition that stops at the top value of a field (the saturating counters). -/
def satAdd (w a b : Nat) : Nat := min (a + b) (2 ^ w - 1)

/-! ### Sparse data in one canonical form: keys rising, no entry equal to what an unlisted key reads as -/

/-- What key `k` reads as. -/
def canonGet {α : Type} (dflt : Nat → α) : List (Nat × α) → Nat → α
  | [], k => dflt k
  | (j, v) :: r, k => if j = k then v else canonGet dflt r k

/-- The list without key `k`. -/
def canonDrop {α : Type} (k : Nat) (l : List (Nat × α)) : List (Nat × α) := l.filter (fun e => e.1 ≠ k)

/-- The list with key `k` reading `v`, in key order. -/
def canonInsert {α : Type} (k : Nat) (v : α) : List (Nat × α) → List (Nat × α)
  | [] => [(k, v)]
  | (j, w) :: r =>
    if j = k then (k, v) :: r else if k < j then (k, v) :: (j, w) :: r else (j, w) :: canonInsert k v r

/-- Write key `k`: a value equal to the unlisted one removes the entry. -/
def canonSet {α : Type} [DecidableEq α] (dflt : Nat → α) (l : List (Nat × α)) (k : Nat) (v : α) : List (Nat × α) :=
  if v = dflt k then canonDrop k l else canonInsert k v l

/-- Every key of the list is above `k`. -/
def keysAbove {α : Type} (k : Nat) (l : List (Nat × α)) : Bool := l.all (fun e => decide (k < e.1))

/-- The canonical form: keys strictly rising, no entry equal to the unlisted value. -/
def canonOk {α : Type} [DecidableEq α] (dflt : Nat → α) : List (Nat × α) → Bool
  | [] => true
  | (k, v) :: r => decide (v ≠ dflt k) && keysAbove k r && canonOk dflt r

/-- The list without the keys from `lo` up to, not including, `hi`. -/
def canonClear {α : Type} (lo hi : Nat) (l : List (Nat × α)) : List (Nat × α) :=
  l.filter (fun e => !(decide (lo ≤ e.1) && decide (e.1 < hi)))

/-! ### Association lists (any order, first entry counts) -/

/-- The value of a key, if listed. -/
def look {κ α : Type} [DecidableEq κ] (k : κ) : List (κ × α) → Option α
  | [] => none
  | (j, v) :: r => if j = k then some v else look k r

/-- The list with the key set: its first entry replaced, or one added at the end. -/
def put {κ α : Type} [DecidableEq κ] (k : κ) (v : α) : List (κ × α) → List (κ × α)
  | [] => [(k, v)]
  | (j, w) :: r => if j = k then (k, v) :: r else (j, w) :: put k v r

/-- The list without the key. -/
def drop1 {κ α : Type} [DecidableEq κ] (k : κ) (l : List (κ × α)) : List (κ × α) :=
  l.filter (fun e => !decide (e.1 = k))

/-- The list with the entry of a key changed by `f`, if the key is listed. -/
def alter {κ α : Type} [DecidableEq κ] (k : κ) (f : α → α) : List (κ × α) → List (κ × α)
  | [] => []
  | (j, w) :: r => if j = k then (j, f w) :: r else (j, w) :: alter k f r

/-- Set entry `i` of a list; a list that is too short is left alone. -/
def setAt {α : Type} : List α → Nat → α → List α
  | [], _, _ => []
  | _ :: r, 0, v => v :: r
  | x :: r, i + 1, v => x :: setAt r i v

/-- Insertion of `x` before the first entry that does not come before it. -/
def insertBy {α : Type} (before : α → α → Bool) (x : α) : List α → List α
  | [] => [x]
  | y :: r => if before y x then y :: insertBy before x r else x :: y :: r

/-- Insertion sort. -/
def sortBy {α : Type} (before : α → α → Bool) : List α → List α
  | [] => []
  | x :: r => insertBy before x (sortBy before r)

/-- The lowest number below `n` that `p` holds for. -/
def lowest (n : Nat) (p : Nat → Bool) : Option Nat := (List.range n).find? p

/-- Round `a` up to a multiple of `m`. -/
def roundUp (a m : Nat) : Nat := (a + m - 1) / m * m

/-- The integer square root, by binary search from the top bit down; exact for `n` below 4 to the power of the fuel. -/
def isqrt (fuel n : Nat) : Nat :=
  match fuel with
  | 0 => 0
  | k + 1 => let r := 2 * isqrt k (n / 4); if (r + 1) * (r + 1) ≤ n then r + 1 else r

end Sys2Proof.Machine
end

