-- ==== Sys2Proof/Machine/Num.lean ====
section
/-! DEFINITION. The ten number formats (R33 to R36), exact values, the rounding rules (R48 to R50), FP32 arithmetic (R52)
and the adder tree of the array (R44). -/

namespace Sys2Proof.Machine

/-- An exact value: NaN, an infinity, or plus or minus m times 2 to the e (zero keeps its sign). -/
inductive Fp where
  | nan
  | inf (neg : Bool)
  | fin (neg : Bool) (m : Nat) (e : Int)
  deriving DecidableEq, Repr

/-! ### Formats (R33, R34, R36) -/

/-- Bits of an element of a format; reserved codes have none (R33). -/
def fmtBits : Nat → Nat
  | 0 => 32 | 1 => 16 | 2 => 16 | 3 => 8 | 4 => 8 | 5 => 6 | 6 => 6 | 7 => 4 | 8 => 8 | 9 => 4 | _ => 0

/-- Mantissa bits (R34). -/
def fmtMan : Nat → Nat
  | 0 => 23 | 1 => 7 | 2 => 10 | 3 => 3 | 4 => 2 | 5 => 2 | 6 => 3 | 7 => 1 | _ => 0

/-- Exponent bias (R34). -/
def fmtBias : Nat → Nat
  | 0 => 127 | 1 => 127 | 2 => 15 | 3 => 7 | 4 => 15 | 5 => 3 | 6 => 1 | 7 => 1 | _ => 0

/-- The codes of an integer format (R33). -/
def fmtIsInt (fmt : Nat) : Bool := fmt = 8 || fmt = 9

/-- Codes 10 to 15 are reserved (R33). -/
def fmtOk (fmt : Nat) : Bool := decide (fmt < 10)

/-- Formats with infinities: FP32, BF16, FP16, E5M2 (R35). -/
def fmtHasInf (fmt : Nat) : Bool := fmt = 0 || fmt = 1 || fmt = 2 || fmt = 4

/-- Formats with a NaN: those with infinities, and E4M3 (R35). -/
def fmtHasNan (fmt : Nat) : Bool := fmtHasInf fmt || fmt = 3

/-- Formats that may be block scaled (R38). -/
def fmtBlocks (fmt : Nat) : Bool := decide (3 ≤ fmt) && decide (fmt ≤ 8)

/-- The canonical NaN of a format (R35). -/
def fmtNan : Nat → Nat
  | 0 => 0x7FC00000 | 1 => 0x7FC0 | 2 => 0x7E00 | 3 => 0x7F | 4 => 0x7E | _ => 0

/-- The magnitude code of infinity in a format that has it (R35). -/
def fmtInf : Nat → Nat
  | 0 => 0x7F800000 | 1 => 0x7F80 | 2 => 0x7C00 | 4 => 0x7C | _ => 0

/-- The magnitude code of the largest finite value (R34). -/
def fmtMax : Nat → Nat
  | 0 => 0x7F7FFFFF | 1 => 0x7F7F | 2 => 0x7BFF | 3 => 0x7E | 4 => 0x7B | 5 => 0x1F | 6 => 0x1F | 7 => 0x7
  | 8 => 127 | 9 => 7 | _ => 0

/-- Two's complement reading of `w` bits. -/
def toSigned (w n : Nat) : Int := if n < 2 ^ (w - 1) then (n : Int) else (n : Int) - 2 ^ w

/-- Two's complement bits of an integer. -/
def fromSigned (w : Nat) (i : Int) : Nat := (i % (2 ^ w : Nat)).toNat

/-- The value of an integer. -/
def Fp.ofInt (i : Int) : Fp := .fin (decide (i < 0)) i.natAbs 0

/-- The exact value of an element code (R34, R35). -/
def fpDecode (fmt code : Nat) : Fp :=
  let bs := fmtBits fmt
  if fmtIsInt fmt then Fp.ofInt (toSigned bs (code % 2 ^ bs))
  else
    let neg := code.testBit (bs - 1)
    let mag := code % 2 ^ (bs - 1)
    let man := fmtMan fmt
    let ex := mag >>> man
    let m := mag % 2 ^ man
    if fmtHasInf fmt && decide (fmtInf fmt ≤ mag) then
      if mag = fmtInf fmt then .inf neg else .nan
    else if fmt = 3 && mag = 0x7F then .nan
    else if ex = 0 then .fin neg m (1 - (fmtBias fmt : Int) - (man : Int))
    else .fin neg (m + 2 ^ man) ((ex : Int) - (fmtBias fmt : Int) - (man : Int))

/-! ### Exact arithmetic (R52) -/

/-- Whether a value is exactly zero. -/
def Fp.isZero : Fp → Bool
  | .fin _ m _ => m = 0
  | _ => false

/-- Whether a value is NaN. -/
def Fp.isNan : Fp → Bool
  | .nan => true
  | _ => false

/-- Whether a value is an infinity. -/
def Fp.isInf : Fp → Bool
  | .inf _ => true
  | _ => false

/-- The sign bit of a value (a NaN has sign 0). -/
def Fp.neg? : Fp → Bool
  | .nan => false
  | .inf s => s
  | .fin s _ _ => s

/-- Minus a value. -/
def Fp.negate : Fp → Fp
  | .nan => .nan
  | .inf s => .inf (!s)
  | .fin s m e => .fin (!s) m e

/-- The magnitude of a value. -/
def Fp.abs : Fp → Fp
  | .nan => .nan
  | .inf _ => .inf false
  | .fin _ m e => .fin false m e

/-- A value times 2 to the k. -/
def Fp.scale (x : Fp) (k : Int) : Fp :=
  match x with
  | .fin s m e => .fin s m (e + k)
  | y => y

/-- The exact product: an infinity times a zero is NaN (R52). -/
def Fp.mul : Fp → Fp → Fp
  | .nan, _ => .nan
  | _, .nan => .nan
  | .inf a, .inf b => .inf (a != b)
  | .inf a, .fin b m _ => if m = 0 then .nan else .inf (a != b)
  | .fin a m _, .inf b => if m = 0 then .nan else .inf (a != b)
  | .fin a m e, .fin b n f => .fin (a != b) (m * n) (e + f)

/-- A signed multiple of 2 to the `e0` (`e0` at most the value's exponent). -/
def signedAt (s : Bool) (m : Nat) (e e0 : Int) : Int :=
  let v : Int := ((m * 2 ^ (e - e0).toNat : Nat) : Int)
  if s then -v else v

/-- The exact sum: infinities of opposite sign are NaN; a sum of zero is +0 unless both are −0 (R52). -/
def Fp.add : Fp → Fp → Fp
  | .nan, _ => .nan
  | _, .nan => .nan
  | .inf a, .inf b => if a = b then .inf a else .nan
  | .inf a, .fin _ _ _ => .inf a
  | .fin _ _ _, .inf b => .inf b
  | .fin a m e, .fin b n f =>
    let e0 := min e f
    let v := signedAt a m e e0 + signedAt b n f e0
    if v = 0 then .fin (a && b && m = 0 && n = 0) 0 e0 else .fin (decide (v < 0)) v.natAbs e0

/-- The exponent of a nonzero finite value: it lies from 2 to that power up to twice it. -/
def expOf (m : Nat) (e : Int) : Int := (Nat.log2 m : Int) + e

/-- The order of two finite magnitudes: m times 2 to the e is less than n times 2 to the f. -/
def magLt (m : Nat) (e : Int) (n : Nat) (f : Int) : Bool :=
  let e0 := min e f
  decide (m * 2 ^ (e - e0).toNat < n * 2 ^ (f - e0).toNat)

/-- Less than, with zeros of both signs equal; false when either is NaN. -/
def Fp.lt : Fp → Fp → Bool
  | .nan, _ => false
  | _, .nan => false
  | .inf a, .inf b => a && !b
  | .inf a, .fin _ _ _ => a
  | .fin _ _ _, .inf b => !b
  | .fin a m e, .fin b n f =>
    let e0 := min e f
    decide (signedAt a m e e0 < signedAt b n f e0)

/-- Equality of values, zeros of both signs equal; false when either is NaN. -/
def Fp.eq (x y : Fp) : Bool := !x.isNan && !y.isNan && !x.lt y && !y.lt x

/-! ### Rounding (R48, R49) -/

/-- A magnitude as a whole number of steps of 2 to the q, rounded: by RNE (no draw) or by SR with the draw u (R49). -/
def roundSteps (u : Option Nat) (m : Nat) (e q : Int) : Nat :=
  if q ≤ e then m * 2 ^ (e - q).toNat
  else
    let sh := (q - e).toNat
    let n := m >>> sh
    let r := m % 2 ^ sh
    if r = 0 then n
    else
      match u with
      | some draw => if draw < 65536 * r / 2 ^ sh then n + 1 else n
      | none => if 2 * r < 2 ^ sh then n else if 2 ^ sh < 2 * r then n + 1 else n + n % 2

/-- The magnitude code of a nonzero finite magnitude in a floating-point format, rounded with an unbounded exponent: a
result above `fmtMax` is an overflow. -/
def roundCode (fmt : Nat) (u : Option Nat) (m : Nat) (e : Int) : Nat :=
  let man : Int := fmtMan fmt
  let emin : Int := 1 - (fmtBias fmt : Int) - man
  let q := max (expOf m e - man) emin
  (q - emin).toNat * 2 ^ fmtMan fmt + roundSteps u m e q

/-- The bits of FP32 of a value by RNE, infinities and overflow as infinities (R52). -/
def f32Bits : Fp → Nat
  | .nan => fmtNan 0
  | .inf s => b2n s * 2 ^ 31 + fmtInf 0
  | .fin s m e => b2n s * 2 ^ 31 + (if m = 0 then 0 else min (roundCode 0 none m e) (fmtInf 0))

/-- A value rounded to FP32 (RNE). -/
def toF32 (x : Fp) : F32 := BitVec.ofNat 32 (f32Bits x)

/-- The value of FP32 bits. -/
def ofF32 (b : F32) : Fp := fpDecode 0 b.toNat

/-- The FP32 sum (RNE). -/
def f32Add (a b : F32) : F32 := toF32 ((ofF32 a).add (ofF32 b))

/-- The FP32 difference. -/
def f32Sub (a b : F32) : F32 := toF32 ((ofF32 a).add (ofF32 b).negate)

/-- The FP32 product. -/
def f32Mul (a b : F32) : F32 := toF32 ((ofF32 a).mul (ofF32 b))

/-- The FP32 fused multiply-add: one rounding. -/
def f32Fma (a b c : F32) : F32 := toF32 (((ofF32 a).mul (ofF32 b)).add (ofF32 c))

/-- A quotient of magnitudes with enough bits and a sticky bit for one correct rounding to FP32. -/
def divSticky (m : Nat) (e : Int) (n : Nat) (f : Int) : Nat × Int :=
  let k := Nat.log2 n + 32 - min (Nat.log2 m) (Nat.log2 n + 31)
  let q := m * 2 ^ k / n
  (2 * q + b2n (decide (m * 2 ^ k % n ≠ 0)), e - f - (k : Int) - 1)

/-- The quotient, exact but for a sticky bit far below FP32's precision (R52: 0/0 and infinity over infinity are NaN, a
nonzero finite value over zero is an infinity, per IEEE 754). -/
def Fp.div : Fp → Fp → Fp
  | .nan, _ => .nan
  | _, .nan => .nan
  | .inf _, .inf _ => .nan
  | .inf a, .fin b _ _ => .inf (a != b)
  | .fin a _ _, .inf b => .fin (a != b) 0 0
  | .fin a m e, .fin b n f =>
    if n = 0 then (if m = 0 then .nan else .inf (a != b))
    else if m = 0 then .fin (a != b) 0 0
    else let q := divSticky m e n f; .fin (a != b) q.1 q.2

/-- The FP32 quotient, rounded once (RNE). -/
def f32Div (a b : F32) : F32 := toF32 ((ofF32 a).div (ofF32 b))

/-- The square root, exact but for a sticky bit (IEEE 754: of −0 it is −0, of a negative value NaN). -/
def Fp.sqrt : Fp → Fp
  | .nan => .nan
  | .inf s => if s then .nan else .inf false
  | .fin s m e =>
    if m = 0 then .fin s 0 0
    else if s then .nan
    else
      let k : Nat := 64 + (if (e - 64) % 2 = 0 then 0 else 1)
      let n := m * 2 ^ k
      let r := isqrt (Nat.log2 n / 2 + 1) n
      .fin false (2 * r + b2n (decide (r * r ≠ n))) ((e - (k : Int)) / 2 - 1)

/-- The FP32 square root, rounded once (RNE). -/
def f32Sqrt (a : F32) : F32 := toF32 (ofF32 a).sqrt

/-- +0. -/
def f32Zero : F32 := 0

/-- 1.0. -/
def f32One : F32 := 0x3F800000

/-- The canonical FP32 NaN (R35). -/
def f32Nan : F32 := 0x7FC00000

/-- Minus an FP32 value: a NaN becomes the canonical NaN (R35). -/
def f32Neg (a : F32) : F32 := toF32 (ofF32 a).negate

/-- The magnitude of an FP32 value. -/
def f32Abs (a : F32) : F32 := toF32 (ofF32 a).abs

/-- Whether FP32 bits are a NaN. -/
def f32IsNan (a : F32) : Bool := (ofF32 a).isNan

/-- Whether FP32 bits are a NaN or an infinity. -/
def f32NonFinite (a : F32) : Bool := (ofF32 a).isNan || (ofF32 a).isInf

/-! ### The stochastic draw (R50) -/

/-- The mixing of R50: three rounds modulo 2 to the 64. -/
def splitMix (x0 : Word) : Word :=
  let x := x0 + 0x9E3779B97F4A7C15
  let x := (x ^^^ (x >>> 30)) * 0xBF58476D1CE4E5B9
  let x := (x ^^^ (x >>> 27)) * 0x94D049BB133111EB
  x ^^^ (x >>> 31)

/-- The 16-bit draw of R50 for a seed, a tag and a linear index. -/
def srDraw (seed : Word) (tag i : Nat) : Nat :=
  (splitMix (seed ^^^ (BitVec.ofNat 64 (tag % 2 ^ 16) <<< 48) ^^^ BitVec.ofNat 64 (i % 2 ^ 48)) >>> 48).toNat

/-! ### Block scales and the tensor scale (R38 to R42) -/

/-- The block scale of a byte: 2 to the S − 127, or NaN for 0xFF (R39, R40). -/
def blockExp (s : Nat) : Option Int := if s = 0xFF then none else some ((s : Int) - 127)

/-- An element of a block: its value under the block's scale, INT8 as a multiple of 2 to the −6 (R39, R40). -/
def blockDecode (fmt code s : Nat) : Fp :=
  match blockExp s with
  | none => .nan
  | some x => ((fpDecode fmt code).scale (if fmt = 8 then -6 else 0)).scale x

/-- A legal tensor scale: positive, finite, normal (R41). -/
def tscaleOk (t : F32) : Bool := decide (0x00800000 ≤ t.toNat) && decide (t.toNat < 0x7F800000)

/-! ### Packed elements (R36) -/

/-- Bytes that hold n elements of a format. -/
def packedBytes (fmt n : Nat) : Nat :=
  if fmtBits fmt = 6 then (n + 3) / 4 * 3 else (n * fmtBits fmt + 7) / 8

/-- The element codes packed in bytes: `n` codes of `w` bits each, least significant first. -/
def unpackBits (w : Nat) : (n : Nat) → Nat → List Nat
  | 0, _ => []
  | n + 1, x => x % 2 ^ w :: unpackBits w n (x >>> w)

/-- The number that codes of `w` bits spell, least significant first. -/
def packBits (w : Nat) : List Nat → Nat
  | [] => 0
  | c :: r => c % 2 ^ w + packBits w r * 2 ^ w

/-- The first `n` element codes of a packed run of bytes; every format packs least significant bits first (R36). -/
def unpackCodes (fmt n : Nat) (bs : List Byte) : List Nat := unpackBits (fmtBits fmt) n (leNat bs)

/-- Element codes packed into bytes, unused bits 0 (R36). -/
def packCodes (fmt : Nat) (cs : List Nat) : List Byte :=
  leBytes (packedBytes fmt cs.length) (packBits (fmtBits fmt) cs)

/-! ### The adder tree (R44) -/

/-- The largest exponent among the nonzero finite terms. -/
def topExp : List Fp → Option Int
  | [] => none
  | .fin _ m e :: r =>
    match topExp r with
    | none => if m = 0 then none else some (expOf m e)
    | some x => if m = 0 then some x else some (max x (expOf m e))
  | _ :: r => topExp r

/-- A term's magnitude as a whole number of steps of 2 to the `q`, cut, with its sign (R44 step 3). -/
def truncTerm (q : Int) : Fp → Int
  | .fin s m e =>
    let n : Int := ((if q ≤ e then m * 2 ^ (e - q).toNat else m >>> (q - e).toNat : Nat) : Int)
    if s then -n else n
  | _ => 0

/-- The tree result of one issue in FP32 (R44). -/
def treeSum (ts : List Fp) : F32 :=
  let pos := ts.any (· = .inf false)
  let neg := ts.any (· = .inf true)
  if ts.any Fp.isNan || (pos && neg) then f32Nan
  else if pos then toF32 (.inf false)
  else if neg then toF32 (.inf true)
  else
    match topExp ts with
    | none => toF32 (.fin (ts.all Fp.neg? && !ts.isEmpty) 0 0)
    | some x =>
      let q := x - 31
      toF32 (Fp.ofInt ((ts.map (truncTerm q)).foldl (· + ·) 0) |>.scale q)

end Sys2Proof.Machine
end

