-- ==== Sys2Proof/Machine/Flags.lean ====
section
/-! DEFINITION. Conversion to a destination format with its corners and flags (R43, R53) and the arithmetic status bits
(R54): NAN_OUT 1, OVF 2, UNF 4, NAN_LOST 8, INT_SAT 16. -/

namespace Sys2Proof.Machine

/-- The arithmetic status bits (R54). -/
def flagNanOut : Nat := 1
/-- A value overflowed, or an infinity was written or saturated (R54). -/
def flagOvf : Nat := 2
/-- A nonzero value was written as zero (R54). -/
def flagUnf : Nat := 4
/-- A NaN was written to a format that cannot hold it (R54). -/
def flagNanLost : Nat := 8
/-- An INT32 accumulator saturated (R54). -/
def flagIntSat : Nat := 16

/-- A signed magnitude code of a floating-point format. -/
def signedCode (fmt : Nat) (s : Bool) (mag : Nat) : Nat := b2n s * 2 ^ (fmtBits fmt - 1) + mag

/-- Conversion to an integer format: rounded, clamped (R53). -/
def convInt (fmt : Nat) (u : Option Nat) : Fp → Nat × Nat
  | .nan => (0, flagNanLost)
  | .inf s => (if s then 2 ^ (fmtBits fmt - 1) else fmtMax fmt, flagOvf)
  | .fin s m e =>
    let n := if m = 0 then 0 else roundSteps u m e 0
    if s then
      if 2 ^ (fmtBits fmt - 1) < n then (2 ^ (fmtBits fmt - 1), flagOvf)
      else (fromSigned (fmtBits fmt) (-(n : Int)), 0)
    else if fmtMax fmt < n then (fmtMax fmt, flagOvf)
    else (n, 0)

/-- What an overflow or an infinity is written as: the largest finite value under SATURATE or where the format has no
infinity, else infinity (R51, R53). -/
def overCode (fmt : Nat) (sat s : Bool) : Nat :=
  signedCode fmt s (if sat || !fmtHasInf fmt then fmtMax fmt else fmtInf fmt)

/-- Conversion of a value to a format: its code and the flags it sets (R53). `sat` is INF_MODE SATURATE; `u` is the draw
of R50 under SR. -/
def convert (fmt : Nat) (sat : Bool) (u : Option Nat) (x : Fp) : Nat × Nat :=
  if fmtIsInt fmt then convInt fmt u x
  else
    match x with
    | .nan => if fmtHasNan fmt then (fmtNan fmt, flagNanOut) else (0, flagNanLost)
    | .inf s => (overCode fmt sat s, flagOvf)
    | .fin s m e =>
      if m = 0 then (signedCode fmt s 0, 0)
      else
        let c := roundCode fmt u m e
        if fmtMax fmt < c then (overCode fmt sat s, flagOvf)
        else (signedCode fmt s c, if c = 0 then flagUnf else 0)

/-- The emax of R43 step 4. -/
def blockEmax : Nat → Int
  | 3 => 8 | 4 => 15 | 5 => 4 | 6 => 2 | 7 => 2 | _ => 0

/-- A magnitude is at most another. -/
def magMax : List Fp → Option (Nat × Int)
  | [] => none
  | .fin _ m e :: r =>
    match magMax r with
    | none => if m = 0 then none else some (m, e)
    | some (n, f) => if m ≠ 0 && magLt n f m e then some (m, e) else some (n, f)
  | _ :: r => magMax r

/-- One element of a block with exponent X (R43 steps 5 and 6): finite values saturate in both INF_MODE settings; an
infinity left by step 2 is written as an infinity (DEDUCED, log entry 43). -/
def blockElem (fmt : Nat) (x : Int) (u : Option Nat) (v : Fp) : Nat × Nat :=
  match v with
  | .inf s => (overCode fmt false s, flagOvf)
  | _ =>
    if fmt = 8 then
      let r := convert fmt true u (v.scale (6 - x))
      if r.1 = 0x80 then (0x81, flagOvf) else r
    else convert fmt true u (v.scale (-x))

/-- A block-scaled store of at most 32 values with their draws: the scale byte, the element codes and the flags (R43). -/
def blockStore (fmt : Nat) (sat : Bool) (vs : List Fp) (us : List (Option Nat)) : Nat × List Nat × Nat :=
  let nanBlock : Nat × List Nat × Nat := (0xFF, vs.map (fun _ => 0), flagNanOut)
  let anyInf := vs.any Fp.isInf
  if vs.any Fp.isNan then nanBlock
  else if anyInf && !sat && fmt ≠ 4 then nanBlock
  else
    let big : Bool → Fp := fun s => fpDecode 0 (signedCode 0 s (fmtMax 0))
    let ws := if sat then vs.map (fun v => match v with | .inf s => big s | w => w) else vs
    let f0 := if anyInf then flagOvf else 0
    match magMax ws with
    | none =>
      let es := ws.map (fun v => match v with
        | .inf s => overCode fmt false s
        | v => if fmt = 8 then 0 else signedCode fmt v.neg? 0)
      (0, es, f0)
    | some (m, e) =>
      let x := max (-127) (min 127 (expOf m e - blockEmax fmt))
      let rs := List.zipWith (blockElem fmt x) us ws
      ((x + 127).toNat, rs.map (·.1), rs.foldl (fun acc r => acc ||| r.2) f0)

/-- A store rule: how the values one operation writes are rounded (R48, R50). -/
structure StoreRule where
  sat : Bool
  sr : Bool
  seed : Word
  tag : Nat
  deriving DecidableEq, Repr

/-- The draw for element index i under a rule. -/
def StoreRule.draw (r : StoreRule) (i : Nat) : Option Nat := if r.sr then some (srDraw r.seed r.tag i) else none

/-- Values converted one by one, element j having index `i0 + j`. -/
def convertAll (fmt : Nat) (r : StoreRule) (i0 : Nat) (vs : List Fp) : List Nat × Nat :=
  let rs := (List.range vs.length).zipWith (fun j v => convert fmt r.sat (r.draw (i0 + j)) v) vs
  (rs.map (·.1), rs.foldl (fun acc x => acc ||| x.2) 0)

/-- Values converted in blocks of 32: scale bytes, element codes, flags. -/
def blockStoreAll (fmt : Nat) (r : StoreRule) : (fuel i0 : Nat) → List Fp → List Nat × List Nat × Nat
  | 0, _, _ => ([], [], 0)
  | k + 1, i0, vs =>
    if vs.isEmpty then ([], [], 0)
    else
      let h := vs.take 32
      let b := blockStore fmt r.sat h ((List.range h.length).map (fun j => r.draw (i0 + j)))
      let t := blockStoreAll fmt r k (i0 + 32) (vs.drop 32)
      (b.1 :: t.1, b.2.1 ++ t.2.1, b.2.2 ||| t.2.2)

end Sys2Proof.Machine
end

