-- ==== Sys2Proof/Config.lean ====
section
/-! DEFINITION. What one module has fixed at test and what the spec leaves open: opaque constants without a body, so that
no proof can lean on a value. A free value drawn anew each time is applied to the counter `fresh` of the state. -/

namespace Sys2Proof.Config

/-- The fixed frequency of operating point i in MHz, the same in every cluster (R351). -/
def vfFreq (i : Nat) : Nat :=
  ([800, 900, 1000, 1100, 1200, 1300, 1400, 1500, 1600, 1700, 1800, 1900, 1950, 2000, 2100, 2200] : List Nat).getD i 0

/-- The fused voltage of point i of cluster c in mV (R351) (DESIGN CHOICE, log entry 10). -/
opaque vfVolt : Nat → Nat → BitVec 10

/-- The fused worst-case current of point i of cluster c, before the limit of 126 A (R351). -/
opaque vfImaxRaw : Nat → Nat → BitVec 8

/-- The worst-case current of point i of cluster c in A: none exceeds 126 (R351). -/
def vfImax (c i : Nat) : Nat := min (vfImaxRaw c i).toNat 126

/-- CLU_VF of cluster c, point i (R374). -/
def vfPoint (c i : Nat) : Word :=
  BitVec.ofNat 64 (vfFreq i + (vfVolt c i).toNat * 2 ^ 12 + vfImax c i * 2 ^ 22)

/-- Whether a corrected error read shows the controller that its far interface pin has failed: R137 gives no criterion.
A free value, drawn anew each time (DESIGN CHOICE, log entry 6). -/
opaque pinDiagnosed : Nat → Bool

/-- Which tiles the firmware gives each stage of a pipeline, from its descriptor and containers and the free tiles: R100
says what the placement depends on and no more. -/
opaque placement : List Byte → List Nat → List (List Nat)

/-- Whether the reserved rounding code 3 of an operand rounds stochastically: R84 reserves it and no check refuses it
(DESIGN CHOICE, log entry 45). -/
opaque rndThree : Bool

/-- How an accumulator entry reads when integer and floating-point results meet in it: no rule says it (R45, R46). The
flag says whether it is read as an integer (DESIGN CHOICE, log entry 37). -/
opaque accAs : Bool → BitVec 32 → BitVec 32

/-- The product of tensor scales that applies at drain to an entry built by operations with two different products: R42
speaks of one operation. -/
opaque mixedScale : BitVec 32 → BitVec 32 → BitVec 32

/-- The comparison of a condition code that R82 does not list (4 to 31) (DESIGN CHOICE, log entry 46). -/
opaque cmpOther : Nat → Nat → Nat → Bool

/-- How many units in the last place a result that the spec only bounds lies from the correctly rounded one: by
operation and operands, so that results are reproducible (R47, R73). Results outside the bound do not count. -/
opaque ulpPick : Nat → Nat → Nat → Int

/-- What GINFO reads for an item that its table does not list (DESIGN CHOICE, log entry 49). -/
opaque ginfoOther : Nat → Nat

/-- How many 128-byte lines a tile copy has written when a resign stops it (R312): free (log entry 145). -/
opaque linesCopied : Nat → Nat

/-- Whether a stopped in-stack command had written granule `k` of its destination: R168 says that it may be partly written.
Drawn anew for each command. -/
opaque partlyWritten : Nat → Nat → Bool

/-- How many 4 KiB boundaries a copy has passed when a resign stops it (R312). Drawn anew for each copy. -/
opaque copyPages : Nat → Nat

/-- What the capping law gives when the effective cap is 0 W: R360 then divides by 0. Drawn anew each time. -/
opaque capAtZero : Nat → BitVec 10

/-- The 64-bit serial in the fuses (R410). -/
opaque serial : BitVec 64

/-- The device's SM2 public key, x then y (R411). -/
opaque devPub : BitVec 512

/-- ID_ENDORSE: Voanadar's signature over SERIAL and the device public key (R410). -/
opaque endorse : BitVec 512

/-- The SM3 digest of the boot ROM, M_ROM of R411. -/
opaque romDigest : BitVec 256

/-- ROOT_FW, the fused digest of the vendor firmware public key (R410). -/
opaque rootFw : BitVec 256

/-- ROOT_DBG, the fused digest of the vendor debug public key (R410). -/
opaque rootDbg : BitVec 256

/-- Whether an SM2 signature verifies: public key, message, signature, per GB/T 32918, which the spec cites and does not
state (R326, R411, R413) (DESIGN CHOICE, log entry 16). -/
opaque sm2Verify : List (BitVec 8) → List (BitVec 8) → List (BitVec 8) → Bool

/-- The SM2 signature by ID_KEY over a message, with the random number that it draws (R410, R411). -/
opaque sm2Sign : List (BitVec 8) → Nat → BitVec 512

/-- The device's random source: 32 bytes of a challenge (R412). Drawn anew each time. -/
opaque challenge : Nat → BitVec 256

/-- The manufacturer's identity in IDCODE, which R426 does not give. -/
opaque idManufacturer : BitVec 11

/-- What the scan chains give through the test access port once it is unlocked (R412): the spec lists no registers of the
management core. Drawn anew each time. -/
opaque scanOut : Nat → BitVec 32

/-- MGT_FW_STAT.BEAT as a read finds it: the spec gives the firmware's main loop no rate (R346). Drawn anew each time
(DESIGN CHOICE, log entry 118). -/
opaque beat : Nat → BitVec 32

/-- The block scale `b` that an issue in latent read mode takes from its 64-byte slot: R67 says that the slot holds it and not where
(DESIGN CHOICE, log entry 140). -/
opaque latentScale : Nat → Nat → List Byte → Byte

/-- The wrong symbol that a failed pin of a far stack puts into a granule: R137 gives no value. A 0 counts as 1, since it is corrupted
(DESIGN CHOICE, log entry 143). -/
opaque pinWrong : Nat → Nat → Nat → Byte

end Sys2Proof.Config
end

