-- ==== Sys2Proof/Machine/Ecc.lean ====
section
/-! DEFINITION. The check code of protected storage (R139 to R141): a Reed-Solomon code over GF(2^8). A stored word is a
code word plus its wrong symbols, so the syndromes depend on the wrong symbols alone. -/

namespace Sys2Proof.Machine

/-- Multiply a field element by x modulo x^8 + x^4 + x^3 + x^2 + 1 (R139). -/
def gfTimesX (a : Byte) : Byte := if a.msb then (a <<< 1) ^^^ 0x1D else a <<< 1

/-- The product of two field elements: the bits of `b` from bit `k - 1` down, by Horner's rule. -/
def gfMulAux (a b : Byte) : Nat → Byte
  | 0 => 0
  | k + 1 => gfMulAux (gfTimesX a) (b >>> 1) k ^^^ (if b.getLsbD 0 then a else 0)

/-- The product of two field elements. -/
def gfMul (a b : Byte) : Byte := gfMulAux a b 8

/-- α to the power `n`, α = 0x02. -/
def gfPow : Nat → Byte
  | 0 => 1
  | n + 1 => gfTimesX (gfPow n)

/-- Wrong symbols of a word: (position, error value), positions 0 to 76 (R139: check bytes at 0 to 7, data at 8 to 71,
address at 72 to 76). -/
abbrev Wrong := List (Nat × Byte)

/-- Syndrome `j` of a word with these wrong symbols. -/
def syndrome (w : Wrong) (j : Nat) : Byte := w.foldl (fun acc e => acc ^^^ gfMul e.2 (gfPow (j * e.1 % 255))) 0

/-- The 8 syndromes. -/
def syndromes (w : Wrong) : List Byte := (List.range 8).map (syndrome w)

/-- What the decoder finds (R141). -/
inductive Decoded where
  | clean
  | corrected (pos : Nat) (val : Byte)
  | addrErr
  | ue
  deriving DecidableEq, Repr

/-- The decoder: all syndromes zero, or one error located at one of the 77 positions, or uncorrectable. -/
def decodeWord (w : Wrong) : Decoded :=
  let s := syndromes w
  if s.all (· == 0) then .clean
  else
    let v := s.headD 0
    match (List.range 77).find? (fun p => v ≠ 0 && decide (s = syndromes [(p, v)])) with
    | none => .ue
    | some p => if p < 72 then .corrected p v else .addrErr

/-- The wrong symbols left after a symbol has been changed by `v` at position `p`. -/
def wrongXor (w : Wrong) (p : Nat) (v : Byte) : Wrong :=
  match look p w with
  | none => (p, v) :: w
  | some x => if x ^^^ v = 0 then w.filter (fun e => e.1 ≠ p) else put p (x ^^^ v) w

/-- The wrong symbols of two disturbances together. -/
def wrongAdd (a b : Wrong) : Wrong := b.foldl (fun acc e => if e.2 = 0 then acc else wrongXor acc e.1 e.2) a

/-- The 8 check bytes of a granule (R139): the remainder of M(x) modulo g(x), here by solving nothing: Horner division by
the generator polynomial, highest message symbol first. `g` holds the coefficients of g(x) below x^8, lowest first. -/
def rsStep (g rem : List Byte) (m : Byte) : List Byte :=
  let top := (rem.getLastD 0) ^^^ m
  List.zipWith (fun r c => r ^^^ gfMul top c) (0 :: rem.dropLast) g

/-- The product of a polynomial (lowest coefficient first) and (x + r). -/
def polyTimes (p : List Byte) (r : Byte) : List Byte :=
  List.zipWith (· ^^^ ·) (0 :: p) (p.map (gfMul r) ++ [0])

/-- g(x) = (x + α^0)(x + α^1)...(x + α^7), lowest coefficient first, with its leading 1 (R139). -/
def rsGenerator : List Byte := (List.range 8).foldl (fun p i => polyTimes p (gfPow i)) [1]

/-- The check bytes of the 64 data bytes at covered address `a` (R139, R140). -/
def checkBytes (data : List Byte) (a : Nat) : List Byte :=
  let m := data ++ leBytes 5 a
  m.reverse.foldl (rsStep (rsGenerator.take 8)) (List.replicate 8 0)

end Sys2Proof.Machine
end

