-- ==== Sys2Proof/Machine/Regs.lean ====
section
/-! DEFINITION. The register map (R20, R297 and the register tables of the chapters): the BAR0 offset of each register,
the place of each of its fields, and for every offset its reset value and the masks of its defined, read-write,
write-1-to-clear and clear-on-read bits. -/

namespace Sys2Proof.Machine

/-- The CLU block of cluster c (R20). -/
def cluBase (c : Nat) : Nat := 0x1000000 + c * 0x100000

/-- The TIL block of a tile (R20, R18). -/
def tilBase (t : Nat) : Nat := cluBase (t / 16) + 0x8000 + t % 16 * 0x8000

/-! ### Offsets -/

namespace R
/-- MGT_PERSONA, R346. -/
def MGT_PERSONA : Nat := 0x100200
/-- TIL_ID, R76. -/
def TIL_ID (t : Nat) : Nat := tilBase t + 0x0
/-- TIL_WIDTH, R76. -/
def TIL_WIDTH (t : Nat) : Nat := tilBase t + 0x8
/-- TIL_STATE, R76. -/
def TIL_STATE (t : Nat) : Nat := tilBase t + 0x10
/-- TIL_ARRAY_STAT, R76. -/
def TIL_ARRAY_STAT (t : Nat) : Nat := tilBase t + 0x18
/-- TIL_ISSUE_CNT, R76. -/
def TIL_ISSUE_CNT (t : Nat) : Nat := tilBase t + 0x20
/-- TIL_SHADOW_CNT, R76. -/
def TIL_SHADOW_CNT (t : Nat) : Nat := tilBase t + 0x28
/-- TIL_BUBBLE_CNT, R76. -/
def TIL_BUBBLE_CNT (t : Nat) : Nat := tilBase t + 0x30
/-- TIL_SRAM_ERR, R76. -/
def TIL_SRAM_ERR (t : Nat) : Nat := tilBase t + 0x38
/-- TIL_FAULT, R76. -/
def TIL_FAULT (t : Nat) : Nat := tilBase t + 0x40
/-- SYN_STAT, R98. -/
def SYN_STAT : Nat := 0x900000
/-- SYN_OBJ, R98. -/
def SYN_OBJ (n : Nat) : Nat := 0x910000 + n * 0x8
/-- NOC_CFG, R126. -/
def NOC_CFG : Nat := 0x800000
/-- NOC_VC_WEIGHT, R126. -/
def NOC_VC_WEIGHT : Nat := 0x800008
/-- NOC_EP_CNT, R126. -/
def NOC_EP_CNT : Nat := 0x800010
/-- NOC_EP_MISS, R126. -/
def NOC_EP_MISS : Nat := 0x800018
/-- NOC_PURGE, R126. -/
def NOC_PURGE : Nat := 0x800020
/-- NOC_LINK_ERR, R126. -/
def NOC_LINK_ERR : Nat := 0x800028
/-- NOC_JOB_DET, R126. -/
def NOC_JOB_DET (j : Nat) : Nat := 0x801000 + j * 0x8
/-- NOC_EDGE_CTL, R126. -/
def NOC_EDGE_CTL (e : Nat) : Nat := 0x802000 + e * 0x10
/-- NOC_EDGE_CNT, R126. -/
def NOC_EDGE_CNT (e : Nat) : Nat := 0x802008 + e * 0x10
/-- NOC_MCAST, R126. -/
def NOC_MCAST (g : Nat) : Nat := 0x804000 + g * 0x8
/-- MEM_CFG, R154. -/
def MEM_CFG : Nat := 0x400000
/-- MEM_SCRUB_CFG, R154. -/
def MEM_SCRUB_CFG : Nat := 0x400008
/-- MEM_EVAC, R154. -/
def MEM_EVAC : Nat := 0x400010
/-- MEM_LAST_UE, R154. -/
def MEM_LAST_UE : Nat := 0x400018
/-- MEM_NCH_STAT, R154. -/
def MEM_NCH_STAT (t : Nat) : Nat := 0x410000 + t * 0x10
/-- MEM_NCH_ERR, R154. -/
def MEM_NCH_ERR (t : Nat) : Nat := 0x410008 + t * 0x10
/-- MEM_FMC_STAT, R154. -/
def MEM_FMC_STAT (n : Nat) : Nat := 0x420000 + n * 0x20
/-- MEM_FMC_ERR, R154. -/
def MEM_FMC_ERR (n : Nat) : Nat := 0x420008 + n * 0x20
/-- MEM_FMC_SCRUB, R154. -/
def MEM_FMC_SCRUB (n : Nat) : Nat := 0x420010 + n * 0x20
/-- PIM_CFG, R174. -/
def PIM_CFG : Nat := 0x500000
/-- PIM_STK_BUDGET, R174. -/
def PIM_STK_BUDGET (n : Nat) : Nat := 0x501000 + n * 0x20
/-- PIM_STK_STAT, R174. -/
def PIM_STK_STAT (n : Nat) : Nat := 0x501008 + n * 0x20
/-- PIM_STK_HOLD, R174. -/
def PIM_STK_HOLD (n : Nat) : Nat := 0x501010 + n * 0x20
/-- PIM_STK_REF, R174. -/
def PIM_STK_REF (n : Nat) : Nat := 0x501018 + n * 0x20
/-- KVP_CFG, R200. -/
def KVP_CFG : Nat := 0xA00000
/-- KVP_STAT, R200. -/
def KVP_STAT : Nat := 0xA00008
/-- KVP_CNT, R200. -/
def KVP_CNT : Nat := 0xA00010
/-- KVP_ERR, R200. -/
def KVP_ERR : Nat := 0xA00018
/-- SMP_ERR, R216. -/
def SMP_ERR : Nat := 0xB00000
/-- SMP_STAT, R216. -/
def SMP_STAT (n : Nat) : Nat := 0xB01000 + n * 0x20
/-- SMP_TOK, R216. -/
def SMP_TOK (n : Nat) : Nat := 0xB01008 + n * 0x20
/-- SMP_GAMBIT, R216. -/
def SMP_GAMBIT (n : Nat) : Nat := 0xB01010 + n * 0x20
/-- UPD_CFG, R242. -/
def UPD_CFG : Nat := 0xC00000
/-- UPD_STAT, R242. -/
def UPD_STAT : Nat := 0xC00008
/-- UPD_AUDIT, R242. -/
def UPD_AUDIT : Nat := 0xC00010
/-- UPD_ENG_STAT, R242. -/
def UPD_ENG_STAT (n : Nat) : Nat := 0xC01000 + n * 0x20
/-- UPD_ENG_CNT, R242. -/
def UPD_ENG_CNT (n : Nat) : Nat := 0xC01008 + n * 0x20
/-- COL_CFG, R264. -/
def COL_CFG : Nat := 0x700000
/-- COL_STAT, R264. -/
def COL_STAT : Nat := 0x700008
/-- COL_CNT, R264. -/
def COL_CNT : Nat := 0x700010
/-- COL_STRAY, R264. -/
def COL_STRAY : Nat := 0x700018
/-- LNK_CFG, R290. -/
def LNK_CFG : Nat := 0x600000
/-- LNK_TEMPO, R290. -/
def LNK_TEMPO : Nat := 0x600008
/-- LNK_TEMPO_STAT, R290. -/
def LNK_TEMPO_STAT : Nat := 0x600010
/-- LNK_RING, R290. -/
def LNK_RING : Nat := 0x600018
/-- LNK_PORT_STAT, R290. -/
def LNK_PORT_STAT (k : Nat) : Nat := 0x601000 + k * 0x20
/-- LNK_PORT_PEER, R290. -/
def LNK_PORT_PEER (k : Nat) : Nat := 0x601008 + k * 0x20
/-- LNK_PORT_ERR, R290. -/
def LNK_PORT_ERR (k : Nat) : Nat := 0x601010 + k * 0x20
/-- LNK_PORT_CNT, R290. -/
def LNK_PORT_CNT (k : Nat) : Nat := 0x601018 + k * 0x20
/-- HIF_ID, R321. -/
def HIF_ID : Nat := 0x0
/-- HIF_LINK, R321. -/
def HIF_LINK : Nat := 0x8
/-- HIF_ERR, R321. -/
def HIF_ERR : Nat := 0x10
/-- HIF_FN_STAT, R321. -/
def HIF_FN_STAT (f : Nat) : Nat := 0x10000 + f * 0x1000 + 0x0
/-- HIF_FN_QUOTA, R321. -/
def HIF_FN_QUOTA (f : Nat) : Nat := 0x10000 + f * 0x1000 + 0x8
/-- HIF_ADMQ_SQ, R321. -/
def HIF_ADMQ_SQ (f : Nat) : Nat := 0x10000 + f * 0x1000 + 0x10
/-- HIF_ADMQ_CQ, R321. -/
def HIF_ADMQ_CQ (f : Nat) : Nat := 0x10000 + f * 0x1000 + 0x18
/-- HIF_ADMQ_CFG, R321. -/
def HIF_ADMQ_CFG (f : Nat) : Nat := 0x10000 + f * 0x1000 + 0x20
/-- HIF_ADMQ_TAIL, R321. -/
def HIF_ADMQ_TAIL (f : Nat) : Nat := 0x10000 + f * 0x1000 + 0x28
/-- HIF_ADMQ_HEAD, R321. -/
def HIF_ADMQ_HEAD (f : Nat) : Nat := 0x10000 + f * 0x1000 + 0x30
/-- HIF_HEARTBEAT, R321. -/
def HIF_HEARTBEAT (f : Nat) : Nat := 0x10000 + f * 0x1000 + 0x38
/-- HIF_RESIGN, R321. -/
def HIF_RESIGN (f : Nat) : Nat := 0x10000 + f * 0x1000 + 0x40
/-- HIF_RESIGN_STAT, R321. -/
def HIF_RESIGN_STAT (f : Nat) : Nat := 0x10000 + f * 0x1000 + 0x48
/-- MGT_ID, R346. -/
def MGT_ID : Nat := 0x100000
/-- MGT_FW_STAT, R346. -/
def MGT_FW_STAT : Nat := 0x100008
/-- MGT_LOG, R346. -/
def MGT_LOG : Nat := 0x100010
/-- MGT_TRACE, R346. -/
def MGT_TRACE : Nat := 0x100018
/-- MGT_TRACE_MASK, R346. -/
def MGT_TRACE_MASK (j : Nat) : Nat := 0x100020 + j * 0x8
/-- MGT_SCHED, R346. -/
def MGT_SCHED : Nat := 0x100040
/-- MGT_OWNER, R346. -/
def MGT_OWNER : Nat := 0x100048
/-- MGT_MB_REQ, R346. -/
def MGT_MB_REQ (m : Nat) : Nat := 0x101000 + m * 0x20
/-- MGT_MB_RSP, R346. -/
def MGT_MB_RSP (m : Nat) : Nat := 0x101008 + m * 0x20
/-- MGT_MB_DOOR, R346. -/
def MGT_MB_DOOR (m : Nat) : Nat := 0x101010 + m * 0x20
/-- MGT_MB_STAT, R346. -/
def MGT_MB_STAT (m : Nat) : Nat := 0x101018 + m * 0x20
/-- PWR_CFG, R373. -/
def PWR_CFG : Nat := 0x200000
/-- PWR_CAP, R373. -/
def PWR_CAP : Nat := 0x200008
/-- PWR_STAT, R373. -/
def PWR_STAT : Nat := 0x200010
/-- PWR_CONV, R373. -/
def PWR_CONV : Nat := 0x200018
/-- PWR_E_INPUT, R373. -/
def PWR_E_INPUT : Nat := 0x200020
/-- PWR_E_OVERHEAD, R373. -/
def PWR_E_OVERHEAD : Nat := 0x200028
/-- PWR_Q_ENERGY, R373. -/
def PWR_Q_ENERGY (q : Nat) : Nat := 0x210000 + q * 0x8
/-- CLU_PWR_CFG, R374. -/
def CLU_PWR_CFG (c : Nat) : Nat := cluBase c + 0x0
/-- CLU_PWR_STAT, R374. -/
def CLU_PWR_STAT (c : Nat) : Nat := cluBase c + 0x8
/-- CLU_IVR, R374. -/
def CLU_IVR (c : Nat) : Nat := cluBase c + 0x10
/-- CLU_ENERGY, R374. -/
def CLU_ENERGY (c : Nat) : Nat := cluBase c + 0x18
/-- CLU_IDLE_ENERGY, R374. -/
def CLU_IDLE_ENERGY (c : Nat) : Nat := cluBase c + 0x20
/-- CLU_DROOP, R374. -/
def CLU_DROOP (c : Nat) : Nat := cluBase c + 0x28
/-- CLU_STRESS, R374. -/
def CLU_STRESS (c : Nat) : Nat := cluBase c + 0x30
/-- CLU_VF, R374. -/
def CLU_VF (c i : Nat) : Nat := cluBase c + 0x100 + i * 8
/-- THM_STAT, R395. -/
def THM_STAT : Nat := 0x300000
/-- THM_COOLANT, R395. -/
def THM_COOLANT : Nat := 0x300008
/-- THM_STOP, R395. -/
def THM_STOP : Nat := 0x300010
/-- THM_STOP_TEMPO, R395. -/
def THM_STOP_TEMPO : Nat := 0x300018
/-- THM_TRIP_REC, R395. -/
def THM_TRIP_REC : Nat := 0x300020
/-- THM_CASTLE, R395. -/
def THM_CASTLE : Nat := 0x300028
/-- THM_TILE, R395. -/
def THM_TILE (t : Nat) : Nat := 0x301000 + t * 0x8
/-- THM_NM, R395. -/
def THM_NM (t : Nat) : Nat := 0x302000 + t * 0x8
/-- THM_FAR, R395. -/
def THM_FAR (n : Nat) : Nat := 0x303000 + n * 0x8
/-- THM_FAR_DIE, R395. -/
def THM_FAR_DIE (n j : Nat) : Nat := 0x303100 + n * 0x20 + j * 8
/-- THM_EDGE, R395. -/
def THM_EDGE (e : Nat) : Nat := 0x303800 + e * 0x8
/-- THM_NM_MODEL, R395. -/
def THM_NM_MODEL (t : Nat) : Nat := 0x304000 + t * 0x8
/-- THM_CLU, R395. -/
def THM_CLU (c : Nat) : Nat := 0x305000 + c * 0x8

end R

/-! ### Fields: name, lowest bit, width -/

namespace F
/-- RO -/
def MGT_PERSONA_PERSONA : Field := ⟨0, 3⟩
/-- RO -/
def MGT_PERSONA_CFG_STATE : Field := ⟨8, 2⟩
/-- RO -/
def MGT_PERSONA_CHANGE_COUNT : Field := ⟨16, 16⟩
/-- RO -/
def MGT_PERSONA_ACTIVE_CLUSTERS : Field := ⟨32, 16⟩
/-- RO -/
def TIL_ID_TILE_NUM : Field := ⟨0, 8⟩
/-- RO -/
def TIL_ID_CLUSTER : Field := ⟨8, 4⟩
/-- RO -/
def TIL_ID_TIC : Field := ⟨12, 4⟩
/-- RO -/
def TIL_ID_FILE : Field := ⟨16, 4⟩
/-- RO -/
def TIL_ID_RANK : Field := ⟨20, 4⟩
/-- RO -/
def TIL_WIDTH_WIDTH : Field := ⟨0, 8⟩
/-- RO -/
def TIL_WIDTH_RETIRED : Field := ⟨8, 1⟩
/-- RO -/
def TIL_WIDTH_GOOD : Field := ⟨16, 8⟩
/-- RO -/
def TIL_STATE_STATE : Field := ⟨0, 3⟩
/-- RO -/
def TIL_STATE_CTX : Field := ⟨8, 10⟩
/-- RO -/
def TIL_STATE_JOB : Field := ⟨20, 12⟩
/-- RO -/
def TIL_STATE_STAGE : Field := ⟨32, 16⟩
/-- RO -/
def TIL_ARRAY_STAT_LEVEL : Field := ⟨0, 4⟩
/-- RO -/
def TIL_ARRAY_STAT_RAMP_SHORT : Field := ⟨4, 1⟩
/-- RO -/
def TIL_ARRAY_STAT_WSET : Field := ⟨5, 1⟩
/-- RO -/
def TIL_ARRAY_STAT_LOAD : Field := ⟨6, 2⟩
/-- RO -/
def TIL_ARRAY_STAT_LATENT : Field := ⟨8, 1⟩
/-- RO -/
def TIL_ISSUE_CNT_COUNT : Field := ⟨0, 64⟩
/-- RO -/
def TIL_SHADOW_CNT_COUNT : Field := ⟨0, 64⟩
/-- RO -/
def TIL_BUBBLE_CNT_COUNT : Field := ⟨0, 64⟩
/-- RC -/
def TIL_SRAM_ERR_CE_COUNT : Field := ⟨0, 32⟩
/-- RC -/
def TIL_SRAM_ERR_UE_COUNT : Field := ⟨32, 16⟩
/-- RO -/
def TIL_FAULT_EVENT : Field := ⟨0, 16⟩
/-- RO -/
def TIL_FAULT_PC : Field := ⟨16, 32⟩
/-- RC -/
def SYN_STAT_TIMEOUTS : Field := ⟨0, 32⟩
/-- RC -/
def SYN_STAT_SATURATED : Field := ⟨32, 16⟩
/-- RC -/
def SYN_STAT_REFUSED : Field := ⟨48, 16⟩
/-- RO -/
def SYN_OBJ_VALUE : Field := ⟨0, 32⟩
/-- RO -/
def SYN_OBJ_CTX : Field := ⟨32, 10⟩
/-- RO -/
def SYN_OBJ_ALLOC : Field := ⟨42, 1⟩
/-- RO -/
def SYN_OBJ_JOB : Field := ⟨44, 12⟩
/-- RO -/
def SYN_OBJ_WAITERS : Field := ⟨56, 8⟩
/-- RO -/
def NOC_CFG_EP_HOLD : Field := ⟨0, 9⟩
/-- RO -/
def NOC_CFG_EP_EN : Field := ⟨9, 1⟩
/-- RO -/
def NOC_VC_WEIGHT_WVC1 : Field := ⟨0, 4⟩
/-- RO -/
def NOC_VC_WEIGHT_WVC2 : Field := ⟨4, 4⟩
/-- RO -/
def NOC_VC_WEIGHT_WVC3 : Field := ⟨8, 4⟩
/-- RO -/
def NOC_VC_WEIGHT_WVC4 : Field := ⟨12, 4⟩
/-- RO -/
def NOC_VC_WEIGHT_WVC5 : Field := ⟨16, 4⟩
/-- RO -/
def NOC_VC_WEIGHT_WVC6 : Field := ⟨20, 4⟩
/-- RO -/
def NOC_VC_WEIGHT_WVC7 : Field := ⟨24, 4⟩
/-- RC -/
def NOC_EP_CNT_MERGES : Field := ⟨0, 48⟩
/-- RC -/
def NOC_EP_CNT_DET_RED : Field := ⟨48, 16⟩
/-- RC -/
def NOC_EP_MISS_EXPIRED : Field := ⟨0, 32⟩
/-- RC -/
def NOC_EP_MISS_NOFREE : Field := ⟨32, 16⟩
/-- RC -/
def NOC_EP_MISS_NONFINITE : Field := ⟨48, 16⟩
/-- RO -/
def NOC_PURGE_JOB : Field := ⟨0, 12⟩
/-- RO -/
def NOC_PURGE_BUSY : Field := ⟨12, 1⟩
/-- RO -/
def NOC_PURGE_COUNT : Field := ⟨16, 32⟩
/-- RC -/
def NOC_LINK_ERR_RETRIES : Field := ⟨0, 32⟩
/-- RO -/
def NOC_LINK_ERR_FAILED : Field := ⟨32, 1⟩
/-- RO -/
def NOC_LINK_ERR_DIR : Field := ⟨33, 3⟩
/-- RO -/
def NOC_LINK_ERR_NODE : Field := ⟨36, 10⟩
/-- RC -/
def NOC_LINK_ERR_BADDST : Field := ⟨48, 16⟩
/-- RO -/
def NOC_JOB_DET_DET : Field := ⟨0, 64⟩
/-- RO -/
def NOC_EDGE_CTL_FW_PCT : Field := ⟨0, 7⟩
/-- RO -/
def NOC_EDGE_CTL_CHECK_PCT : Field := ⟨8, 7⟩
/-- RO -/
def NOC_EDGE_CTL_APPLIED : Field := ⟨16, 7⟩
/-- RO -/
def NOC_EDGE_CNT_BUBBLES : Field := ⟨0, 64⟩
/-- RO -/
def NOC_MCAST_VALID : Field := ⟨0, 1⟩
/-- RO -/
def NOC_MCAST_KIND : Field := ⟨1, 1⟩
/-- RO -/
def NOC_MCAST_JOB : Field := ⟨4, 12⟩
/-- RO -/
def NOC_MCAST_ID : Field := ⟨16, 12⟩
/-- RO -/
def NOC_MCAST_MEMBERS : Field := ⟨28, 9⟩
/-- RO -/
def MEM_CFG_NM_CLOCK : Field := ⟨0, 1⟩
/-- RO -/
def MEM_CFG_CLK_FALLBACK : Field := ⟨1, 1⟩
/-- RW -/
def MEM_SCRUB_CFG_PERIOD : Field := ⟨0, 14⟩
/-- RO -/
def MEM_EVAC_TILE : Field := ⟨0, 8⟩
/-- RO -/
def MEM_EVAC_BUSY : Field := ⟨8, 1⟩
/-- RO -/
def MEM_EVAC_FRAMES_LEFT : Field := ⟨9, 2⟩
/-- RO -/
def MEM_EVAC_FRAME0_TILE : Field := ⟨16, 8⟩
/-- RO -/
def MEM_EVAC_FRAME0_USED : Field := ⟨24, 1⟩
/-- RO -/
def MEM_EVAC_FRAME1_TILE : Field := ⟨32, 8⟩
/-- RO -/
def MEM_EVAC_FRAME1_USED : Field := ⟨40, 1⟩
/-- RO -/
def MEM_LAST_UE_ADDR : Field := ⟨0, 40⟩
/-- RO -/
def MEM_LAST_UE_ADDR_ERR : Field := ⟨40, 1⟩
/-- RO -/
def MEM_LAST_UE_SCRUB : Field := ⟨41, 1⟩
/-- RO -/
def MEM_LAST_UE_CTX : Field := ⟨42, 10⟩
/-- RO -/
def MEM_LAST_UE_RETIRED : Field := ⟨52, 1⟩
/-- RO -/
def MEM_NCH_STAT_STATE : Field := ⟨0, 3⟩
/-- RO -/
def MEM_NCH_STAT_SPARE0 : Field := ⟨3, 6⟩
/-- RO -/
def MEM_NCH_STAT_SPARE1 : Field := ⟨9, 6⟩
/-- RO -/
def MEM_NCH_STAT_DOWN_HALF : Field := ⟨15, 1⟩
/-- RO -/
def MEM_NCH_STAT_RETIRED_PAGES : Field := ⟨16, 7⟩
/-- RO -/
def MEM_NCH_STAT_REFRESH : Field := ⟨32, 8⟩
/-- RO -/
def MEM_NCH_STAT_SWEEPS : Field := ⟨40, 24⟩
/-- RC -/
def MEM_NCH_ERR_CE_COUNT : Field := ⟨0, 32⟩
/-- RC -/
def MEM_NCH_ERR_UE_COUNT : Field := ⟨32, 16⟩
/-- RO -/
def MEM_NCH_ERR_TSV_FAILS : Field := ⟨48, 8⟩
/-- RC -/
def MEM_NCH_ERR_ADDR_ERR : Field := ⟨56, 8⟩
/-- RO -/
def MEM_FMC_STAT_RETIRED_PAGES : Field := ⟨0, 13⟩
/-- RO -/
def MEM_FMC_STAT_REFRESH : Field := ⟨13, 2⟩
/-- RO -/
def MEM_FMC_STAT_RETIRE_FULL : Field := ⟨15, 1⟩
/-- RO -/
def MEM_FMC_STAT_SWEEPS : Field := ⟨16, 32⟩
/-- RO -/
def MEM_FMC_STAT_FAILED_PINS : Field := ⟨48, 8⟩
/-- RC -/
def MEM_FMC_ERR_CE_COUNT : Field := ⟨0, 32⟩
/-- RC -/
def MEM_FMC_ERR_UE_COUNT : Field := ⟨32, 16⟩
/-- RC -/
def MEM_FMC_ERR_ADDR_ERR : Field := ⟨48, 16⟩
/-- RO -/
def MEM_FMC_SCRUB_POS : Field := ⟨0, 36⟩
/-- RO -/
def PIM_CFG_COMPUTE_GIB : Field := ⟨0, 6⟩
/-- RO -/
def PIM_STK_BUDGET_BUDGET_UJ : Field := ⟨0, 16⟩
/-- RO -/
def PIM_STK_BUDGET_ROWOP_NJ : Field := ⟨16, 16⟩
/-- RO -/
def PIM_STK_STAT_ACTIVE : Field := ⟨0, 6⟩
/-- RO -/
def PIM_STK_STAT_THERM_HOLD : Field := ⟨6, 1⟩
/-- RO -/
def PIM_STK_STAT_SEQUENCES : Field := ⟨8, 40⟩
/-- RC -/
def PIM_STK_HOLD_HOLD_MAX : Field := ⟨0, 16⟩
/-- RC -/
def PIM_STK_HOLD_HELD : Field := ⟨16, 32⟩
/-- RC -/
def PIM_STK_HOLD_DEFERRED : Field := ⟨48, 16⟩
/-- RC -/
def PIM_STK_REF_MAX_POSTPONED : Field := ⟨0, 3⟩
/-- RO -/
def KVP_CFG_AREA : Field := ⟨0, 40⟩
/-- RO -/
def KVP_CFG_AVAIL : Field := ⟨40, 1⟩
/-- RO -/
def KVP_STAT_PAGES : Field := ⟨0, 24⟩
/-- RO -/
def KVP_STAT_SEQS : Field := ⟨24, 17⟩
/-- RO -/
def KVP_STAT_COPIES : Field := ⟨41, 5⟩
/-- RC -/
def KVP_CNT_COW : Field := ⟨0, 32⟩
/-- RC -/
def KVP_CNT_SERVED : Field := ⟨32, 32⟩
/-- RC -/
def KVP_ERR_NO_FRAME : Field := ⟨0, 16⟩
/-- RC -/
def KVP_ERR_SHARE_FULL : Field := ⟨16, 16⟩
/-- RC -/
def KVP_ERR_MAP_BAD : Field := ⟨32, 16⟩
/-- RC -/
def KVP_ERR_REFUSED : Field := ⟨48, 16⟩
/-- RC -/
def SMP_ERR_NONFINITE : Field := ⟨0, 16⟩
/-- RC -/
def SMP_ERR_NO_CAND : Field := ⟨16, 16⟩
/-- RC -/
def SMP_ERR_TIMEOUTS : Field := ⟨32, 16⟩
/-- RC -/
def SMP_ERR_BAD_DESC : Field := ⟨48, 16⟩
/-- RO -/
def SMP_STAT_STATE : Field := ⟨0, 2⟩
/-- RO -/
def SMP_STAT_CTX : Field := ⟨8, 10⟩
/-- RO -/
def SMP_STAT_JOB : Field := ⟨20, 12⟩
/-- RO -/
def SMP_STAT_SLOTS : Field := ⟨32, 16⟩
/-- RO -/
def SMP_STAT_QUEUED : Field := ⟨48, 16⟩
/-- RO -/
def SMP_TOK_TOKENS : Field := ⟨0, 48⟩
/-- RC -/
def SMP_GAMBIT_PROPOSED : Field := ⟨0, 32⟩
/-- RC -/
def SMP_GAMBIT_ACCEPTED : Field := ⟨32, 32⟩
/-- RO -/
def UPD_CFG_AUDIT_N : Field := ⟨0, 20⟩
/-- RO -/
def UPD_CFG_AUDIT_TIMEOUT : Field := ⟨20, 16⟩
/-- RC -/
def UPD_STAT_UPDATES : Field := ⟨0, 32⟩
/-- RC -/
def UPD_STAT_SKIPPED : Field := ⟨32, 16⟩
/-- RC -/
def UPD_STAT_NONFINITE : Field := ⟨48, 16⟩
/-- RO -/
def UPD_AUDIT_AUDITS : Field := ⟨0, 32⟩
/-- RC -/
def UPD_AUDIT_MISMATCH : Field := ⟨32, 16⟩
/-- RC -/
def UPD_AUDIT_REDERIVED : Field := ⟨48, 16⟩
/-- RO -/
def UPD_ENG_STAT_STATE : Field := ⟨0, 2⟩
/-- RO -/
def UPD_ENG_STAT_CTX : Field := ⟨8, 10⟩
/-- RO -/
def UPD_ENG_STAT_TIDX : Field := ⟨32, 16⟩
/-- RO -/
def UPD_ENG_CNT_ELEMENTS : Field := ⟨0, 48⟩
/-- RO -/
def COL_CFG_LEVEL_MAX : Field := ⟨0, 2⟩
/-- RO -/
def COL_CFG_CHECK_DEF : Field := ⟨2, 1⟩
/-- RO -/
def COL_STAT_OPEN : Field := ⟨0, 9⟩
/-- RC -/
def COL_STAT_PARTIAL : Field := ⟨16, 16⟩
/-- RC -/
def COL_STAT_CHECK_FAILED : Field := ⟨32, 16⟩
/-- RC -/
def COL_STAT_BACKUPS : Field := ⟨48, 16⟩
/-- RO -/
def COL_CNT_COMPLETED : Field := ⟨0, 48⟩
/-- RC -/
def COL_STRAY_STRAY : Field := ⟨0, 32⟩
/-- RC -/
def COL_STRAY_NONFINITE : Field := ⟨32, 16⟩
/-- RC -/
def COL_STRAY_ACC_REFUSED : Field := ⟨48, 16⟩
/-- RO -/
def LNK_CFG_SELF : Field := ⟨0, 16⟩
/-- RO -/
def LNK_CFG_DIMS : Field := ⟨16, 20⟩
/-- RO -/
def LNK_CFG_TOPO_LOADED : Field := ⟨36, 1⟩
/-- RO -/
def LNK_CFG_TOPO_OK : Field := ⟨37, 1⟩
/-- RO -/
def LNK_CFG_VERS : Field := ⟨38, 8⟩
/-- RO -/
def LNK_TEMPO_TEMPO : Field := ⟨0, 64⟩
/-- RO -/
def LNK_TEMPO_STAT_SYNC : Field := ⟨0, 2⟩
/-- RO -/
def LNK_TEMPO_STAT_PARENT : Field := ⟨8, 5⟩
/-- RO -/
def LNK_TEMPO_STAT_OFFSET : Field := ⟨16, 16⟩
/-- RC -/
def LNK_TEMPO_STAT_STEPS : Field := ⟨32, 16⟩
/-- RO -/
def LNK_RING_BROKEN : Field := ⟨0, 40⟩
/-- RO -/
def LNK_PORT_STAT_STATE : Field := ⟨0, 3⟩
/-- RO -/
def LNK_PORT_STAT_MODE : Field := ⟨3, 2⟩
/-- RO -/
def LNK_PORT_STAT_LANES : Field := ⟨8, 8⟩
/-- RO -/
def LNK_PORT_STAT_WIDTH : Field := ⟨16, 4⟩
/-- RO -/
def LNK_PORT_STAT_VER : Field := ⟨20, 4⟩
/-- RO -/
def LNK_PORT_STAT_NEED : Field := ⟨24, 2⟩
/-- RO -/
def LNK_PORT_STAT_SET : Field := ⟨26, 4⟩
/-- RO -/
def LNK_PORT_STAT_ATTEMPTS : Field := ⟨32, 8⟩
/-- RO -/
def LNK_PORT_PEER_PEER_DEV : Field := ⟨0, 16⟩
/-- RO -/
def LNK_PORT_PEER_PEER_PORT : Field := ⟨16, 5⟩
/-- RO -/
def LNK_PORT_PEER_MATCH : Field := ⟨21, 2⟩
/-- RC -/
def LNK_PORT_ERR_RESENT : Field := ⟨0, 32⟩
/-- RC -/
def LNK_PORT_ERR_LOST : Field := ⟨32, 16⟩
/-- RC -/
def LNK_PORT_ERR_LANE_DROPS : Field := ⟨48, 8⟩
/-- RC -/
def LNK_PORT_ERR_DISCARDED : Field := ⟨56, 8⟩
/-- RO -/
def LNK_PORT_CNT_FLITS : Field := ⟨0, 64⟩
/-- RO -/
def HIF_ID_DEVICE : Field := ⟨0, 16⟩
/-- RO -/
def HIF_ID_REV : Field := ⟨16, 8⟩
/-- RO -/
def HIF_ID_VFS_MAX : Field := ⟨24, 6⟩
/-- RO -/
def HIF_LINK_SPEED : Field := ⟨0, 3⟩
/-- RO -/
def HIF_LINK_WIDTH : Field := ⟨3, 5⟩
/-- RO -/
def HIF_LINK_DOWNS : Field := ⟨16, 16⟩
/-- RC -/
def HIF_ERR_BADDOOR : Field := ⟨0, 16⟩
/-- RC -/
def HIF_ERR_NARROW : Field := ⟨16, 16⟩
/-- RC -/
def HIF_ERR_ACCESS : Field := ⟨32, 16⟩
/-- RC -/
def HIF_ERR_RSVD : Field := ⟨48, 16⟩
/-- RO -/
def HIF_FN_STAT_ORPHAN : Field := ⟨0, 1⟩
/-- RO -/
def HIF_FN_STAT_REASON : Field := ⟨1, 3⟩
/-- RO -/
def HIF_FN_STAT_HB_ARMED : Field := ⟨4, 1⟩
/-- RO -/
def HIF_FN_STAT_CTXS : Field := ⟨16, 11⟩
/-- RO -/
def HIF_FN_STAT_QUEUES : Field := ⟨32, 13⟩
/-- RW -/
def HIF_FN_QUOTA_MAXCTX : Field := ⟨0, 11⟩
/-- RW -/
def HIF_FN_QUOTA_MAXQ : Field := ⟨16, 13⟩
/-- RW -/
def HIF_FN_QUOTA_MEM_GIB : Field := ⟨32, 11⟩
/-- RW -/
def HIF_ADMQ_SQ_BASE : Field := ⟨12, 52⟩
/-- RW -/
def HIF_ADMQ_CQ_BASE : Field := ⟨12, 52⟩
/-- RW -/
def HIF_ADMQ_CFG_LOG2SIZE : Field := ⟨0, 5⟩
/-- RW -/
def HIF_ADMQ_CFG_ENABLE : Field := ⟨8, 1⟩
/-- RO -/
def HIF_ADMQ_CFG_STATE : Field := ⟨9, 2⟩
/-- WO -/
def HIF_ADMQ_TAIL_VALUE : Field := ⟨0, 32⟩
/-- WO -/
def HIF_ADMQ_HEAD_VALUE : Field := ⟨0, 32⟩
/-- WO -/
def HIF_HEARTBEAT_VALUE : Field := ⟨0, 32⟩
/-- WO -/
def HIF_RESIGN_SCOPE : Field := ⟨0, 2⟩
/-- WO -/
def HIF_RESIGN_TARGET : Field := ⟨8, 12⟩
/-- RO -/
def HIF_RESIGN_STAT_BUSY : Field := ⟨0, 1⟩
/-- RO -/
def HIF_RESIGN_STAT_SCOPE : Field := ⟨1, 2⟩
/-- W1C -/
def HIF_RESIGN_STAT_REFUSED : Field := ⟨3, 1⟩
/-- RO -/
def HIF_RESIGN_STAT_TARGET : Field := ⟨8, 12⟩
/-- RO -/
def HIF_RESIGN_STAT_STOPPED : Field := ⟨20, 20⟩
/-- RO -/
def HIF_RESIGN_STAT_DROPPED : Field := ⟨40, 24⟩
/-- RO -/
def MGT_ID_FW_MINOR : Field := ⟨0, 8⟩
/-- RO -/
def MGT_ID_FW_MAJOR : Field := ⟨8, 8⟩
/-- RO -/
def MGT_ID_MB_MINOR : Field := ⟨16, 8⟩
/-- RO -/
def MGT_ID_MB_MAJOR : Field := ⟨24, 8⟩
/-- RO -/
def MGT_ID_MB_OLDEST : Field := ⟨32, 8⟩
/-- RO -/
def MGT_ID_SVN : Field := ⟨40, 7⟩
/-- RO -/
def MGT_ID_FUSED_SVN : Field := ⟨48, 7⟩
/-- RO -/
def MGT_FW_STAT_STATE : Field := ⟨0, 3⟩
/-- RO -/
def MGT_FW_STAT_RESTARTS : Field := ⟨8, 8⟩
/-- RC -/
def MGT_FW_STAT_READBACK : Field := ⟨16, 16⟩
/-- RO -/
def MGT_FW_STAT_BEAT : Field := ⟨32, 32⟩
/-- RO -/
def MGT_LOG_HEAD : Field := ⟨0, 32⟩
/-- RC -/
def MGT_LOG_SUPPRESSED : Field := ⟨32, 16⟩
/-- RO -/
def MGT_TRACE_ENABLE : Field := ⟨0, 1⟩
/-- RO -/
def MGT_TRACE_MODE : Field := ⟨1, 1⟩
/-- RO -/
def MGT_TRACE_FULL : Field := ⟨2, 1⟩
/-- RO -/
def MGT_TRACE_WRITE : Field := ⟨8, 17⟩
/-- RC -/
def MGT_TRACE_DROPPED : Field := ⟨32, 32⟩
/-- RO -/
def MGT_TRACE_MASK_MASK : Field := ⟨0, 64⟩
/-- RO -/
def MGT_SCHED_AGING_MS : Field := ⟨0, 10⟩
/-- RO -/
def MGT_SCHED_URGENT_USED : Field := ⟨16, 12⟩
/-- RO -/
def MGT_SCHED_SPENT : Field := ⟨28, 1⟩
/-- RO -/
def MGT_OWNER_OWNER : Field := ⟨0, 56⟩
/-- RW -/
def MGT_MB_REQ_BASE : Field := ⟨6, 58⟩
/-- RW -/
def MGT_MB_RSP_BASE : Field := ⟨6, 58⟩
/-- WO -/
def MGT_MB_DOOR_SEQ : Field := ⟨0, 32⟩
/-- RO -/
def MGT_MB_STAT_STATE : Field := ⟨0, 2⟩
/-- RO -/
def MGT_MB_STAT_RSP_LOST : Field := ⟨2, 1⟩
/-- RO -/
def MGT_MB_STAT_STATUS : Field := ⟨16, 16⟩
/-- RO -/
def MGT_MB_STAT_SEQ : Field := ⟨32, 32⟩
/-- RO -/
def PWR_CFG_MODE : Field := ⟨0, 1⟩
/-- RO -/
def PWR_CFG_REPEATABLE_OK : Field := ⟨1, 1⟩
/-- RO -/
def PWR_CFG_FREQ_MHZ : Field := ⟨8, 12⟩
/-- RO -/
def PWR_CFG_GAIN : Field := ⟨20, 12⟩
/-- RO -/
def PWR_CFG_CAP_W : Field := ⟨32, 12⟩
/-- RO -/
def PWR_CAP_EFF_W : Field := ⟨0, 12⟩
/-- RO -/
def PWR_CAP_LIMIT : Field := ⟨12, 2⟩
/-- RO -/
def PWR_CAP_F : Field := ⟨16, 10⟩
/-- RO -/
def PWR_CAP_P_LAST_W : Field := ⟨32, 16⟩
/-- RC -/
def PWR_STAT_THROTTLED : Field := ⟨0, 32⟩
/-- RC -/
def PWR_STAT_UNMET : Field := ⟨32, 16⟩
/-- RC -/
def PWR_STAT_PEAK_GUARDS : Field := ⟨48, 12⟩
/-- RO -/
def PWR_STAT_STRESS_OK : Field := ⟨60, 1⟩
/-- RO -/
def PWR_CONV_GOOD : Field := ⟨0, 12⟩
/-- RO -/
def PWR_CONV_COUNT : Field := ⟨12, 4⟩
/-- RO -/
def PWR_CONV_VIN : Field := ⟨16, 16⟩
/-- RO -/
def PWR_E_INPUT_UJ : Field := ⟨0, 64⟩
/-- RO -/
def PWR_E_OVERHEAD_UJ : Field := ⟨0, 64⟩
/-- RO -/
def PWR_Q_ENERGY_UJ : Field := ⟨0, 64⟩
/-- RO -/
def CLU_PWR_CFG_FREQ_MHZ : Field := ⟨0, 12⟩
/-- RO -/
def CLU_PWR_CFG_CEIL_MHZ : Field := ⟨12, 12⟩
/-- RO -/
def CLU_PWR_CFG_VOLT_MV : Field := ⟨24, 10⟩
/-- RO -/
def CLU_PWR_CFG_AGE_MV : Field := ⟨34, 5⟩
/-- RO -/
def CLU_PWR_CFG_POINT : Field := ⟨40, 4⟩
/-- RO -/
def CLU_PWR_STAT_F_APPLIED : Field := ⟨0, 10⟩
/-- RO -/
def CLU_PWR_STAT_THERMAL : Field := ⟨10, 1⟩
/-- RO -/
def CLU_PWR_STAT_CURRENT : Field := ⟨16, 12⟩
/-- RO -/
def CLU_PWR_STAT_POWER_W : Field := ⟨32, 16⟩
/-- RO -/
def CLU_PWR_STAT_WAKE : Field := ⟨48, 3⟩
/-- RO -/
def CLU_IVR_FAILED : Field := ⟨0, 32⟩
/-- RO -/
def CLU_IVR_NFAILED : Field := ⟨32, 6⟩
/-- RO -/
def CLU_IVR_TIER : Field := ⟨38, 2⟩
/-- RO -/
def CLU_ENERGY_UJ : Field := ⟨0, 64⟩
/-- RO -/
def CLU_IDLE_ENERGY_UJ : Field := ⟨0, 64⟩
/-- RC -/
def CLU_DROOP_BOOSTS : Field := ⟨0, 32⟩
/-- RC -/
def CLU_DROOP_STRETCHES : Field := ⟨32, 16⟩
/-- RC -/
def CLU_DROOP_CLAMPS : Field := ⟨48, 16⟩
/-- RO -/
def CLU_STRESS_EFF_HOURS : Field := ⟨0, 32⟩
/-- RO -/
def CLU_STRESS_RESTORED : Field := ⟨32, 1⟩
/-- RO -/
def CLU_VF_FREQ_MHZ : Field := ⟨0, 12⟩
/-- RO -/
def CLU_VF_VOLT_MV : Field := ⟨12, 10⟩
/-- RO -/
def CLU_VF_IMAX_A : Field := ⟨22, 8⟩
/-- RO -/
def THM_STAT_LEVEL : Field := ⟨0, 3⟩
/-- RO -/
def THM_STAT_KIND : Field := ⟨3, 3⟩
/-- RO -/
def THM_STAT_UNIT : Field := ⟨6, 10⟩
/-- RO -/
def THM_STAT_TEMP : Field := ⟨16, 12⟩
/-- RO -/
def THM_STAT_STOP : Field := ⟨28, 2⟩
/-- RO -/
def THM_STAT_RATE : Field := ⟨30, 1⟩
/-- RO -/
def THM_STAT_FAST : Field := ⟨32, 16⟩
/-- RO -/
def THM_STAT_SUSPECT : Field := ⟨48, 16⟩
/-- RO -/
def THM_COOLANT_INLET : Field := ⟨0, 12⟩
/-- RO -/
def THM_COOLANT_OUTLET : Field := ⟨12, 12⟩
/-- RO -/
def THM_COOLANT_FLOW : Field := ⟨24, 12⟩
/-- RO -/
def THM_COOLANT_LIMIT_W : Field := ⟨36, 12⟩
/-- RO -/
def THM_COOLANT_DERATING : Field := ⟨48, 1⟩
/-- RO -/
def THM_COOLANT_LEAK : Field := ⟨49, 1⟩
/-- RO -/
def THM_STOP_CAUSE : Field := ⟨0, 4⟩
/-- RO -/
def THM_STOP_KIND : Field := ⟨4, 3⟩
/-- RO -/
def THM_STOP_UNIT : Field := ⟨7, 10⟩
/-- RO -/
def THM_STOP_TEMP : Field := ⟨17, 12⟩
/-- RO -/
def THM_STOP_COUNT : Field := ⟨29, 16⟩
/-- RO -/
def THM_STOP_TEMPO_TEMPO : Field := ⟨0, 64⟩
/-- W1C -/
def THM_TRIP_REC_VALID : Field := ⟨0, 1⟩
/-- RO -/
def THM_TRIP_REC_CAUSE : Field := ⟨1, 3⟩
/-- RO -/
def THM_TRIP_REC_KIND : Field := ⟨4, 3⟩
/-- RO -/
def THM_TRIP_REC_UNIT : Field := ⟨7, 10⟩
/-- RO -/
def THM_TRIP_REC_TEMP : Field := ⟨17, 12⟩
/-- RO -/
def THM_TRIP_REC_COUNT : Field := ⟨29, 16⟩
/-- RO -/
def THM_CASTLE_COUNT : Field := ⟨0, 32⟩
/-- RO -/
def THM_CASTLE_LAST_HOT : Field := ⟨32, 8⟩
/-- RO -/
def THM_CASTLE_LAST_COOL : Field := ⟨40, 8⟩
/-- RC -/
def THM_CASTLE_ABANDONED : Field := ⟨48, 16⟩
/-- RO -/
def THM_TILE_TEMP_A : Field := ⟨0, 12⟩
/-- RO -/
def THM_TILE_TEMP_B : Field := ⟨12, 12⟩
/-- RO -/
def THM_TILE_VALUE : Field := ⟨24, 12⟩
/-- RO -/
def THM_TILE_LEVEL : Field := ⟨36, 3⟩
/-- RO -/
def THM_TILE_DISAGREE : Field := ⟨39, 1⟩
/-- RO -/
def THM_TILE_FAST : Field := ⟨40, 1⟩
/-- RO -/
def THM_TILE_RATE : Field := ⟨41, 1⟩
/-- RO -/
def THM_NM_VALUE : Field := ⟨0, 48⟩
/-- RO -/
def THM_NM_LEVEL : Field := ⟨48, 12⟩
/-- RO -/
def THM_NM_SUSPECT : Field := ⟨60, 4⟩
/-- RO -/
def THM_FAR_VALUE : Field := ⟨0, 12⟩
/-- RO -/
def THM_FAR_DIE : Field := ⟨12, 4⟩
/-- RO -/
def THM_FAR_LEVEL : Field := ⟨16, 3⟩
/-- RO -/
def THM_FAR_RATE : Field := ⟨19, 1⟩
/-- RO -/
def THM_FAR_FT : Field := ⟨20, 10⟩
/-- RO -/
def THM_FAR_DIE_TEMP : Field := ⟨0, 48⟩
/-- RO -/
def THM_EDGE_VALUE : Field := ⟨0, 12⟩
/-- RO -/
def THM_EDGE_LEVEL : Field := ⟨12, 3⟩
/-- RO -/
def THM_EDGE_RATE : Field := ⟨15, 1⟩
/-- RO -/
def THM_NM_MODEL_RAW1 : Field := ⟨0, 12⟩
/-- RO -/
def THM_NM_MODEL_RAW2 : Field := ⟨12, 12⟩
/-- RO -/
def THM_NM_MODEL_MODEL1 : Field := ⟨24, 12⟩
/-- RO -/
def THM_NM_MODEL_MODEL2 : Field := ⟨36, 12⟩
/-- RO -/
def THM_NM_MODEL_DRIVES1 : Field := ⟨48, 1⟩
/-- RO -/
def THM_NM_MODEL_DRIVES2 : Field := ⟨49, 1⟩
/-- RO -/
def THM_CLU_FT : Field := ⟨0, 10⟩
/-- RO -/
def THM_CLU_KW_TARGET : Field := ⟨10, 12⟩
/-- RO -/
def THM_CLU_KW_DUTY : Field := ⟨22, 6⟩
/-- RO -/
def THM_CLU_KW_ACTIVE : Field := ⟨28, 1⟩
/-- RO -/
def THM_CLU_ACTIVE_AVG : Field := ⟨29, 12⟩

end F

/-! ### What each register is -/

/-- One row of the map: offsets base, base + stride, ... (count of them), the reset value, and the masks of the
defined, RC, RW and W1C bits. -/
structure RegRow where
  base : Nat
  stride : Nat
  count : Nat
  reset : Nat
  defined : Nat
  rc : Nat
  rw : Nat
  w1c : Nat
  deriving DecidableEq, Repr

/-- Whether the row holds the offset. -/
def RegRow.has (r : RegRow) (off : Nat) : Bool :=
  decide (r.base ≤ off) && decide ((off - r.base) % r.stride = 0) && decide ((off - r.base) / r.stride < r.count)

/-- The HIF block. -/
def rowsHif : List RegRow := [
  ⟨0x0, 0x8, 1, 0x3F110A16, 0x3FFFFFFF, 0x0, 0x0, 0x0⟩,
  ⟨0x8, 0x8, 1, 0x0, 0xFFFF00FF, 0x0, 0x0, 0x0⟩,
  ⟨0x10, 0x8, 1, 0x0, 0xFFFFFFFFFFFFFFFF, 0xFFFFFFFFFFFFFFFF, 0x0, 0x0⟩,
  ⟨0x10000, 0x1000, 64, 0x0, 0x1FFF07FF001F, 0x0, 0x0, 0x0⟩,
  ⟨0x10008, 0x1000, 64, 0x0, 0x7FF1FFF07FF, 0x0, 0x7FF1FFF07FF, 0x0⟩,
  ⟨0x10010, 0x1000, 64, 0x0, 0xFFFFFFFFFFFFF000, 0x0, 0xFFFFFFFFFFFFF000, 0x0⟩,
  ⟨0x10018, 0x1000, 64, 0x0, 0xFFFFFFFFFFFFF000, 0x0, 0xFFFFFFFFFFFFF000, 0x0⟩,
  ⟨0x10020, 0x1000, 64, 0x6, 0x71F, 0x0, 0x11F, 0x0⟩,
  ⟨0x10028, 0x1000, 64, 0x0, 0xFFFFFFFF, 0x0, 0x0, 0x0⟩,
  ⟨0x10030, 0x1000, 64, 0x0, 0xFFFFFFFF, 0x0, 0x0, 0x0⟩,
  ⟨0x10038, 0x1000, 64, 0x0, 0xFFFFFFFF, 0x0, 0x0, 0x0⟩,
  ⟨0x10040, 0x1000, 64, 0x0, 0xFFF03, 0x0, 0x0, 0x0⟩,
  ⟨0x10048, 0x1000, 64, 0x0, 0xFFFFFFFFFFFFFF0F, 0x0, 0x0, 0x8⟩]

/-- The MGT block. -/
def rowsMgt : List RegRow := [
  ⟨0x100200, 0x8, 1, 0x0, 0xFFFFFFFF0307, 0x0, 0x0, 0x0⟩,
  ⟨0x100000, 0x8, 1, 0x0, 0x7F7FFFFFFFFFFF, 0x0, 0x0, 0x0⟩,
  ⟨0x100008, 0x8, 1, 0x0, 0xFFFFFFFFFFFFFF07, 0xFFFF0000, 0x0, 0x0⟩,
  ⟨0x100010, 0x8, 1, 0x0, 0xFFFFFFFFFFFF, 0xFFFF00000000, 0x0, 0x0⟩,
  ⟨0x100018, 0x8, 1, 0x0, 0xFFFFFFFF01FFFF07, 0xFFFFFFFF00000000, 0x0, 0x0⟩,
  ⟨0x100020, 0x8, 4, 0x0, 0xFFFFFFFFFFFFFFFF, 0x0, 0x0, 0x0⟩,
  ⟨0x100040, 0x8, 1, 0x32, 0x1FFF03FF, 0x0, 0x0, 0x0⟩,
  ⟨0x100048, 0x8, 1, 0x32000000000001, 0xFFFFFFFFFFFFFF, 0x0, 0x0, 0x0⟩,
  ⟨0x101000, 0x20, 8, 0x0, 0xFFFFFFFFFFFFFFC0, 0x0, 0xFFFFFFFFFFFFFFC0, 0x0⟩,
  ⟨0x101008, 0x20, 8, 0x0, 0xFFFFFFFFFFFFFFC0, 0x0, 0xFFFFFFFFFFFFFFC0, 0x0⟩,
  ⟨0x101010, 0x20, 8, 0x0, 0xFFFFFFFF, 0x0, 0x0, 0x0⟩,
  ⟨0x101018, 0x20, 8, 0x0, 0xFFFFFFFFFFFF0007, 0x0, 0x0, 0x0⟩]

/-- The PWR block. -/
def rowsPwr : List RegRow := [
  ⟨0x200000, 0x8, 1, 0xBB81007D000, 0xFFFFFFFFF03, 0x0, 0x0, 0x0⟩,
  ⟨0x200008, 0x8, 1, 0xBB8, 0xFFFF03FF3FFF, 0x0, 0x0, 0x0⟩,
  ⟨0x200010, 0x8, 1, 0x0, 0x1FFFFFFFFFFFFFFF, 0xFFFFFFFFFFFFFFF, 0x0, 0x0⟩,
  ⟨0x200018, 0x8, 1, 0xCFFF, 0xFFFFFFFF, 0x0, 0x0, 0x0⟩,
  ⟨0x200020, 0x8, 1, 0x0, 0xFFFFFFFFFFFFFFFF, 0x0, 0x0, 0x0⟩,
  ⟨0x200028, 0x8, 1, 0x0, 0xFFFFFFFFFFFFFFFF, 0x0, 0x0, 0x0⟩,
  ⟨0x210000, 0x8, 4096, 0x0, 0xFFFFFFFFFFFFFFFF, 0x0, 0x0, 0x0⟩]

/-- The THM block. -/
def rowsThm : List RegRow := [
  ⟨0x300000, 0x8, 1, 0x0, 0xFFFFFFFF7FFFFFFF, 0x0, 0x0, 0x0⟩,
  ⟨0x300008, 0x8, 1, 0xFFF000FFFFFF, 0x3FFFFFFFFFFFF, 0x0, 0x0, 0x0⟩,
  ⟨0x300010, 0x8, 1, 0x0, 0x1FFFFFFFFFFF, 0x0, 0x0, 0x0⟩,
  ⟨0x300018, 0x8, 1, 0x0, 0xFFFFFFFFFFFFFFFF, 0x0, 0x0, 0x0⟩,
  ⟨0x300020, 0x8, 1, 0x0, 0x1FFFFFFFFFFF, 0x0, 0x0, 0x1⟩,
  ⟨0x300028, 0x8, 1, 0x0, 0xFFFFFFFFFFFFFFFF, 0xFFFF000000000000, 0x0, 0x0⟩,
  ⟨0x301000, 0x8, 256, 0xFFFFFFFFF, 0x3FFFFFFFFFF, 0x0, 0x0, 0x0⟩,
  ⟨0x302000, 0x8, 256, 0xFFFFFFFFFFF, 0xFFFFFFFFFFFFFFFF, 0x0, 0x0, 0x0⟩,
  ⟨0x303000, 0x8, 16, 0xFFF, 0x3FFFFFFF, 0x0, 0x0, 0x0⟩,
  ⟨0x303100, 0x20, 16, 0xFFFFFFFFFFF, 0xFFFFFFFFFFFF, 0x0, 0x0, 0x0⟩,
  ⟨0x303108, 0x20, 16, 0xFFFFFFFFFFF, 0xFFFFFFFFFFFF, 0x0, 0x0, 0x0⟩,
  ⟨0x303110, 0x20, 16, 0xFFFFFFFFFFF, 0xFFFFFFFFFFFF, 0x0, 0x0, 0x0⟩,
  ⟨0x303800, 0x8, 64, 0xFFF, 0xFFFF, 0x0, 0x0, 0x0⟩,
  ⟨0x304000, 0x8, 256, 0xFFFFFFFFFFFF, 0x3FFFFFFFFFFFF, 0x0, 0x0, 0x0⟩,
  ⟨0x305000, 0x8, 16, 0x0, 0x1FFFFFFFFFF, 0x0, 0x0, 0x0⟩]

/-- The MEM block. -/
def rowsMem : List RegRow := [
  ⟨0x400000, 0x8, 1, 0x0, 0x3, 0x0, 0x0, 0x0⟩,
  ⟨0x400008, 0x8, 1, 0x5A0, 0x3FFF, 0x0, 0x3FFF, 0x0⟩,
  ⟨0x400010, 0x8, 1, 0x400, 0x1FF01FF07FF, 0x0, 0x0, 0x0⟩,
  ⟨0x400018, 0x8, 1, 0x0, 0x1FFFFFFFFFFFFF, 0x0, 0x0, 0x0⟩,
  ⟨0x410000, 0x10, 256, 0x4100, 0xFFFFFFFF007FFFFF, 0x0, 0x0, 0x0⟩,
  ⟨0x410008, 0x10, 256, 0x0, 0xFFFFFFFFFFFFFFFF, 0xFF00FFFFFFFFFFFF, 0x0, 0x0⟩,
  ⟨0x420000, 0x20, 16, 0x0, 0xFFFFFFFFFFFFFF, 0x0, 0x0, 0x0⟩,
  ⟨0x420008, 0x20, 16, 0x0, 0xFFFFFFFFFFFFFFFF, 0xFFFFFFFFFFFFFFFF, 0x0, 0x0⟩,
  ⟨0x420010, 0x20, 16, 0x0, 0xFFFFFFFFF, 0x0, 0x0, 0x0⟩]

/-- The PIM block. -/
def rowsPim : List RegRow := [
  ⟨0x500000, 0x8, 1, 0x0, 0x3F, 0x0, 0x0, 0x0⟩,
  ⟨0x501000, 0x20, 16, 0x140064, 0xFFFFFFFF, 0x0, 0x0, 0x0⟩,
  ⟨0x501008, 0x20, 16, 0x0, 0xFFFFFFFFFF7F, 0x0, 0x0, 0x0⟩,
  ⟨0x501010, 0x20, 16, 0x0, 0xFFFFFFFFFFFFFFFF, 0xFFFFFFFFFFFFFFFF, 0x0, 0x0⟩,
  ⟨0x501018, 0x20, 16, 0x0, 0x7, 0x7, 0x0, 0x0⟩]

/-- The LNK block. -/
def rowsLnk : List RegRow := [
  ⟨0x600000, 0x8, 1, 0x1800000FFFF, 0x3FFFFFFFFFFF, 0x0, 0x0, 0x0⟩,
  ⟨0x600008, 0x8, 1, 0x0, 0xFFFFFFFFFFFFFFFF, 0x0, 0x0, 0x0⟩,
  ⟨0x600010, 0x8, 1, 0x0, 0xFFFFFFFF1F03, 0xFFFF00000000, 0x0, 0x0⟩,
  ⟨0x600018, 0x8, 1, 0x0, 0xFFFFFFFFFF, 0x0, 0x0, 0x0⟩,
  ⟨0x601000, 0x20, 32, 0x3C000000, 0xFF3FFFFF1F, 0x0, 0x0, 0x0⟩,
  ⟨0x601008, 0x20, 32, 0xFFFF, 0x7FFFFF, 0x0, 0x0, 0x0⟩,
  ⟨0x601010, 0x20, 32, 0x0, 0xFFFFFFFFFFFFFFFF, 0xFFFFFFFFFFFFFFFF, 0x0, 0x0⟩,
  ⟨0x601018, 0x20, 32, 0x0, 0xFFFFFFFFFFFFFFFF, 0x0, 0x0, 0x0⟩]

/-- The COL block. -/
def rowsCol : List RegRow := [
  ⟨0x700000, 0x8, 1, 0x2, 0x7, 0x0, 0x0, 0x0⟩,
  ⟨0x700008, 0x8, 1, 0x0, 0xFFFFFFFFFFFF01FF, 0xFFFFFFFFFFFF0000, 0x0, 0x0⟩,
  ⟨0x700010, 0x8, 1, 0x0, 0xFFFFFFFFFFFF, 0x0, 0x0, 0x0⟩,
  ⟨0x700018, 0x8, 1, 0x0, 0xFFFFFFFFFFFFFFFF, 0xFFFFFFFFFFFFFFFF, 0x0, 0x0⟩]

/-- The NOC block. -/
def rowsNoc : List RegRow := [
  ⟨0x800000, 0x8, 1, 0x300, 0x3FF, 0x0, 0x0, 0x0⟩,
  ⟨0x800008, 0x8, 1, 0x1244444, 0xFFFFFFF, 0x0, 0x0, 0x0⟩,
  ⟨0x800010, 0x8, 1, 0x0, 0xFFFFFFFFFFFFFFFF, 0xFFFFFFFFFFFFFFFF, 0x0, 0x0⟩,
  ⟨0x800018, 0x8, 1, 0x0, 0xFFFFFFFFFFFFFFFF, 0xFFFFFFFFFFFFFFFF, 0x0, 0x0⟩,
  ⟨0x800020, 0x8, 1, 0x0, 0xFFFFFFFF1FFF, 0x0, 0x0, 0x0⟩,
  ⟨0x800028, 0x8, 1, 0x0, 0xFFFF3FFFFFFFFFFF, 0xFFFF0000FFFFFFFF, 0x0, 0x0⟩,
  ⟨0x801000, 0x8, 64, 0x0, 0xFFFFFFFFFFFFFFFF, 0x0, 0x0, 0x0⟩,
  ⟨0x802000, 0x10, 64, 0x3200, 0x7F7F7F, 0x0, 0x0, 0x0⟩,
  ⟨0x802008, 0x10, 64, 0x0, 0xFFFFFFFFFFFFFFFF, 0x0, 0x0, 0x0⟩,
  ⟨0x804000, 0x8, 1024, 0x0, 0x1FFFFFFFF3, 0x0, 0x0, 0x0⟩]

/-- The SYN block. -/
def rowsSyn : List RegRow := [
  ⟨0x900000, 0x8, 1, 0x0, 0xFFFFFFFFFFFFFFFF, 0xFFFFFFFFFFFFFFFF, 0x0, 0x0⟩,
  ⟨0x910000, 0x8, 16384, 0x0, 0xFFFFF7FFFFFFFFFF, 0x0, 0x0, 0x0⟩]

/-- The KVP block. -/
def rowsKvp : List RegRow := [
  ⟨0xA00000, 0x8, 1, 0x0, 0x1FFFFFFFFFF, 0x0, 0x0, 0x0⟩,
  ⟨0xA00008, 0x8, 1, 0x0, 0x3FFFFFFFFFFF, 0x0, 0x0, 0x0⟩,
  ⟨0xA00010, 0x8, 1, 0x0, 0xFFFFFFFFFFFFFFFF, 0xFFFFFFFFFFFFFFFF, 0x0, 0x0⟩,
  ⟨0xA00018, 0x8, 1, 0x0, 0xFFFFFFFFFFFFFFFF, 0xFFFFFFFFFFFFFFFF, 0x0, 0x0⟩]

/-- The SMP block. -/
def rowsSmp : List RegRow := [
  ⟨0xB00000, 0x8, 1, 0x0, 0xFFFFFFFFFFFFFFFF, 0xFFFFFFFFFFFFFFFF, 0x0, 0x0⟩,
  ⟨0xB01000, 0x20, 16, 0x0, 0xFFFFFFFFFFF3FF03, 0x0, 0x0, 0x0⟩,
  ⟨0xB01008, 0x20, 16, 0x0, 0xFFFFFFFFFFFF, 0x0, 0x0, 0x0⟩,
  ⟨0xB01010, 0x20, 16, 0x0, 0xFFFFFFFFFFFFFFFF, 0xFFFFFFFFFFFFFFFF, 0x0, 0x0⟩]

/-- The UPD block. -/
def rowsUpd : List RegRow := [
  ⟨0xC00000, 0x8, 1, 0x64003E8, 0xFFFFFFFFF, 0x0, 0x0, 0x0⟩,
  ⟨0xC00008, 0x8, 1, 0x0, 0xFFFFFFFFFFFFFFFF, 0xFFFFFFFFFFFFFFFF, 0x0, 0x0⟩,
  ⟨0xC00010, 0x8, 1, 0x0, 0xFFFFFFFFFFFFFFFF, 0xFFFFFFFF00000000, 0x0, 0x0⟩,
  ⟨0xC01000, 0x20, 16, 0x0, 0xFFFF0003FF03, 0x0, 0x0, 0x0⟩,
  ⟨0xC01008, 0x20, 16, 0x0, 0xFFFFFFFFFFFF, 0x0, 0x0, 0x0⟩]

/-- The TIL block of one tile (R76). -/
def rowsTil : List RegRow := [
  ⟨0x0, 8, 1, 0x0, 0xFFFFFF, 0x0, 0x0, 0x0⟩,
  ⟨0x8, 8, 1, 0x0, 0xFF01FF, 0x0, 0x0, 0x0⟩,
  ⟨0x10, 8, 1, 0x0, 0xFFFFFFF3FF07, 0x0, 0x0, 0x0⟩,
  ⟨0x18, 8, 1, 0x0, 0x1FF, 0x0, 0x0, 0x0⟩,
  ⟨0x20, 8, 1, 0x0, 0xFFFFFFFFFFFFFFFF, 0x0, 0x0, 0x0⟩,
  ⟨0x28, 8, 1, 0x0, 0xFFFFFFFFFFFFFFFF, 0x0, 0x0, 0x0⟩,
  ⟨0x30, 8, 1, 0x0, 0xFFFFFFFFFFFFFFFF, 0x0, 0x0, 0x0⟩,
  ⟨0x38, 8, 1, 0x0, 0xFFFFFFFFFFFF, 0xFFFFFFFFFFFF, 0x0, 0x0⟩,
  ⟨0x40, 8, 1, 0x0, 0xFFFFFFFFFFFF, 0x0, 0x0, 0x0⟩]

/-- The CLU block of one cluster (R374). -/
def rowsClu : List RegRow := [
  ⟨0x0, 8, 1, 0x64007D0000, 0xF7FFFFFFFFF, 0x0, 0x0, 0x0⟩,
  ⟨0x8, 8, 1, 0x0, 0x7FFFF0FFF07FF, 0x0, 0x0, 0x0⟩,
  ⟨0x10, 8, 1, 0x0, 0xFFFFFFFFFF, 0x0, 0x0, 0x0⟩,
  ⟨0x18, 8, 1, 0x0, 0xFFFFFFFFFFFFFFFF, 0x0, 0x0, 0x0⟩,
  ⟨0x20, 8, 1, 0x0, 0xFFFFFFFFFFFFFFFF, 0x0, 0x0, 0x0⟩,
  ⟨0x28, 8, 1, 0x0, 0xFFFFFFFFFFFFFFFF, 0xFFFFFFFFFFFFFFFF, 0x0, 0x0⟩,
  ⟨0x30, 8, 1, 0x0, 0x1FFFFFFFF, 0x0, 0x0, 0x0⟩,
  ⟨0x100, 8, 16, 0x0, 0x3FFFFFFF, 0x0, 0x0, 0x0⟩]

/-- The rows of the block at BAR0 megabyte k (R297). -/
def blockRows : Nat → List RegRow
  | 0 => rowsHif
  | 1 => rowsMgt
  | 2 => rowsPwr
  | 3 => rowsThm
  | 4 => rowsMem
  | 5 => rowsPim
  | 6 => rowsLnk
  | 7 => rowsCol
  | 8 => rowsNoc
  | 9 => rowsSyn
  | 10 => rowsKvp
  | 11 => rowsSmp
  | 12 => rowsUpd
  | _ => []

/-- The row of a BAR0 offset, if some table lists it; CLU and TIL offsets are looked up inside their block (R20) (DESIGN
CHOICE, log entry 127). -/
def regRow (off : Nat) : Option RegRow :=
  if off < 0x1000000 then (blockRows (off / 0x100000)).find? (·.has off)
  else if off < 0x2000000 then
    let o := off % 0x100000
    if o < 0x8000 then rowsClu.find? (·.has o)
    else if o < 0x88000 then rowsTil.find? (·.has ((o - 0x8000) % 0x8000))
    else none
  else none

/-- The tile whose TIL block holds an offset of a CLU megabyte. -/
def tileOfOffset (off : Nat) : Nat := (off - 0x1000000) / 0x100000 * 16 + (off % 0x100000 - 0x8000) / 0x8000

/-- TIL_ID of a tile (R76, R18): its number, cluster, place in the cluster, file index and rank less 1. -/
def tileId (t : Nat) : Nat :=
  let c := t / 16
  let i := t % 16
  t + c * 2 ^ 8 + i * 2 ^ 12 + (4 * (c % 4) + i % 4) * 2 ^ 16 + (4 * (c / 4) + i / 4) * 2 ^ 20

/-- The reset value of the register at a BAR0 offset; 0 at an offset that no table lists (R7). The identity of a tile is
its place; a function's quota differs between the PF and the VFs (R321); a cluster's operating points are fused (R351,
R374). -/
def regReset (off : Nat) : Word :=
  match regRow off with
  | none => 0
  | some r =>
    if r.base = 0x0 && decide (0x1000000 ≤ off) && decide (0x8000 ≤ off % 0x100000) then
      BitVec.ofNat 64 (tileId (tileOfOffset off))
    else if r.base = 0x10008 && decide (off = 0x10008) then BitVec.ofNat 64 (0x400 + 0x1000 * 2 ^ 16 + 0x400 * 2 ^ 32)
    else if r.base = 0x100 && decide (0x1000000 ≤ off) then Config.vfPoint ((off - 0x1000000) / 0x100000) ((off % 0x100000 - 0x100) / 8)
    else BitVec.ofNat 64 r.reset

end Sys2Proof.Machine
end

