-- ==== Sys2Proof/Machine/State.lean ====
section
/-! DEFINITION. The state of the block: plain data, everything the spec gives the device. Registers live in one sparse list
by BAR0 offset (Regs.lean gives their reset values); what the chapters describe beside the registers lives in the
structures below, one group for each subsystem. -/

namespace Sys2Proof.Machine

/-! ### Why a step can stop -/

/-- The model's faults. -/
inductive Fault where
  /-- Raised by a command whose operand names a unit (a tile, cluster, port, sampler, mailbox, queue, function ...) that
  the device does not have; safe: the hardware has no such event, so nothing it does is lost. -/
  | noSuchUnit (kind : String) (n : Nat)
  deriving DecidableEq, Repr

/-- The model's refusals. -/
inductive Refusal where
  /-- Raised by the dispatch for a row that has no meaning yet; safe: the model stops where the hardware goes on. -/
  | notModelled (mnemonic : String)
  deriving DecidableEq, Repr

/-! ### The log (R340) and the trace (R341) -/

/-- One record of the log ring (R340). -/
structure LogRec where
  seq : Nat
  event : Nat
  fault : Bool
  suppressed : Bool
  tempo : Nat
  fn : Nat
  ctx : Nat
  job : Nat
  unit : Nat
  args : List Nat
  deriving DecidableEq, Repr

/-- How often one code was logged in one window of 1 ms, and whether its withholding was reported (R340). -/
structure LogCount where
  window : Nat
  count : Nat
  told : Bool
  deriving DecidableEq, Repr

/-- The log ring, newest record first, with the counts per code and the codes withheld and not yet marked (R340). -/
structure Log where
  ring : List LogRec
  counts : List (Nat × LogCount)
  withheld : List Nat
  deriving DecidableEq, Repr

/-- One trace record (R341). -/
structure TraceRec where
  tempo : Nat
  point : Nat
  unit : Nat
  ctx : Nat
  job : Nat
  data0 : Nat
  data1 : Nat
  deriving DecidableEq, Repr

/-! ### The host side (chapter 13) -/

/-- What enumeration sets in a function's configuration space beside Bus Master Enable and VF Enable (R292, R295): the Max Payload Size
and the Max Read Request Size in bytes, whether ATS is enabled, whether the function stands in D3hot, the Completion Timeout in
ms. -/
structure FnCfg where
  mps : Nat
  mrrs : Nat
  ats : Bool
  d3 : Bool
  completionMs : Nat
  deriving DecidableEq, Repr

/-- The host as the device sees it over PCI Express: host memory by function and IOVA, ranges whose access fails
(R295), the data of the last BAR read (R6), the link (R292), bus mastering and VF Enable (R294), the other settings of configuration
space by function, none listed being as a reset leaves them (R292), the MSI-X messages
raised, newest first, as (function, vector), and when events last raised vector 0 of each function (R340) (DESIGN CHOICE,
log entry 3). -/
structure HostSide where
  mem : List Host.Cell
  bad : List (Nat × Nat)
  data : Word
  linkUp : Bool
  bme : List Nat
  vfs : Nat
  cfg : List (Nat × FnCfg)
  msix : List (Nat × Nat)
  msixLast : List (Nat × Nat)
  deriving DecidableEq, Repr

/-- How far a fetched descriptor is: fetched, dispatched by the scheduling pass, waiting on the wait its body names,
released by that wait, or started (R307, R338). -/
inductive Phase where
  | fetched
  | dispatched
  | waiting
  | released
  | running
  deriving DecidableEq, Repr

/-- A fetched descriptor: ring number, its 64 bytes, the host table it names once read, its phase, when it became
ready, when it started, its arithmetic status (R54), its energy in nJ (R371), whether it started from URGENT, and the
tiles of each stage that the scheduling pass set aside for it (R338), and whether its time limit has expired (R310). Descriptors
fetched after an adoption or a new enabling count on from the next multiple of 2^32. -/
structure Desc where
  n : Nat
  raw : List Byte
  table : List Byte
  phase : Phase
  ready : Nat
  start : Nat
  astat : Nat
  energy : Nat
  urgent : Bool
  tiles : List (List Nat)
  expired : Bool
  deriving DecidableEq, Repr

/-- Queue states (R300). -/
inductive QState where
  | free
  | active
  | error
  | resigning
  | orphaned
  deriving DecidableEq, Repr

/-- A work queue or an admin queue (R299 to R304, the queue-table entry of R321). The fields after `lastService` are the
fetched descriptors in ring order, the records held in orphan mode (R317), whether a record write failed (R295),
whether the queue was resigning when its function was orphaned or orphaned when a resign covered it (R300, R312), its count of
ORPHANED completions (R318) and how often its rings have been set up anew (R319, R321). -/
structure Queue where
  state : QState
  cls : Nat
  base : Nat
  fn : Nat
  loc : Nat
  log2 : Nat
  ctx : Nat
  vector : Nat
  sq : Nat
  cq : Nat
  tail : Nat
  fetch : Nat
  head : Nat
  written : Nat
  dropped : Nat
  lastService : Nat
  fetched : List Desc
  held : List (List Byte)
  recordLost : Bool
  resignAtOrphan : Bool
  wasOrphaned : Bool
  orphanedDone : Nat
  epoch : Nat
  deriving DecidableEq, Repr

/-- Context states (R300). -/
inductive CState where
  | active
  | faulted
  | resigning
  deriving DecidableEq, Repr

/-- A context (the context-table entry of R321); energy in nJ. -/
structure Ctx where
  state : CState
  fn : Nat
  maxq : Nat
  mode : Word
  seed : Word
  astat : Nat
  faultEvt : Nat
  faultPc : Nat
  faultTile : Nat
  energy : Nat
  created : Nat
  deriving DecidableEq, Repr

/-- An extent of device memory (R130): kind 0 near, 1 far PROTECTED, 2 far COMPUTE. -/
structure Extent where
  base : Nat
  len : Nat
  ctx : Nat
  kind : Nat
  deriving DecidableEq, Repr

/-- The orphan report entry of one queue (R318). -/
structure OrphanEntry where
  queue : Nat
  ctx : Nat
  written : Nat
  fetch : Nat
  tail : Nat
  deriving DecidableEq, Repr

/-- A PCI Express function (R316 to R319): the heartbeat watch, the orphan report, and whether the admin queue has been
enabled anew since orphan entry. -/
structure Fn where
  hbLast : Nat
  hbLate : Bool
  orphan : Bool
  reason : Nat
  entry : Nat
  adminLost : Nat
  entries : List OrphanEntry
  enabledAnew : Bool
  deriving DecidableEq, Repr

/-- A resign in progress (R311, R312): its issuer, its scope (4 is the model's mark for the resign that is part of an
orderly stop), its target and the descriptors it stopped. -/
structure Resign where
  fn : Nat
  scope : Nat
  target : Nat
  queues : List Nat
  stopped : Nat
  dropped : Nat
  deriving DecidableEq, Repr

/-! ### Firmware and management (chapter 14) -/

/-- A request the firmware (or the boot ROM) has taken from a mailbox and not answered (R328, R329): its header, its body and
the tempo of its doorbell. -/
structure MbReq where
  major : Nat
  minor : Nat
  opcode : Nat
  seq : Nat
  body : List Byte
  door : Nat
  deriving DecidableEq, Repr

/-- One mailbox: the expected SEQ (none before the first request), the doorbell accepted and not answered as (SEQ, tempo), and
the request taken (R328, R329). -/
structure Mailbox where
  expected : Option Nat
  door : Option (Nat × Nat)
  req : Option MbReq
  deriving DecidableEq, Repr

/-- An open job (R334). -/
structure Job where
  ctx : Nat
  level : Nat
  policy : Nat
  det : Bool
  opened : Nat
  deriving DecidableEq, Repr

/-- A general timer (R345): enabled, object, period in ns, value, next expiry. -/
structure Timer where
  enable : Bool
  obj : Nat
  period : Nat
  value : Nat
  next : Nat
  deriving DecidableEq, Repr

/-- The firmware's own data: the retained image header and code (R323, R325), the times of restarts, the DEV_CONFIG body
in force and the one being applied (R323, R333), whether a first configuration has been applied since reset, the
mailboxes whose doorbells wait, in order, the first of them being served (R328), and the URGENT share: its window, the tile
time charged so far in tile ns, and up to when (R339). -/
structure Fw where
  header : List Byte
  release : Nat
  svn : Nat
  restarts : List Nat
  config : List Byte
  configNew : List Byte
  configured : Bool
  order : List Nat
  urgentWindow : Nat
  urgentNs : Nat
  urgentMark : Nat
  deriving DecidableEq, Repr

/-! ### Bring-up and sideband (chapters 17 and 18) -/

/-- The boot record's own data (R407): the stage, the flags, the effective list in order, the counts and the times. -/
structure Boot where
  stage : Nat
  hostAccepted : Bool
  hostRejected : Bool
  merged : Bool
  defects : List Defect
  newTest : Nat
  newRuntime : Nat
  hostIgnored : Nat
  untested : Nat
  tBist : Nat
  tLoad : Nat
  tReady : Nat
  topoPassed : Bool
  readyLate : Bool
  deriving DecidableEq, Repr

/-- One GPIO (R423): mode, edge flags, filter in µs, filtered level, its edge events of the window (R423), and until when it sinks
for a pulse of TEMPO_PPS (R343). -/
structure Gpio where
  mode : Nat
  flags : Nat
  filter : Nat
  level : Bool
  window : Nat
  edges : Nat
  sunkUntil : Nat
  deriving DecidableEq, Repr

/-- The pins and supplies (R417 to R425): the reset inputs, input-good, the auxiliary supply, the outputs that sink
(CLKREQ_N, THERMTRIP_N, PWR_GOOD; ALERT_N follows its owner's condition), the strap and its latch, whether its change was reported, the GPIOs, the
supply readings in mV, whether the module is dark (R391, R398, R417), the I3C dynamic address, whether its
assignment has been reported, and the last I3C answer. -/
structure Pins where
  perst : Bool
  modReset : Bool
  inputGood : Bool
  auxOn : Bool
  clkreq : Bool
  thermtrip : Bool
  pwrGood : Bool
  strap : Nat
  slotId : Nat
  strapTold : Bool
  gpio : List Gpio
  vin : Nat
  aux : Nat
  dark : Bool
  i3cAddr : Nat
  i3cTold : Bool
  i3cAnswer : List Byte
  deriving DecidableEq, Repr

/-- What the module keeps in fuses, and the debug unlock (R327, R410, R413, R426): the fused SVN counter, the debug state
and the highest reached since reset, the outstanding challenge with its time, the AUTH failures, and the instruction and
the answer of the test access port. -/
structure Trust where
  svn : Nat
  debug : Nat
  highest : Nat
  challenge : Option (List Byte × Nat)
  failures : Nat
  tapIr : Nat
  tapOut : Nat
  deriving DecidableEq, Repr

/-! ### Tiles and pipelines (chapters 03 and 04) -/

/-- An operand descriptor of a container (R84). -/
structure Operand where
  addr : Nat
  saddr : Nat
  tscale : F32
  stride : Nat
  rows : Nat
  rowBytes : Nat
  fmt : Nat
  mem : Bool
  hasT : Bool
  hasB : Bool
  rnd : Nat
  tag : Nat
  offReg : Nat
  iReg : Nat
  deriving DecidableEq, Repr

/-- A weight set (R58): loaded since binding, format, tensor scale, the element codes of each K row, the scale bytes of
each block of K rows, whether it is block scaled. -/
structure WSet where
  loaded : Bool
  fmt : Nat
  tscale : F32
  bscaled : Bool
  rows : List (List Nat)
  scales : List (List Nat)
  deriving DecidableEq, Repr

/-- One accumulator entry: the 128 column values, the latent mark (R68), whether the values are INT32 (R46) and the
product of tensor scales to apply at drain (R42). -/
structure Acc where
  cols : List F32
  latent : Bool
  int : Bool
  prod : F32
  deriving DecidableEq, Repr

/-- A port of a tile's program (R87, R99): number, direction (true: output), lines, buffer, and its stream. -/
structure Port where
  num : Nat
  out : Bool
  lines : Nat
  buf : Nat
  sid : Option Nat
  deriving DecidableEq, Repr

/-- What the sequencer of a tile is doing. -/
inductive Seq where
  | idle
  | ready
  | run
  | waitSync (obj threshold deadline : Nat)
  | waitStream (port deadline : Nat)
  | halted
  | done
  deriving DecidableEq, Repr

/-- A message taken into a port buffer: port, producer (stage-relative), bytes (R90). -/
structure Inbox where
  port : Nat
  prod : Nat
  bytes : List Byte
  deriving DecidableEq, Repr

/-- A tile (chapter 03, R78 to R81): its pipeline and place, the sequencer with the slot to perform next and the G
writes and branch that take effect after the bundle (R79), the tables of the container, registers, SRAM, array. -/
structure Tile where
  pipe : Option Nat
  index : Nat
  lastCtx : Option Nat
  seq : Seq
  pc : Nat
  slot : Nat
  gwrites : List (Nat × Word)
  branch : Option Nat
  halting : Bool
  code : List Nat
  opds : List Operand
  consts : List Word
  handles : List (Nat × Nat × Nat)
  ports : List Port
  inbox : List Inbox
  rounds : List (Nat × Nat)
  discarded : List Nat
  g : List Word
  v : List (Nat × List F32)
  sram : List Host.Cell
  sramErr : List (Nat × Byte)
  ceTimes : List Nat
  setA : WSet
  setB : WSet
  acc : List (Nat × Acc)
  latbuf : List (List Byte)
  latwait : List (List Byte)
  loading : Option (Nat × Nat)
  credits : Nat
  slots : Nat
  deriving DecidableEq, Repr

/-- One stage of a bound pipeline (R99): its tiles in stage order, and whether it may be castled. -/
structure Stage where
  tiles : List Nat
  swappable : Bool
  deriving DecidableEq, Repr

/-- A pipeline (R99 to R102): its descriptor, context, job, stages, timeout in ns, whether its tiles have been
released, and the status and result it will complete with once its tiles have halted (R102, R312). -/
structure Pipe where
  q : Nat
  n : Nat
  ctx : Nat
  job : Nat
  stages : List Stage
  timeout : Nat
  released : Bool
  ending : Option (Nat × Nat)
  deriving DecidableEq, Repr

/-- A message in flight: producer tile, consumer tile (or sampler number), bytes. -/
structure Flight where
  prod : Nat
  cons : Nat
  bytes : List Byte
  deriving DecidableEq, Repr

/-- A stream (R90 to R94): its pipeline, ports, tiles, shape, the sampler slot when it ends at a sampler, the lines of
each producer's share, the credits held per (producer, consumer) pair, the messages in flight in send order, and the
credits on their way back. -/
structure Stream where
  pipe : Nat
  srcPort : Nat
  dstPort : Nat
  prods : List Nat
  conss : List Nat
  broadcast : Bool
  sampler : Option Nat
  share : Nat
  credits : List ((Nat × Nat) × Nat)
  flight : List Flight
  returning : List ((Nat × Nat) × Nat)
  group : Option Nat
  deriving DecidableEq, Repr

/-- A pending wait on a sync object (R95, R96). -/
structure SyncWait where
  obj : Nat
  threshold : Nat
  who : Waiter
  deadline : Nat
  deriving DecidableEq, Repr

/-! ### The on-die network (chapter 05) -/

/-- A packet parked in a router (R119): the router (a tile number, or 256 + edge index), the packet, the device its Bamat
header names and that header where it has one (R276), and the CLK_NOC cycle in which it parked. -/
structure Parked where
  node : Nat
  pkt : NocPkt
  dstdev : Nat
  hdr : Option BamatPkt
  since : Nat
  deriving DecidableEq, Repr

/-- A packet in the mesh on its way to its target router (R111), with the Bamat header that travels with one that leaves by a
port (R276). -/
structure MeshPkt where
  pkt : NocPkt
  target : Nat
  hdr : Option BamatPkt
  deriving DecidableEq, Repr

/-- The mesh: parked packets, packets on their way, the members of each multicast group (R116), reduction entries freed
as (router, cycle) and the last arrival handled at each router as (router, cycle, port) (R120), the jobs being purged, the
first of them now, and whether a quiet period follows (R123, R315), and per link, named by its port, the failures in a row of one flit with the times of recent
retries, the links that have failed (R125), and when EVT 0x0301 was raised for a job (R122). -/
structure Noc where
  parked : List Parked
  flight : List MeshPkt
  groups : List (Nat × List Nat)
  freed : List (Nat × Nat)
  handled : List (Nat × Nat × Nat)
  purging : List (Nat × Bool)
  retries : List ((Nat × Nat) × Nat × List Nat)
  failed : List (Nat × Nat)
  detTold : List (Nat × Nat)
  deriving DecidableEq, Repr

/-! ### Memory (chapter 06) -/

/-- A slice being evacuated (R153): its tile, the base of its frame, the next page of the slice to copy. -/
structure Evac where
  tile : Nat
  frame : Nat
  next : Nat
  deriving DecidableEq, Repr

/-- The memory controllers: device memory by logical address; wrong symbols stored in granules, key granule * 128 +
position, in canonical form; granules whose corrected data wait to be written back (R142); retired pages (R145); the
evacuation frames in force (R153), slices being evacuated, and slices served from a frame; whether the switch to LAYER
mode waits, the tile whose layer called for it and the channels that have switched (R133); recent corrected
errors per controller (R155); near scrub positions and the start of each sweep (R148); row marks as (sweep, sweeps in a
row) (R149); TSVs that failed the last test, those declared failed, the spare that carries each remapped one, and their recent corrected errors (R151); failed pins
(R137); retired stacks (R404). -/
structure MemSys where
  cells : List Host.Cell
  err : List (Nat × Byte)
  wbPend : List Nat
  retired : List Nat
  frames : List Nat
  evac : List Evac
  served : List (Nat × Nat)
  clkPend : Bool
  clkTile : Nat
  switched : List Nat
  ceTimes : List (Nat × List Nat)
  scrubNear : List (Nat × Nat)
  sweepStart : List (Nat × Nat)
  rowMarks : List ((Nat × Nat) × Nat × Nat)
  tsvFail : List (Nat × Nat)
  tsvDead : List (Nat × Nat)
  tsvSpare : List ((Nat × Nat) × Nat)
  tsvCe : List ((Nat × Nat) × List Nat)
  pinsFailed : List (Nat × Nat)
  stacksRetired : List Nat
  deriving DecidableEq, Repr

/-! ### In-stack arithmetic (chapter 07) -/

/-- An accepted in-stack command (R163): its descriptor, context, whether the controller has started it, the row operations
each lane has still to run, and what it will write when done: the destination, the block sums, its arithmetic status;
whether it stops for a resign. -/
structure PimCmd where
  q : Nat
  n : Nat
  ctx : Nat
  started : Bool
  lanes : List (Nat × Nat)
  writes : List (Nat × List Byte)
  sums : List (Nat × List Byte)
  flags : List (Nat × Nat)
  stopping : Bool
  deriving DecidableEq, Repr

/-- A running sequence (R164): its lane, row operations and start. -/
structure PimSeq where
  lane : Nat
  rows : Nat
  start : Nat
  deriving DecidableEq, Repr

/-- A request held behind a sequence (R167): a read, a write, or the controller's scrub. -/
inductive HeldReq where
  | run
  | read (addr : Nat) (who : Consumer) (err retry : List (Nat × Byte))
  | write (addr : Nat) (data : List Byte) (who : Consumer)
  | scrub (err retry : List (Nat × Byte))
  deriving DecidableEq, Repr

/-- One stack's in-stack side: commands in order, running sequences, the budget window with the nJ spent, windows in a row
without a deferral, whether a deferral has come since EVT 0x0511, whether this window deferred, postponed refreshes per
bank (key 4 × lane + bank), requests held as (lane, arrival, request). -/
structure PimStack where
  cmds : List PimCmd
  seqs : List PimSeq
  window : Nat
  spent : Nat
  clean : Nat
  throttled : Bool
  deferred : Bool
  postponed : List (Nat × Nat)
  held : List (Nat × Nat × HeldReq)
  deriving DecidableEq, Repr


/-! ### KV pages (chapter 08) -/

/-- A directory entry (R186). -/
structure DirEntry where
  frame : Nat
  refcnt : Nat
  busy : Bool
  remote : Bool
  fill : Nat
  owner : Nat
  fmt : Nat
  deriving DecidableEq, Repr

/-- A sequence record (R184, R189): latent format and width, layers, pages per layer, length, map, job. -/
structure KvSeq where
  ctx : Nat
  layers : Nat
  maxPages : Nat
  w : Nat
  fmt : Nat
  remoteOk : Bool
  job : Nat
  len : Nat
  map : Nat
  deriving DecidableEq, Repr

/-- One remote page still to come: its transfer tag, layer, page, the frame reserved for it, the parts of 1,024 bytes that have come,
and FILL once the part with LAST has. -/
structure KvRead where
  tag : Nat
  layer : Nat
  page : Nat
  frame : Nat
  parts : List Nat
  fill : Option Nat
  deriving DecidableEq, Repr

/-- What a page transfer is (R199): a FETCH of this device, a PUSH that a peer sends here, a PUSH of this device that waits for
its peer's answer. -/
inductive KvKind where
  | fetch
  | pushIn
  | pushOut
  deriving DecidableEq, Repr

/-- A page transfer in progress (R199): its descriptor (of a FETCH or of a PUSH sent), context, local sequence, peer and peer
sequence, job, token count, pages still to come, and the pages mapped so far as (layer, page, directory index). -/
structure KvFetch where
  kind : KvKind
  q : Nat
  n : Nat
  ctx : Nat
  seq : Nat
  peer : Nat
  peerSeq : Nat
  job : Nat
  count : Nat
  todo : List KvRead
  got : List (Nat × Nat × Nat)
  deriving DecidableEq, Repr

/-- A copy-on-write that holds an old page BUSY (R195): sequence, layer, page, old directory index, reserved frame. -/
structure KvCopy where
  seq : Nat
  layer : Nat
  page : Nat
  old : Nat
  frame : Nat
  deriving DecidableEq, Repr

/-- A running APPEND (R191, R195): its descriptor, context, the entries not yet finished as (sequence, tokens, staging address)
with the current one first, the address of the first uncorrectable error it met, and the frames reserved and not yet mapped. -/
structure KvAppend where
  q : Nat
  n : Nat
  ctx : Nat
  entries : List (Nat × Nat × Nat)
  ue : Option Nat
  reserved : List Nat
  deriving DecidableEq, Repr

/-- Work the engine has accepted and not started (R194): a descriptor, or the TRUNCATE that a sampler submits for a sequence
whose output record lies at an address; it carries the sampler and its job (R213, R217). -/
inductive KvWork where
  | desc (q n : Nat)
  | rollback (smp : Nat × Nat) (ctx seq count out : Nat)
  deriving DecidableEq, Repr

/-- The page engine: directory, sequences, the free frames of each context with the frames pooled, transfers, copies in
progress, at most 16, and those of the entry still to begin, remote reads waiting for a BUSY page with its directory index, the running APPEND, accepted work in order. -/
structure Kvp where
  dir : List (Nat × DirEntry)
  seqs : List (Nat × KvSeq)
  free : List (Nat × Nat)
  pooled : List (Nat × Nat)
  fetches : List KvFetch
  copies : List KvCopy
  copyWait : List KvCopy
  waiting : List (BamatPkt × Nat)
  running : Option KvAppend
  work : List KvWork
  deriving DecidableEq, Repr

/-! ### Samplers (chapter 09) -/

/-- A bound slot of a sampler (R202): stream, pipeline, context, job, producers, messages in arrival order, the stream timeout
of its pipeline in ns, and whether that pipeline has completed. -/
structure Slot where
  sid : Nat
  pipe : Nat
  ctx : Nat
  job : Nat
  prods : Nat
  msgs : List (Nat × List Byte)
  lastMsg : Nat
  timeout : Nat
  ended : Bool
  deriving DecidableEq, Repr

/-- What a sampler chose from one row of one stream (R206): the kept candidates in order with e of each (none: NO_CAND), and
whether its logits held a non-finite value. -/
structure RowPick where
  cands : List (Nat × F32)
  nonfinite : Bool
  deriving DecidableEq, Repr

/-- A descriptor accepted by a sampler (R204, R211): sample or gambit, its queue and number, the next row (or
sequence), the logit rows taken, the rows of the sequence in hand as chosen for each stream, whether a non-finite row was
reported, when it became the one that runs, and whether a resign covers it. -/
structure SampleCmd where
  gambit : Bool
  q : Nat
  n : Nat
  ctx : Nat
  row : Nat
  lrow : Nat
  kept : List (List RowPick)
  nonfinite : Bool
  since : Nat
  stopping : Bool
  deriving DecidableEq, Repr

/-- One sampler: its bound slots and its accepted descriptors in order. -/
structure Sampler where
  slots : List (Nat × Slot)
  cmds : List SampleCmd
  deriving DecidableEq, Repr

/-! ### Updates and audits (chapter 10) -/

/-- An accepted update command (R224 to R229): its tensor table, the program and its mode, PARAMS, the flag value, STEP, what
each engine has still to do as (engine, tensor place, unit), whether a non-finite state was written, the status it will
complete with and its result. An audit stands among the commands in its order. -/
structure UpdCmd where
  audit : Bool
  q : Nat
  n : Nat
  ctx : Nat
  table : List Byte
  prog : List Nat
  block : Bool
  params : List F32
  flag : F32
  step : Nat
  todo : List (Nat × Nat × Nat)
  nonfinite : Bool
  status : Nat
  result : Nat
  deriving DecidableEq, Repr

/-- One engine's Konaoc register files (R232, R233): the starting contents and the contents now of the 32 registers of each
element in hand, and the block results F28 to F31. -/
structure Engine where
  start : List (List F32)
  files : List (List F32)
  results : List F32
  deriving DecidableEq, Repr

/-- A block that an audit fetches again from its owner (R241): owner replica, tensor place, block, the owner's hash, fetches so
far, reads still outstanding. -/
structure Refetch where
  owner : Nat
  place : Nat
  block : Nat
  want : Word
  tries : Nat
  reads : List Nat
  deriving DecidableEq, Repr

/-- The audit in progress (R239 to R241): its descriptor, tensor table, peers, this device's replica index, step, report, job,
start, local hashes as (tensor place, block, hash), blocks of other owners handled, replicas whose done message has come, blocks
being fetched again, blocks reported, whether a block stayed unrepaired, whether its own done messages have been sent. -/
structure Audit where
  q : Nat
  n : Nat
  ctx : Nat
  table : List Byte
  peers : List Nat
  rep : Nat
  step : Nat
  report : Nat
  job : Nat
  start : Nat
  hashes : List ((Nat × Nat) × Word)
  seen : List (Nat × Nat)
  done : List Nat
  refetch : List Refetch
  entries : Nat
  failed : Bool
  told : Bool
  deriving DecidableEq, Repr

/-- Hashes that an owner sent (R240): job, owner device, TIDX, N, WFMT, (block, hash). -/
structure HashMail where
  job : Nat
  owner : Nat
  tidx : Nat
  elems : Nat
  wfmt : Nat
  hashes : List (Nat × Word)
  deriving DecidableEq, Repr

/-- The update engines: accepted commands in order, the engines' register files, the audit in progress, hashes and done
messages as (job, device) that came before their audit. -/
structure Upd where
  cmds : List UpdCmd
  engines : List (Nat × Engine)
  audit : Option Audit
  mail : List HashMail
  dones : List (Nat × Nat)
  deriving DecidableEq, Repr

/-! ### Collectives (chapter 11) -/

/-- What an owner knows of one contributor (R251 to R253, R261): when it became complete, whether it is excluded, whether its
devices have all abandoned, whether its backup has been asked. -/
structure Contrib where
  complete : Option Nat
  excluded : Bool
  abandoned : Bool
  asked : Bool
  deriving DecidableEq, Repr

/-- A member's summary (R257): its word, its detail record, its missing bitmap as a list of members. -/
structure Summary where
  word : Word
  detail : List Byte
  missing : List Nat
  deriving DecidableEq, Repr

/-- An open collective (R245 to R262): its descriptor, context and job, the body, the member table, when it
opened; whether its packets are reducible, its job deterministic, its check on; the job's policy.
At the owner: what it knows of each contributor, (contributor, range) pairs taken, ranges that hold something, range counts, contributions held ahead of their turn as ((range, contributor), (backup, data)),
the next contributor of each range, the order log, check samples by (contributor, backup), the record of R255 as (element,
contributor, device), the lowest element that failed the check, the flags, whether a backup's copy was used, T_m, D2 once D1
has passed, whether the share is finished, an uncorrectable error. At every member: the summaries, members and devices that
abandoned, members marked in the bitmap beside excluded contributors, whether STATUS is written, (member, block) pairs still to land,
blocks being read again, the multicast group of a broadcast within the device (R117). -/
structure Collective where
  q : Nat
  n : Nat
  ctx : Nat
  job : Nat
  body : List Byte
  table : List Byte
  start : Nat
  red : Bool
  det : Bool
  check : Bool
  policy : Nat
  contribs : List (Nat × Contrib)
  taken : List (Nat × Nat)
  has : List Nat
  counts : List (Nat × Nat)
  staged : List ((Nat × Nat) × (Bool × List F32))
  next : List (Nat × Nat)
  order : List (Nat × List (Nat × Bool))
  checks : List ((Nat × Bool) × List (Nat × F32))
  compared : List Nat
  nf : Option (Nat × Nat × Nat)
  checkElem : Option Nat
  flags : Nat
  backupUsed : Bool
  tm : Option Nat
  d2 : Option Nat
  finished : Bool
  ue : Option Nat
  sums : List (Nat × Summary)
  gone : List Nat
  goneDevs : List Nat
  marked : List Nat
  statusDone : Bool
  gather : List (Nat × Nat)
  refetch : List Refetch
  mcast : Option Nat
  deriving DecidableEq, Repr

/-- The collective engine: open collectives by identifier, the next identifier, when EVT 0x0940 was last raised per job. -/
structure Coll where
  open_ : List (Nat × Collective)
  next : Nat
  refusedTold : List (Nat × Nat)
  deriving DecidableEq, Repr

/-! ### Bamat links (chapter 12) -/

/-- A packet waiting at a port in the buffer of its virtual channel and class (R270, R276): its bytes still to send, and whether
some have been sent. -/
structure TxPart where
  vc : Nat
  cls : Nat
  left : List Byte
  begun : Bool
  pkt : BamatPkt
  deriving DecidableEq, Repr

/-- A frame as an Ethernet port sends it (R289). -/
structure EthFrame where
  dst : Nat
  src : Nat
  priority : Nat
  vlan : Nat
  etherType : Nat
  flits : List Flit
  deriving DecidableEq, Repr

/-- One port beside its registers (R267 to R272): when the training attempt started, failed attempts in a row, the next SEQ to
send and to expect, the IDENT and the TIME flit it sent last (R282, R284), the last IDLE flit it answered with; the retry buffer
with how often each flit has been resent, and the packets whose last flit it holds as (SEQ, packet); when ACK last advanced, times
of recent resends, credits held per virtual channel, packets that wait for a flit; the bytes of partly received packets per
channel, and of each flit received and not yet emptied the bytes it still holds; of an Ethernet port, until when its peer has
paused it and the frames it sent last (R289); and the delay of the link and the offset of its peer in ps as last measured (R284). -/
structure PortSt where
  attemptAt : Nat
  failed : Nat
  txSeq : Nat
  rxSeq : Nat
  ident : Option Flit
  time : Option Flit
  answer : Option Flit
  retry : List (Flit × Nat)
  unacked : List (Nat × BamatPkt)
  ackAt : Nat
  resendTimes : List Nat
  credits : List Nat
  txq : List TxPart
  rx : List (List Byte)
  held : List (List Nat)
  pausedUntil : Nat
  frames : List EthFrame
  delay : Int
  offset : Int
  deriving DecidableEq, Repr

/-- A mirror (R277). -/
structure Mirror where
  ctx : Nat
  job : Nat
  peer : Nat
  local_ : Nat
  remote : Nat
  len : Nat
  deriving DecidableEq, Repr

/-- A proxy (R277). -/
structure Proxy where
  obj : Nat
  ctx : Nat
  job : Nat
  peer : Nat
  remote : Nat
  deriving DecidableEq, Repr

/-- A remote operation of this device whose answer is outstanding: the packet sent and who issued it. -/
structure Outstanding where
  pkt : BamatPkt
  tile : Option Nat
  deriving DecidableEq, Repr

/-- The links: ports, mirrors and proxies by slot, operations outstanding, packets that have reached this device's end of
a path and not been handled, answers to its own operations that found no route among them, the topology descriptor in
force, and the time-keeping of R284 and R285: the estimated error from the master in ps, the slew left and the slew not yet
shown in whole ns (both in half ps), whether a first exchange has been made, when the parent was lost, and whether the estimated
error is within ±10 ns. -/
structure Lnk where
  ports : List (Nat × PortSt)
  mirrors : List (Nat × Mirror)
  proxies : List (Nat × Proxy)
  outstanding : List Outstanding
  arrived : List BamatPkt
  topo : List Byte
  tempoErr : Nat
  tempoRem : Int
  slewAcc : Int
  firstExchange : Bool
  holdAt : Option Nat
  locked : Bool
  deriving DecidableEq, Repr

/-! ### Power (chapter 15) -/

/-- One cluster's power state beside its registers (R352 to R363, R392): the bubble accumulator, energy totals in nJ, stress
counted since reset in units of 2 to the minus 32 ns and up to when, the hours restored in 0.01 h, since when it waits for the
slope token, the window of 1 ms of its last clock stretch with the stretches in it, its CLUSTER_FREQ_MAX, whether a tile of it
has been bound since reset, the time it has had a bound tile up to its last sample and when that was, and its hottest values
while bound as (bound time, value), newest first. -/
structure ClusterPwr where
  bubbleAcc : Nat
  energyNj : Nat
  idleNj : Nat
  stressAcc : Nat
  stressMark : Nat
  stressBase : Nat
  wakeAt : Option Nat
  stretchWindow : Nat
  stretchCount : Nat
  freqMax : Nat
  everBound : Bool
  boundNs : Nat
  boundMark : Option Nat
  warm : List (Nat × Nat)
  deriving DecidableEq, Repr

/-- A power setting accepted and waiting for the window boundary (R366): mode, frequency, gain, cap. -/
structure PowerSetting where
  mode : Nat
  freq : Nat
  gain : Nat
  cap : Nat
  deriving DecidableEq, Repr

/-- The power controller (R358 to R366): input energy of the window in nJ, what came
after its end (R286), and the totals in nJ; queue energy totals in nJ; of the
current ms, the sum of F over its windows, their number, whether F stood at its top in all of them, its input energy, what came after its end; the
input energy of the last whole ms; the setting that waits for the boundary; whether a peak guard holds F; when each quadrant's
slope token was spent; the converter ceiling and the coolant limit; whether the short ramp is in force (R63); whether a
bubble has come since the mode was entered (R366); the descriptor and context of tiles freed in this window, as (tile, queue, ring
number, context) (R372); whether stress hours have been restored. -/
structure Pwr where
  clusters : List (Nat × ClusterPwr)
  windowNj : Nat
  laterNj : Nat
  inputNj : Nat
  overheadNj : Nat
  queueNj : List (Nat × Nat)
  fSum : Nat
  fCount : Nat
  fMaxAll : Bool
  msNj : Nat
  laterMsNj : Nat
  lastMsNj : Nat
  pendingSet : Option PowerSetting
  guard : Bool
  tokens : List (Nat × Nat)
  convCeil : Option Nat
  coolLimit : Option Nat
  shortRamp : Bool
  bubbled : Bool
  lastWork : List (Nat × Nat × Nat × Nat)
  stressRestored : Bool
  deriving DecidableEq, Repr

/-! ### Heat (chapter 16) -/

/-- A spot (R376 to R391): when it was last sampled; its recent values as (time, value), newest first, all from one source; its
level and the samples towards a lower one; whether it is in rate CHECK, the samples towards leaving it, whether its rate is one
of STOP; whether it is sampled fast, the samples towards leaving that; its thermal fraction; the sensors that read TRIP at the
last sample; those invalid now and those reported so; samples in a row with a tile's pair apart, and agreeing; the source of its
value (0 reading, 1 model, 2 the tile, 3 a substitute); samples towards a slower refresh rate, and towards the end of a thermal
hold. -/
structure SpotSt where
  last : Option Nat
  hist : List (Nat × Nat)
  level : Nat
  cool : Nat
  rate : Bool
  rateCool : Nat
  rateStop : Bool
  fast : Bool
  slow : Nat
  ft : Nat
  hits : List Nat
  invalid : List Nat
  told : List Nat
  apart : Nat
  agree : Nat
  source : Nat
  refCool : Nat
  holdCool : Nat
  deriving DecidableEq, Repr

/-- A middle layer's judgement (R384, R385): samples the model has led, samples the reading has led, samples in
agreement, whether the reading is suspect and whether the model drives. -/
structure MidSt where
  above : Nat
  below : Nat
  agree : Nat
  suspect : Bool
  drives : Bool
  deriving DecidableEq, Repr

/-- A castling in progress (R393, R394): the hot tile, its partner, its start. -/
structure Castle where
  hot : Nat
  cool : Nat
  start : Nat
  deriving DecidableEq, Repr

/-- The latest sample of a tile column (R384): when, the ns since the one before, and the granules moved on N1 and N2 in them. -/
structure Column where
  stamp : Nat
  dt : Nat
  g1 : Nat
  g2 : Nat
  deriving DecidableEq, Repr

/-- The sensor sequencer and the stop (R378 to R394): the spots; the middle layers; the last readings of near layers by (tile,
layer), none when invalid; when each column's model was last computed; of each thinned edge router, up to when and with how many
hundredths of a cycle its blanked cycles are counted; flow samples below 0.2 L/min in a row; samples and sums of the coolant
window, flow in 0.001 L/min and inlet in 1/16 °C, and the samples that came after its end, as (0 flow or 1 inlet, value) (R286);
windows of good flow in a row, the flow limit in force, whether an inlet limit, a flow below 1.0 L/min, an inlet of 55 °C or a cold
inlet stands reported; the coolant sensors reported invalid; the castling in progress; when tiles were last castled; since when a
tile has led an equal one by 8 °C; whether the stop in progress keeps memory powered; whether this start found a trip record
(R391). -/
structure Thm where
  spots : List (Spot × SpotSt)
  mids : List ((Nat × Nat) × MidSt)
  near : List ((Nat × Nat) × Option Nat)
  columnAt : List (Nat × Column)
  edgeAcc : List (Nat × Nat × Nat)
  flowLow : Nat
  flowN : Nat
  flowSum : Nat
  inletN : Nat
  inletSum : Nat
  later : List (Nat × Nat)
  flowGood : Nat
  flowLimit : Option Nat
  inletOn : Bool
  lowOn : Bool
  hotOn : Bool
  coldTold : Bool
  coolantTold : List Nat
  castle : Option Castle
  castledAt : List (Nat × Nat)
  hotSince : List ((Nat × Nat) × Nat)
  stopKeepsMem : Bool
  tripFound : Bool
  deriving DecidableEq, Repr

/-! ### The device -/

/-- The device beside its fuses: tempo, the window in progress of each periodic window by (kind, unit), 0 where none is listed
(R286), the counter of free values drawn (the model's own field, not the spec's), the
registers that do not read their reset value, and every subsystem (DESIGN CHOICE, log entry 124). -/
structure Dev where
  now : Nat
  marks : List ((Nat × Nat) × Nat)
  fresh : Nat
  regs : List (Nat × Word)
  log : Log
  trace : List TraceRec
  host : HostSide
  fns : List (Nat × Fn)
  queues : List (Nat × Queue)
  ctxs : List (Nat × Ctx)
  extents : List Extent
  resigns : List Resign
  quiet : List (Nat × Nat × Bool)
  mboxes : List (Nat × Mailbox)
  fw : Fw
  jobs : List (Nat × Job)
  timers : List (Nat × Timer)
  boot : Boot
  pins : Pins
  tiles : List (Nat × Tile)
  pipes : List (Nat × Pipe)
  streams : List (Nat × Stream)
  waits : List SyncWait
  syncJobs : List Nat
  noc : Noc
  mem : MemSys
  pim : List (Nat × PimStack)
  kvp : Kvp
  smp : List (Nat × Sampler)
  upd : Upd
  col : Coll
  lnk : Lnk
  pwr : Pwr
  thm : Thm
  deriving DecidableEq, Repr

/-- The state of the block: the commands that wait, first in first out; the fuses and the debug unlock; the device. -/
structure State where
  pending : List Instr
  trust : Trust
  dev : Dev
  deriving DecidableEq, Repr

/-! ### The machine right after reset release (R399, R400, R417)

Every structure empty or 0 where the spec gives no value (DESIGN CHOICE, log entry 11); the registers all read their reset values. -/

/-- The log with nothing in it (R340). -/
def Log.empty : Log := ⟨[], [], []⟩

/-- The host side at reset release: nothing written, link down, no bus master, no VF. -/
def HostSide.reset : HostSide :=
  { mem := [], bad := [], data := 0, linkUp := false, bme := [], vfs := 0, cfg := [], msix := [], msixLast := [] }

/-- No firmware (MGT_FW_STAT.STATE reads ABSENT). -/
def Fw.reset : Fw :=
  { header := [], release := 0, svn := 0, restarts := [], config := [], configNew := [], configured := false,
    order := [], urgentWindow := 0, urgentNs := 0, urgentMark := 0 }

/-- The boot record at reset release: STAGE is ROM (R399, R400). -/
def Boot.reset : Boot :=
  { stage := 0, hostAccepted := false, hostRejected := false, merged := false, defects := [], newTest := 0,
    newRuntime := 0, hostIgnored := 0, untested := 0, tBist := 0, tLoad := 0, tReady := 0, topoPassed := false,
    readyLate := false }

/-- A GPIO that nobody has set: an input, filter 1 µs (R418, R423). -/
def Gpio.reset : Gpio := { mode := 0, flags := 0, filter := 1, level := false, window := 0, edges := 0, sunkUntil := 0 }

/-- The pins at reset release (R417, R418, R420): both resets high, input good, CLKREQ_N sinking. -/
def Pins.reset : Pins :=
  { perst := true, modReset := true, inputGood := true, auxOn := true, clkreq := true,
    thermtrip := false, pwrGood := false, strap := 0, slotId := 0, strapTold := false, gpio := List.replicate 8 Gpio.reset,
    vin := 48000, aux := 3300, dark := false, i3cAddr := 0, i3cTold := true, i3cAnswer := [] }

/-- The fuses and the debug unlock at reset: locked at every reset (R412, R413). -/
def Trust.reset : Trust :=
  { svn := 0, debug := 0, highest := 0, challenge := none, failures := 0, tapIr := 0, tapOut := 0 }

/-- The mesh with nothing in it. -/
def Noc.reset : Noc :=
  { parked := [], flight := [], groups := [], freed := [], handled := [], purging := [], retries := [], failed := [], detTold := [] }

/-- Memory with nothing listed: every byte reads 0 (DESIGN CHOICE, log entry 4), no error stored. -/
def MemSys.reset : MemSys :=
  { cells := [], err := [], wbPend := [], retired := [], frames := [], evac := [], served := [], clkPend := false,
    clkTile := 0, switched := [], ceTimes := [], scrubNear := [], sweepStart := [], rowMarks := [], tsvFail := [],
    tsvDead := [], tsvSpare := [], tsvCe := [], pinsFailed := [], stacksRetired := [] }

/-- The page engine with no page. -/
def Kvp.reset : Kvp :=
  { dir := [], seqs := [], free := [], pooled := [], fetches := [], copies := [], copyWait := [], waiting := [], running := none, work := [] }

/-- No update or audit. -/
def Upd.reset : Upd := { cmds := [], engines := [], audit := none, mail := [], dones := [] }

/-- No collective. -/
def Coll.reset : Coll := { open_ := [], next := 0, refusedTold := [] }

/-- No descriptor, every port OFF (R400). -/
def Lnk.reset : Lnk :=
  { ports := [], mirrors := [], proxies := [], outstanding := [], arrived := [], topo := [], tempoErr := 0, tempoRem := 0,
    slewAcc := 0, firstExchange := false, holdAt := none, locked := false }

/-- Capped mode at the reset cap of PWR_CFG, F at 0 (R360, R366). -/
def Pwr.reset : Pwr :=
  { clusters := [], windowNj := 0, laterNj := 0, laterMsNj := 0, inputNj := 0, overheadNj := 0, queueNj := [], fSum := 0, fCount := 0, fMaxAll := true,
    msNj := 0, lastMsNj := 0, pendingSet := none, guard := false, tokens := [], convCeil := none, coolLimit := none,
    shortRamp := false, bubbled := false, lastWork := [], stressRestored := false }

/-- No sample taken yet (R376: 0xFFF, no valid reading). -/
def Thm.reset : Thm :=
  { spots := [], mids := [], near := [], columnAt := [], edgeAcc := [], flowLow := 0, flowN := 0, flowSum := 0, inletN := 0,
    inletSum := 0, later := [], flowGood := 0, flowLimit := none, inletOn := false, lowOn := false, hotOn := false, coldTold := false,
    coolantTold := [], castle := none, castledAt := [], hotSince := [], stopKeepsMem := false,
    tripFound := false }

/-- The device at reset release. -/
def Dev.reset : Dev :=
  { now := 0, marks := [], fresh := 0, regs := [], log := Log.empty, trace := [], host := HostSide.reset, fns := [], queues := [],
    ctxs := [], extents := [], resigns := [], quiet := [], mboxes := [], fw := Fw.reset, jobs := [], timers := [],
    boot := Boot.reset, pins := Pins.reset, tiles := [], pipes := [], streams := [], waits := [], syncJobs := [], noc := Noc.reset,
    mem := MemSys.reset, pim := [], kvp := Kvp.reset, smp := [], upd := Upd.reset, col := Coll.reset, lnk := Lnk.reset,
    pwr := Pwr.reset, thm := Thm.reset }

/-- The machine right after reset: no command waits (DESIGN CHOICE, log entry 8). -/
def State.reset : State := { pending := [], trust := Trust.reset, dev := Dev.reset }

end Sys2Proof.Machine
end

