-- ==== Sys2Proof/Machine/Ops.lean ====
section
/-! DEFINITION. The operations every family shares: registers, the outcome of a command, host memory (R295), MSI-X
messages, the trace (R341) and the log (R340). -/

namespace Sys2Proof.Machine

/-- What a command answers. -/
abbrev Out := Host.Outcome State Fault Refusal

/-- Whether the device works: both resets released, its supplies good, and not dark after a TRIP or a lost clock (R391, R398,
R417) (DEDUCED, log entry 9). -/
def Dev.alive (d : Dev) : Bool := d.pins.perst && d.pins.modReset && d.pins.inputGood && !d.pins.dark

/-- A command whose effect lies in the device: its fuses and debug unlock stay. A device in reset, without input power or dark
does nothing (DEDUCED, log entry 7). -/
def onDev (s : State) (f : Dev → Dev) : Out := if s.dev.alive then .next { s with dev := f s.dev } else .next s

/-- A command that names a unit by number: beyond the units of the device it faults, else it acts on the device (DESIGN
CHOICE, log entry 2). -/
def onUnit (kind : String) (limit n : Nat) (s : State) (f : Dev → Dev) : Out :=
  if n < limit then onDev s f else .fault (.noSuchUnit kind n)

/-- Whether every one of a list of unit numbers lies below its limit; the first that does not. -/
def badUnit : List (String × Nat × Nat) → Option (String × Nat)
  | [] => none
  | (kind, limit, n) :: r => if n < limit then badUnit r else some (kind, n)

/-- A command that names several units. -/
def onUnits (us : List (String × Nat × Nat)) (s : State) (f : Dev → Dev) : Out :=
  match badUnit us with
  | none => onDev s f
  | some (kind, n) => .fault (.noSuchUnit kind n)

/-! ### Registers -/

/-- The register at a BAR0 offset. -/
def Dev.reg (d : Dev) (off : Nat) : Word := canonGet regReset d.regs off

/-- Set the register at a BAR0 offset. -/
def Dev.setReg (d : Dev) (off : Nat) (w : Word) : Dev := { d with regs := canonSet regReset d.regs off w }

/-- A field of a register. -/
def Dev.fld (d : Dev) (off : Nat) (f : Field) : Nat := fieldGet (d.reg off) f

/-- Set a field of a register. -/
def Dev.setFld (d : Dev) (off : Nat) (f : Field) (v : Nat) : Dev := d.setReg off (fieldPut (d.reg off) f v)

/-- Add to a saturating counter field. -/
def Dev.satFld (d : Dev) (off : Nat) (f : Field) (n : Nat) : Dev := d.setFld off f (satAdd f.w (d.fld off f) n)

/-- Add to a wrapping counter field (the value is cut to the field). -/
def Dev.wrapFld (d : Dev) (off : Nat) (f : Field) (n : Nat) : Dev := d.setFld off f (d.fld off f + n)

/-- Set the bits of `mask` of a register to those of `v`. -/
def Dev.setBits (d : Dev) (off : Nat) (mask v : Word) : Dev :=
  d.setReg off ((d.reg off &&& ~~~ mask) ||| (v &&& mask))

/-! ### The trace (R341, R342) -/

/-- Whether a trace point is enabled. -/
def Dev.traces (d : Dev) (p : Nat) : Bool :=
  d.fld R.MGT_TRACE F.MGT_TRACE_ENABLE = 1 && (d.reg (R.MGT_TRACE_MASK (p / 64))).toNat.testBit (p % 64)

/-- Records the trace buffer holds. -/
def traceSize : Nat := 131072

/-- One trace record for point p: at most one per 2 CLK_MGT cycles (4 ns), the rest dropped and counted; in STOP mode a
buffer that has filled takes no more (R341, R342). The list holds the newest record first. -/
def Dev.traceAt (d : Dev) (p unit ctx job data0 data1 : Nat) : Dev :=
  if d.traces p = false then d
  else if d.fld R.MGT_TRACE F.MGT_TRACE_FULL = 1 then d
  else
    let soon := match d.trace with
      | [] => false
      | r :: _ => decide (d.now < r.tempo + 4)
    if soon then d.satFld R.MGT_TRACE F.MGT_TRACE_DROPPED 1
    else
      let stop := d.fld R.MGT_TRACE F.MGT_TRACE_MODE = 1
      let w := (d.fld R.MGT_TRACE F.MGT_TRACE_WRITE + 1) % traceSize
      let d := { d with trace := List.take traceSize (⟨d.now, p, unit, ctx, job, data0, data1⟩ :: d.trace) }
      let d := d.setFld R.MGT_TRACE F.MGT_TRACE_WRITE w
      if stop && w = 0 then d.setFld R.MGT_TRACE F.MGT_TRACE_FULL 1 else d

/-- The trace point of a kind in the subsystem whose event range is `range` (0x01 to 0x10). -/
def tracePoint (range kind : Nat) : Nat := (range - 1) * 16 + kind

/-! ### Host memory (R295) -/

/-- The key of a byte of host memory: each function has its own IOVA space. -/
def hostKey (fn iova : Nat) : Nat := fn * 2 ^ 64 + iova

/-- Whether the device may and can reach a run of host memory: the link is up, the function is a bus master, and no range
that the host fails lies in the run. -/
def Dev.hostReach (d : Dev) (fn iova len : Nat) : Bool :=
  d.host.linkUp && d.host.bme.contains fn &&
    d.host.bad.all (fun r => !(decide (r.1 < hostKey fn iova + len) && decide (hostKey fn iova < r.1 + r.2)))

/-- What an unlisted byte of memory reads as: 0. -/
def zeroByte (_ : Nat) : Byte := 0

/-- A run of cells. -/
def readCells (cells : List Host.Cell) (k len : Nat) : List Byte :=
  (List.range len).map (fun i => canonGet zeroByte cells (k + i))

/-- Write a run of bytes. -/
def writeCells (cells : List Host.Cell) (k : Nat) : List Byte → List Host.Cell
  | [] => cells
  | b :: bs => writeCells (canonSet zeroByte cells k b) (k + 1) bs

/-- Copy a range of one sparse memory into another (or the same): the listed bytes are moved, the rest read 0. -/
def copyCells (src : List Host.Cell) (lo len : Nat) (dst : List Host.Cell) (dlo : Nat) : List Host.Cell :=
  (src.filter (fun e => decide (lo ≤ e.1) && decide (e.1 < lo + len))).foldl
    (fun acc e => canonSet zeroByte acc (e.1 - lo + dlo) e.2) (canonClear dlo (dlo + len) dst)

/-- A host read; none when it returns no data. -/
def Dev.hostRead (d : Dev) (fn iova len : Nat) : Option (List Byte) :=
  if d.hostReach fn iova len then some (readCells d.host.mem (hostKey fn iova) len) else none

/-- A host write; none when the host does not take it. -/
def Dev.hostWrite (d : Dev) (fn iova : Nat) (bs : List Byte) : Option Dev :=
  if d.hostReach fn iova bs.length then
    some { d with host := { d.host with mem := writeCells d.host.mem (hostKey fn iova) bs } }
  else none

/-- What the driver writes into host memory before a doorbell. -/
def Dev.hostPosts (d : Dev) (fn : Nat) : HostWrites → Dev
  | [] => d
  | (iova, bs) :: r =>
    Dev.hostPosts { d with host := { d.host with mem := writeCells d.host.mem (hostKey fn iova) bs } } fn r

/-- Whether a function exists: the PF, or a VF that VF Enable gives. -/
def Dev.fnExists (d : Dev) (fn : Nat) : Bool := decide (fn ≤ d.host.vfs)

/-- An MSI-X message of a function: a host write like any other (R295). -/
def Dev.msix (d : Dev) (fn vector : Nat) : Dev :=
  if d.host.linkUp && d.host.bme.contains fn then
    { d with host := { d.host with msix := (fn, vector) :: d.host.msix } }
  else d

/-- Vector 0 of a function for an event: at most once per 100 µs per function (R340). -/
def Dev.msixEvent (d : Dev) (fn : Nat) : Dev :=
  match look fn d.host.msixLast with
  | some t => if decide (t ≤ d.now) && decide (d.now < t + 100000) then d
    else let d := d.msix fn 0; { d with host := { d.host with msixLast := put fn d.now d.host.msixLast } }
  | none => let d := d.msix fn 0; { d with host := { d.host with msixLast := put fn d.now d.host.msixLast } }

/-! ### Events and the log (R340) -/

/-- An event to raise: code, whether it stopped work, and what its record names. -/
structure Ev where
  code : Nat
  fault : Bool := false
  fn : Nat := 0xFF
  ctx : Nat := 0xFFFF
  job : Nat := 0xFFFF
  unit : Nat := 0xFFFF
  args : List Nat := []
  deriving DecidableEq, Repr

/-- Records the log ring holds (R340). -/
def logSize : Nat := 16384

/-- Write one record at the head of the ring. -/
def Dev.logWrite (d : Dev) (e : Ev) : Dev :=
  let r : LogRec :=
    { seq := d.fld R.MGT_LOG F.MGT_LOG_HEAD, event := e.code, fault := e.fault,
      suppressed := d.log.withheld.contains e.code, tempo := d.now, fn := e.fn, ctx := e.ctx, job := e.job,
      unit := e.unit, args := e.args }
  let d := d.wrapFld R.MGT_LOG F.MGT_LOG_HEAD 1
  { d with log := { d.log with ring := (r :: d.log.ring).take logSize, withheld := d.log.withheld.filter (· ≠ e.code) } }

/-- The count of a code in the current window of 1 ms. -/
def Dev.logCount (d : Dev) (code : Nat) : LogCount :=
  match look code d.log.counts with
  | some c => if c.window = d.now / 1000000 then c else ⟨d.now / 1000000, 0, false⟩
  | none => ⟨d.now / 1000000, 0, false⟩

/-- One record of a code under the limit of 64 in a window: written, or withheld and counted; the flag says whether this
was the first withholding of the code in the window. -/
def Dev.logOne (d : Dev) (e : Ev) : Dev × Bool :=
  let c := d.logCount e.code
  if c.count < 64 then
    let d := d.logWrite e
    ({ d with log := { d.log with counts := put e.code { c with count := c.count + 1 } d.log.counts } }, false)
  else
    let d := d.satFld R.MGT_LOG F.MGT_LOG_SUPPRESSED 1
    let w := if d.log.withheld.contains e.code then d.log.withheld else e.code :: d.log.withheld
    ({ d with log := { d.log with withheld := w, counts := put e.code { c with told := true } d.log.counts } }, !c.told)

/-- The messages an event raises: vector 0 of the PF and of the function it names. -/
def Dev.eventMsix (d : Dev) (e : Ev) : Dev :=
  let d := d.msixEvent 0
  if e.fn ≠ 0xFF && e.fn ≠ 0 then d.msixEvent e.fn else d

/-- The EVENT record of the trace (R341). -/
def Dev.traceEvent (d : Dev) (e : Ev) : Dev := d.traceAt (tracePoint (e.code / 256) 0) e.unit e.ctx e.job e.code (e.args.headD 0)

/-- Raise an event: its record, EVT 0x0C52 at the first withholding of its code in a window, its messages, its trace
record (R340, R341). -/
def Dev.raise (d : Dev) (e : Ev) : Dev :=
  let (d, first) := d.logOne e
  let d := d.eventMsix e
  let d := d.traceEvent e
  if first && e.code ≠ 0x0C52 then
    let w : Ev := { code := 0x0C52, args := [e.code] }
    ((d.logOne w).1.eventMsix w).traceEvent w
  else d

/-- A reserved-write event (R7): counted in HIF_ERR.RSVD with EVT 0x0B14. -/
def Dev.reservedWrite (d : Dev) (fn : Nat) (off : Nat) : Dev :=
  (d.satFld R.HIF_ERR F.HIF_ERR_RSVD 1).raise { code := 0x0B14, fn := fn, args := [off] }

/-- A host-range event (R6): counted in HIF_ERR.NARROW with EVT 0x0B13. -/
def Dev.hostRange (d : Dev) (fn : Nat) (off : Nat) : Dev :=
  (d.satFld R.HIF_ERR F.HIF_ERR_NARROW 1).raise { code := 0x0B13, fn := fn, args := [off] }

/-- A doorbell discarded (R303, R328): counted in HIF_ERR.BADDOOR; R303 adds EVT 0x0B13 (DEDUCED, log entry 85). -/
def Dev.badDoor (d : Dev) (fn : Nat) (off : Nat) : Dev :=
  (d.satFld R.HIF_ERR F.HIF_ERR_BADDOOR 1).raise { code := 0x0B13, fn := fn, args := [off] }

/-- A failed host access (R295): counted in HIF_ERR.ACCESS. -/
def Dev.accessFailed (d : Dev) : Dev := d.satFld R.HIF_ERR F.HIF_ERR_ACCESS 1

/-! ### Free values -/

/-- The state after one free value has been drawn. -/
def Dev.drew (d : Dev) : Dev := { d with fresh := d.fresh + 1 }

/-- Firmware running (MGT_FW_STAT.STATE, R346). -/
def Dev.fwState (d : Dev) : Nat := d.fld R.MGT_FW_STAT F.MGT_FW_STAT_STATE

/-- Firmware running. -/
def Dev.fwRuns (d : Dev) : Bool := d.fwState = 2

/-- CFG_STATE (R31). -/
def Dev.cfgState (d : Dev) : Nat := d.fld R.MGT_PERSONA F.MGT_PERSONA_CFG_STATE

/-- PERSONA (R31): 0 NONE, 1 PREFILL, 2 DECODE, 3 CACHE, 4 TRAIN. -/
def Dev.persona (d : Dev) : Nat := d.fld R.MGT_PERSONA F.MGT_PERSONA_PERSONA

/-- READY: configured, topology checked, and the firmware not failed (R323, R399, R408). -/
def Dev.ready (d : Dev) : Bool := d.boot.stage = 7 && (d.fwState = 2 || d.fwState = 3)

/-- The function a context belongs to (0xFF when there is no such context). -/
def Dev.ctxFn (d : Dev) (c : Nat) : Nat :=
  match look c d.ctxs with
  | some x => x.fn
  | none => 0xFF

/-! ### Periodic windows (R286) -/

/-- The period in ns of a kind of window: 0 the control window (R359), 1 the frequency window (R363), 2 the coolant window (R386),
3 a cluster's keep-warm step (R392). -/
def windowPeriod : Nat → Nat
  | 0 => 10000
  | _ => 1000000

/-- The window in progress. -/
def Dev.windowMark (d : Dev) (kind unit : Nat) : Nat := (look (kind, unit) d.marks).getD 0

/-- The window in progress has ended: tempo has reached a later multiple of its period (R286). -/
def Dev.windowOver (d : Dev) (kind unit : Nat) : Bool := decide (d.windowMark kind unit < d.now / windowPeriod kind)

/-- The window of the present tempo opens; windows that were skipped held nothing (R286). -/
def Dev.windowOpens (d : Dev) (kind unit : Nat) : Dev :=
  { d with marks := put (kind, unit) (d.now / windowPeriod kind) d.marks }

/-- The end of a periodic window: the row that ends it acts once the window is over (R286, log entry 93). -/
def Dev.atWindow (d : Dev) (kind unit : Nat) (f : Dev → Dev) : Dev :=
  if d.windowOver kind unit then f (d.windowOpens kind unit) else d

end Sys2Proof.Machine
end

