-- ==== Sys2Proof/Machine/Mem.lean ====
section
/-! DEFINITION. Device memory (chapter 06): the address map, extents, the check code at work on reads and writes, page
retirement, the vertical channels, evacuation; and the rows of the memory controllers. Data is held by logical address;
stored errors and retired pages by the physical place that serves the address. -/

namespace Sys2Proof.Machine

/-! ### The address map (R128, R129, R157) -/

/-- One GiB. -/
def gib : Nat := 0x40000000

/-- Bytes of device memory: 40 address bits (R128). -/
def memSize : Nat := 2 ^ 40

/-- Whether an address lies in near memory. -/
def isNear (a : Nat) : Bool := decide (a < 256 * gib)

/-- The tile whose slice holds a near address. -/
def tileOf (a : Nat) : Nat := a / gib

/-- The stack that holds a far address, and its base. -/
def stackOf (a : Nat) : Nat := (a - 256 * gib) / (48 * gib)

/-- The base of stack Fn. -/
def stackBase (n : Nat) : Nat := 256 * gib + n * (48 * gib)

/-- The controller that serves an address: the tile's channel controller, or 256 plus the stack number. -/
def ctrlOf (a : Nat) : Nat := if isNear a then tileOf a else 256 + stackOf a

/-- The COMPUTE region size C in bytes (R157). -/
def Dev.computeBytes (d : Dev) : Nat := d.fld R.PIM_CFG F.PIM_CFG_COMPUTE_GIB * gib

/-- Whether an address lies in a COMPUTE region (R157). -/
def Dev.isCompute (d : Dev) (a : Nat) : Bool :=
  !isNear a && decide (a - stackBase (stackOf a) < d.computeBytes)

/-- The tile or stack by which a record names the controller that serves an address (R155). -/
def memUnit (a : Nat) : Nat := if isNear a then tileOf a else stackOf a

/-- The region kind of an address: 0 near, 1 far PROTECTED, 2 far COMPUTE. -/
def Dev.regionKind (d : Dev) (a : Nat) : Nat := if isNear a then 0 else if d.isCompute a then 2 else 1

/-- The state of a tile's slice (R152). -/
def Dev.sliceState (d : Dev) (t : Nat) : Nat := d.fld (R.MEM_NCH_STAT t) F.MEM_NCH_STAT_STATE

/-- The physical place that serves an address: a slice that has been, or is being, evacuated is served from its frame page
by page (R153) (DEDUCED, log entry 61). -/
def Dev.phys (d : Dev) (a : Nat) : Nat :=
  if isNear a then
    match look (tileOf a) d.mem.served with
    | some fr => fr + a % gib
    | none =>
      match d.mem.evac.find? (fun e => e.tile = tileOf a) with
      | some e => if a < e.next then e.frame + a % gib else a
      | none => a
  else a

/-! ### Extents (R130) -/

/-- The end of the extent of a context that holds an address. -/
def Dev.extentEnd (d : Dev) (c a : Nat) : Option Nat :=
  (d.extents.find? (fun e => e.ctx = c && decide (e.base ≤ a) && decide (a < e.base + e.len))).map (fun e => e.base + e.len)

/-- Whether a run of addresses from `a` to `hi` lies in the extents of a context, extent after extent. -/
def Dev.coveredBy (d : Dev) (c hi : Nat) : (fuel a : Nat) → Bool
  | 0, a => decide (hi ≤ a)
  | k + 1, a => decide (hi ≤ a) || match d.extentEnd c a with
    | none => false
    | some b => d.coveredBy c hi k b

/-- Every access made for a context is checked against its extents before it reaches a controller (R130). -/
def Dev.owns (d : Dev) (c a len : Nat) : Bool := d.coveredBy c (a + len) (d.extents.length + 1) a

/-- Whether a run lies inside one extent of a context. -/
def Dev.inOneExtent (d : Dev) (c a len : Nat) : Bool :=
  d.extents.any (fun e => e.ctx = c && decide (e.base ≤ a) && decide (a + len ≤ e.base + e.len))

/-- The contexts that hold an extent over a page. -/
def Dev.pageOwners (d : Dev) (page : Nat) : List Nat :=
  ((d.extents.filter (fun e => decide (e.base ≤ page * 4096) && decide (page * 4096 < e.base + e.len))).map (·.ctx)).eraseDups

/-- The contexts that hold an extent in a slice. -/
def Dev.sliceOwners (d : Dev) (t : Nat) : List Nat :=
  ((d.extents.filter (fun e => isNear e.base && tileOf e.base = t)).map (·.ctx)).eraseDups

/-! ### The runtime defect list (R406) -/

/-- The order of the list: KIND, UNIT, INDEX (R402). -/
def defectBefore (a b : Defect) : Bool :=
  decide (a.kind < b.kind) || (a.kind = b.kind && (decide (a.unit < b.unit) || (a.unit = b.unit && decide (a.index < b.index))))

/-- Add a unit found failed in service, once, with SOURCE RUNTIME and the state in force (R406). -/
def Dev.addDefect (d : Dev) (kind unit index state : Nat) : Dev :=
  if d.boot.defects.any (fun x => x.kind = kind && x.unit = unit && x.index = index) then d
  else if 131072 ≤ d.boot.defects.length then d
  else
    { d with boot := { d.boot with
        defects := insertBy defectBefore ⟨kind, 8, unit, index, state⟩ d.boot.defects
        newRuntime := d.boot.newRuntime + 1 } }

/-! ### Retirement and evacuation (R145, R146, R152, R153) -/

/-- Whether a physical page is retired. -/
def Dev.pageRetired (d : Dev) (p : Nat) : Bool := d.mem.retired.contains (p / 4096)

/-- Whether an access to an address fails under R145: its page is retired, or its slice is LOST. -/
def Dev.accessFails (d : Dev) (a : Nat) : Bool :=
  d.pageRetired (d.phys a) || (isNear a && d.sliceState (tileOf a) = 4)

/-- Whether a GiB of a far stack can be an evacuation frame: PROTECTED, not yet taken, no retired page (R153). -/
def Dev.gibQualifies (d : Dev) (taken : List Nat) (base : Nat) : Bool :=
  !taken.contains base && decide (d.computeBytes ≤ base - stackBase (stackOf base)) &&
    !d.mem.stacksRetired.contains (stackOf base) &&
    d.mem.retired.all (fun p => !(decide (base ≤ p * 4096) && decide (p * 4096 < base + gib)))

/-- The highest qualifying GiB of a stack. -/
def Dev.frameInStack (d : Dev) (taken : List Nat) (n : Nat) : Option Nat :=
  ((List.range 48).map (fun k => stackBase n + (47 - k) * gib)).find? (d.gibQualifies taken)

/-- The next frame: from the lowest-numbered stack that has one (R153). -/
def Dev.nextFrame (d : Dev) (taken : List Nat) : Option Nat := (List.range 16).findSome? (d.frameInStack taken)

/-- The two frames (R153). -/
def Dev.chooseFrames (d : Dev) : List Nat :=
  match d.nextFrame [] with
  | none => []
  | some f0 => match d.nextFrame [f0] with
    | none => [f0]
    | some f1 => [f0, f1]

/-- The frames in force; before a configuration has chosen them, those the rule gives now (DESIGN CHOICE, log entry 12). -/
def Dev.frames (d : Dev) : List Nat := if d.mem.frames.isEmpty then d.chooseFrames else d.mem.frames

/-- Whether frame k is used. -/
def Dev.frameUsed (d : Dev) (k : Nat) : Bool :=
  if k = 0 then d.fld R.MEM_EVAC F.MEM_EVAC_FRAME0_USED = 1 else d.fld R.MEM_EVAC F.MEM_EVAC_FRAME1_USED = 1

/-- The lowest free frame. -/
def Dev.freeFrame (d : Dev) : Option Nat := lowest d.frames.length (fun k => !d.frameUsed k)

/-- Give frame k to a tile's slice in MEM_EVAC. -/
def Dev.takeFrame (d : Dev) (k t : Nat) : Dev :=
  let d := if k = 0 then (d.setFld R.MEM_EVAC F.MEM_EVAC_FRAME0_TILE t).setFld R.MEM_EVAC F.MEM_EVAC_FRAME0_USED 1
    else (d.setFld R.MEM_EVAC F.MEM_EVAC_FRAME1_TILE t).setFld R.MEM_EVAC F.MEM_EVAC_FRAME1_USED 1
  d.setFld R.MEM_EVAC F.MEM_EVAC_FRAMES_LEFT (d.fld R.MEM_EVAC F.MEM_EVAC_FRAMES_LEFT - 1)

/-- Set a slice's state. -/
def Dev.setSlice (d : Dev) (t st : Nat) : Dev := d.setFld (R.MEM_NCH_STAT t) F.MEM_NCH_STAT_STATE st

/-- The first page at or after `a` in tile t's slice that lies in an extent (R153: ascending address order). -/
def Dev.nextExtentPage (d : Dev) (t a : Nat) : Option Nat :=
  let starts := d.extents.filterMap (fun e =>
    if isNear e.base && tileOf e.base = t && decide (a < e.base + e.len) then some (max e.base a) else none)
  match starts with
  | [] => none
  | x :: r => some (r.foldl min x)

/-- Evacuation of a slice ends: the slice is RETIRED and served from its frame (R153). -/
def Dev.evacEnd (d : Dev) (e : Evac) : Dev :=
  let rest := d.mem.evac.filter (fun x => x.tile ≠ e.tile)
  let d := { d with mem := { d.mem with evac := rest, served := put e.tile e.frame d.mem.served } }
  let d := (d.setSlice e.tile 3).setFld R.MEM_EVAC F.MEM_EVAC_BUSY (b2n (!rest.isEmpty))
  let d := match rest with
    | [] => d
    | x :: _ => d.setFld R.MEM_EVAC F.MEM_EVAC_TILE x.tile
  d.raise { code := 0x0413, unit := e.tile, args := [e.frame] }

/-- A slice is retired: evacuation starts, or with no free frame the slice is LOST (R152, R153). -/
def Dev.retireSlice (d : Dev) (t : Nat) : Dev :=
  let d := d.raise { code := 0x0412, unit := t }
  match d.freeFrame with
  | none => (d.setSlice t 4).raise { code := 0x0414, unit := t, args := d.sliceOwners t }
  | some k =>
    let fr := d.frames.getD k 0
    let d := (d.takeFrame k t).setSlice t 2
    let d := if d.mem.evac.isEmpty then d.setFld R.MEM_EVAC F.MEM_EVAC_TILE t else d
    let d := d.setFld R.MEM_EVAC F.MEM_EVAC_BUSY 1
    let e : Evac := { tile := t, frame := fr, next := t * gib }
    let d := { d with mem := { d.mem with evac := d.mem.evac ++ [e] } }
    if (d.nextExtentPage t (t * gib)).isNone then d.evacEnd e else d

/-- Mark a page retired: no longer in the page engine's free lists, in the runtime defect list, EVT 0x0405 naming the
page and the contexts that hold it (R145). -/
def Dev.retirePage (d : Dev) (page owner : Nat) : Dev :=
  let d := { d with
    mem := { d.mem with retired := page :: d.mem.retired }
    kvp := { d.kvp with free := d.kvp.free.filter (fun f => f.2 / 32768 ≠ owner / 32768) } }
  let d := d.addDefect 9 0 page 1
  d.raise { code := 0x0405, unit := memUnit (page * 4096), args := [page * 4096] ++ d.pageOwners (owner / 4096) }

/-- The retirement a UE at physical address `p` (reached as address `a`) calls for (R146): a near slice holds 64 retired
pages and is itself retired at the 65th; a far stack holds 4,096 and retires no more. -/
def Dev.retireFor (d : Dev) (a p : Nat) : Dev :=
  if isNear p then
    let t := tileOf p
    let n := d.fld (R.MEM_NCH_STAT t) F.MEM_NCH_STAT_RETIRED_PAGES
    if 64 ≤ n then (if d.sliceState t < 2 then d.retireSlice t else d)
    else (d.setFld (R.MEM_NCH_STAT t) F.MEM_NCH_STAT_RETIRED_PAGES (n + 1)).retirePage (p / 4096) a
  else
    let s := stackOf p
    if d.fld (R.MEM_FMC_STAT s) F.MEM_FMC_STAT_RETIRE_FULL = 1 then d
    else
      let n := d.fld (R.MEM_FMC_STAT s) F.MEM_FMC_STAT_RETIRED_PAGES + 1
      let d := (d.setFld (R.MEM_FMC_STAT s) F.MEM_FMC_STAT_RETIRED_PAGES n).retirePage (p / 4096) a
      if n = 4096 then
        (d.setFld (R.MEM_FMC_STAT s) F.MEM_FMC_STAT_RETIRE_FULL 1).raise { code := 0x0406, unit := s }
      else d

/-! ### The vertical channel (R151, R152) -/

/-- The spare count field of a half. -/
def spareField (half : Nat) : Field := if half = 0 then F.MEM_NCH_STAT_SPARE0 else F.MEM_NCH_STAT_SPARE1

/-- The INDEX of spare s of a half (R402). -/
def spareIndex (half s : Nat) : Nat := (1152 + s) * 2 + half

/-- The lowest spare of a half that neither has failed nor carries a TSV (R131, R151) (DESIGN CHOICE, log entry 142). -/
def Dev.freeSpare (d : Dev) (t half : Nat) : Option Nat :=
  (lowest 32 (fun s => !d.mem.tsvDead.contains (t, spareIndex half s) &&
    d.mem.tsvSpare.all (fun e => !(e.1.1 = t && e.2 = spareIndex half s)))).map (spareIndex half)

/-- What a failed TSV of a half does to the channel (R152) (DEDUCED, log entry 107): a spare takes its place, the half goes down, or
the slice is retired. -/
def Dev.channelLoses (d : Dev) (t half idx : Nat) : Dev :=
  let st := d.sliceState t
  let spares := d.fld (R.MEM_NCH_STAT t) (spareField half)
  if st = 0 || (st = 1 && d.fld (R.MEM_NCH_STAT t) F.MEM_NCH_STAT_DOWN_HALF ≠ half) then
    match d.freeSpare t half with
    | some s =>
      let d := { d with mem := { d.mem with tsvSpare := put (t, idx) s d.mem.tsvSpare } }
      (d.setFld (R.MEM_NCH_STAT t) (spareField half) (spares - 1)).raise { code := 0x0410, unit := t, args := [half] }
    | none =>
      if st = 0 then
        ((d.setSlice t 1).setFld (R.MEM_NCH_STAT t) F.MEM_NCH_STAT_DOWN_HALF half).raise
          { code := 0x0411, unit := t, args := [half] }
      else d.retireSlice t
  else d

/-- A TSV declared failed: counted, in the defect list, and acted on (R151, R152). A failed spare is struck from the count; one in use
leaves the TSV that it carried without a carrier again. `idx` is the INDEX of R402: half in bit 0, TSV above it. -/
def Dev.tsvFailed (d : Dev) (t idx : Nat) : Dev :=
  if d.mem.tsvDead.contains (t, idx) then d
  else
    let half := idx % 2
    let spare := decide (1152 ≤ idx / 2)
    let carried := d.mem.tsvSpare.find? (fun e => e.1.1 = t && e.2 = idx)
    let left := d.fld (R.MEM_NCH_STAT t) (spareField half)
    let d := { d with mem := { d.mem with tsvDead := (t, idx) :: d.mem.tsvDead } }
    let d := d.satFld (R.MEM_NCH_ERR t) F.MEM_NCH_ERR_TSV_FAILS 1
    let d := d.addDefect 4 t idx (if spare || 0 < left then 0 else 3)
    match carried with
    | some e => ({ d with mem := { d.mem with tsvSpare := drop1 e.1 d.mem.tsvSpare } } : Dev).channelLoses t half e.1.2
    | none => if spare then d.setFld (R.MEM_NCH_STAT t) (spareField half) (left - 1) else d.channelLoses t half idx

/-- The bit of a symbol error that has just one bit. -/
def oneBit (v : Byte) : Option Nat := lowest 8 (fun i => v.toNat = 2 ^ i)

/-- The INDEX of the TSV that carries bit `b` of symbol `pos` of the granule at a near address (R131, R151; the numbering
inside a half is the model's, DESIGN CHOICE, log entry 13): its spare's where one has taken its place. -/
def Dev.tsvOf (d : Dev) (a pos b : Nat) : Nat :=
  let t := tileOf a
  let half := if d.sliceState t = 1 then 1 - d.fld (R.MEM_NCH_STAT t) F.MEM_NCH_STAT_DOWN_HALF else a / 128 % 2
  let g := a / 64 % 2
  let n := if 8 ≤ pos then g * 512 + (pos - 8) * 8 + b else 1024 + g * 64 + pos * 8 + b
  let idx := n * 2 + half
  (look (t, idx) d.mem.tsvSpare).getD idx

/-! ### Corrected errors (R141, R142, R151, R155) -/

/-- Times within the half-open window of 1 ms that ends now. -/
def recent (now : Nat) (ts : List Nat) : List Nat := ts.filter (fun t => decide (now < t + 1000000))

/-- A corrected error counts towards a burst of 256 in 1 ms at its controller (R155). -/
def Dev.ceBurst (d : Dev) (ctrl : Nat) : Dev :=
  let ts := d.now :: recent d.now ((look ctrl d.mem.ceTimes).getD [])
  if 256 ≤ ts.length then
    ({ d with mem := { d.mem with ceTimes := put ctrl [] d.mem.ceTimes } } : Dev).raise
      { code := 0x0401, unit := if ctrl < 256 then ctrl else ctrl - 256, args := [ctrl] }
  else { d with mem := { d.mem with ceTimes := put ctrl ts d.mem.ceTimes } }

/-- A corrected error in one symbol bit of a near granule counts towards the 8 in 1 ms that declare its TSV failed (R151). -/
def Dev.ceTsv (d : Dev) (p pos : Nat) (v : Byte) : Dev :=
  match oneBit v with
  | none => d
  | some b =>
    let t := tileOf p
    let idx := d.tsvOf p pos b
    let ts := d.now :: recent d.now ((look (t, idx) d.mem.tsvCe).getD [])
    let d := { d with mem := { d.mem with tsvCe := put (t, idx) (if 8 ≤ ts.length then [] else ts) d.mem.tsvCe } }
    if 8 ≤ ts.length then d.tsvFailed t idx else d

/-- A corrected error on a far granule may show that its pin has failed: defect list, FAILED_PINS, EVT 0x0415 once for the
pin (R137). Whether it shows it is a free value (DESIGN CHOICE, log entry 32). -/
def Dev.cePin (d : Dev) (p pos : Nat) (v : Byte) : Dev :=
  if v = 0 then d
  else
  let n := stackOf p
  let pin := if 8 ≤ pos then pos - 8 else 64 + pos
  let idx := (p - stackBase n) / 64 % 32 + pin * 32
  let diagnosed := Config.pinDiagnosed d.fresh
  let d := d.drew
  if diagnosed && !d.mem.pinsFailed.contains (n, idx) then
    let d := { d with mem := { d.mem with pinsFailed := (n, idx) :: d.mem.pinsFailed } }
    let d := (d.satFld (R.MEM_FMC_STAT n) F.MEM_FMC_STAT_FAILED_PINS 1).addDefect 8 n idx 3
    d.raise { code := 0x0415, unit := n, args := [idx] }
  else d

/-- Count a corrected error at a physical address (R141). -/
def Dev.countCe (d : Dev) (p pos : Nat) (v : Byte) : Dev :=
  let d := if isNear p then d.satFld (R.MEM_NCH_ERR (tileOf p)) F.MEM_NCH_ERR_CE_COUNT 1
    else d.satFld (R.MEM_FMC_ERR (stackOf p)) F.MEM_FMC_ERR_CE_COUNT 1
  let d := d.ceBurst (ctrlOf p)
  if isNear p then d.ceTsv p pos v else d.cePin p pos v

/-- The wrong symbols stored in the granule at a physical address. -/
def Dev.storedErr (d : Dev) (p : Nat) : Wrong :=
  (d.mem.err.filter (fun e => e.1 / 128 = p / 64)).map (fun e => (e.1 % 128, e.2))

/-- The symbol that each failed pin of a far granule's pseudo-channel corrupts in every granule (R137): which wrong value it puts there
no rule says, a free value that is not 0 (DESIGN CHOICE, log entry 143). -/
def Dev.pinErr (d : Dev) (p : Nat) : Wrong :=
  if isNear p then []
  else
    (d.mem.pinsFailed.filter (fun e => e.1 = stackOf p && e.2 % 32 = p / 64 % 32)).map (fun e =>
      let pin := e.2 / 32
      let v := Config.pinWrong e.1 e.2 (p / 64)
      (if pin < 64 then pin + 8 else pin - 64, if v = 0 then 1 else v))

/-- The wrong symbols that a read of the granule at a physical address meets: those stored and those of failed pins. -/
def Dev.seenErr (d : Dev) (p : Nat) : Wrong := wrongAdd (d.storedErr p) (d.pinErr p)

/-- The check bytes that the device stores with a granule: the covered address is its device physical address; a COMPUTE region has
none (R139, R140, R158). -/
def Dev.storedCheck (d : Dev) (a : Nat) : List Byte :=
  let p := d.phys a / 64 * 64
  if d.isCompute a then [] else checkBytes (readCells d.mem.cells (a / 64 * 64) 64) p

/-- The check bytes of a granule of tile SRAM: the covered address is tile × 2^23 + offset (R140). -/
def sramCheck (t off : Nat) (data : List Byte) : List Byte := checkBytes data (t * 2 ^ 23 + off)

/-- The granule's stored errors are gone, and no write-back waits for it. -/
def Dev.granuleMended (d : Dev) (p : Nat) : Dev :=
  { d with mem := { d.mem with
      err := canonClear (p / 64 * 128) (p / 64 * 128 + 128) d.mem.err
      wbPend := d.mem.wbPend.filter (· ≠ p / 64) } }

/-- A corrected granule waits for its write-back (R142). -/
def Dev.wbQueue (d : Dev) (p : Nat) : Dev :=
  if d.mem.wbPend.contains (p / 64) then d else { d with mem := { d.mem with wbPend := p / 64 :: d.mem.wbPend } }

/-! ### Uncorrectable errors (R143, R145) -/

/-- The context that consumes an access and its function, as the event record names them; the scrubber consumes nothing. -/
structure Access where
  ctx : Nat := 0
  scrub : Bool := false
  deriving DecidableEq, Repr

/-- The event of an access: it names the controller, the address and the context. -/
def Dev.memEvent (d : Dev) (w : Access) (code a : Nat) : Ev :=
  { code := code, fault := !w.scrub, fn := if w.scrub then 0xFF else d.ctxFn w.ctx, ctx := if w.scrub then 0xFFFF else w.ctx,
    unit := memUnit a, args := [a] }

/-- MEM_LAST_UE (R143, R145). -/
def Dev.lastUe (d : Dev) (w : Access) (a : Nat) (addrErr retired : Bool) : Dev :=
  let r := fieldPut 0 F.MEM_LAST_UE_ADDR (a / 64 * 64)
  let r := fieldPut r F.MEM_LAST_UE_ADDR_ERR (b2n addrErr)
  let r := fieldPut r F.MEM_LAST_UE_SCRUB (b2n (w.scrub && !retired))
  let r := fieldPut r F.MEM_LAST_UE_CTX (if w.scrub then 0 else w.ctx)
  d.setReg R.MEM_LAST_UE (fieldPut r F.MEM_LAST_UE_RETIRED (b2n retired))

/-- An access to a retired page or a LOST slice fails (R145). -/
def Dev.retiredAccess (d : Dev) (w : Access) (a : Nat) : Dev :=
  (d.lastUe w a false true).raise (d.memEvent w 0x0407 a)

/-- A UE or an address error confirmed by the retry (R143). -/
def Dev.ueAt (d : Dev) (w : Access) (a p : Nat) (addrErr : Bool) : Dev :=
  let d := if isNear p then d.satFld (R.MEM_NCH_ERR (tileOf p)) F.MEM_NCH_ERR_UE_COUNT 1
    else d.satFld (R.MEM_FMC_ERR (stackOf p)) F.MEM_FMC_ERR_UE_COUNT 1
  let d := if addrErr then
      (if isNear p then d.satFld (R.MEM_NCH_ERR (tileOf p)) F.MEM_NCH_ERR_ADDR_ERR 1
        else d.satFld (R.MEM_FMC_ERR (stackOf p)) F.MEM_FMC_ERR_ADDR_ERR 1) else d
  let d := d.lastUe w a addrErr false
  let d := d.raise (d.memEvent w (if addrErr then 0x0404 else if w.scrub then 0x0403 else 0x0402) a)
  d.retireFor a p

/-! ### Requests that meet an in-stack sequence (R167) -/

/-- A stack's in-stack side with nothing accepted. -/
def PimStack.blank : PimStack :=
  { cmds := [], seqs := [], window := 0, spent := 0, clean := 0, throttled := false, deferred := false, postponed := [],
    held := [] }

/-- The in-stack side of stack n. -/
def Dev.pimStack (d : Dev) (n : Nat) : PimStack := (look n d.pim).getD PimStack.blank

/-- Change the in-stack side of a stack. -/
def Dev.updPim (d : Dev) (n : Nat) (f : PimStack → PimStack) : Dev := { d with pim := put n (f (d.pimStack n)) d.pim }

/-- The lane of a far address: offset bits [12:6] (R156). -/
def laneOf (a : Nat) : Nat := bits (a - stackBase (stackOf a)) 12 6

/-- Whether a sequence is running on the lane of the far place that serves an address (R167). -/
def Dev.laneBusy (d : Dev) (a : Nat) : Bool :=
  let p := d.phys a
  !isNear p && (d.pimStack (stackOf p)).seqs.any (fun x => x.lane = laneOf p)

/-- How many numbers below x leave the remainder l modulo 128. -/
def laneGranules (l x : Nat) : Nat := (x + 127 - l) / 128

/-- The granules of a run that a sequence holds wait until it ends: they are counted, and their wait is timed (R167). Their data is the
same before and after, and is taken here (DESIGN CHOICE, log entry 144). -/
def Dev.holdRun (d : Dev) (a len : Nat) : Dev :=
  let p := d.phys a
  if isNear p then d
  else
    let n := stackOf p
    let lo := (p - stackBase n) / 64
    let hi := (p - stackBase n + len - 1) / 64 + 1
    let hit := (d.pimStack n).seqs.filterMap (fun s =>
      let c := laneGranules s.lane hi - laneGranules s.lane lo
      if 0 < c then some (s.lane, c) else none)
    if hit.isEmpty then d
    else
      (d.updPim n (fun x => { x with held := x.held ++ hit.map (fun e => (e.1, d.now, .run)) })).satFld (R.PIM_STK_HOLD n)
        F.PIM_STK_HOLD_HELD (hit.foldl (fun m e => m + e.2) 0)

/-- What a granule read answers: clean data, corrected data, or none. -/
inductive GRead where
  | clean
  | mended
  | fail
  deriving DecidableEq, Repr

/-- One granule read. The read meets the stored wrong symbols and those of the way,
`err` at the first read and `retry` at the second (R141 to R143, R145, R158). -/
def Dev.granuleRead (d : Dev) (w : Access) (a : Nat) (err retry : Wrong) : Dev × GRead :=
  let a := a / 64 * 64
  if d.accessFails a then (d.retiredAccess w a, .fail)
  else if d.isCompute a then (d, .clean)
  else
    let p := d.phys a
    let d := if d.mem.wbPend.contains (p / 64) then d.granuleMended p else d
    match decodeWord (wrongAdd (d.seenErr p) err) with
    | .clean => (d, .clean)
    | .corrected pos v => ((d.countCe p pos v).wbQueue p, .mended)
    | _ =>
      match decodeWord (wrongAdd (d.seenErr p) retry) with
      | .clean => (d.countCe p 0 0, .mended)
      | .corrected pos v => ((d.countCe p pos v).wbQueue p, .mended)
      | .addrErr => (d.ueAt w a p true, .fail)
      | .ue => (d.ueAt w a p false, .fail)

/-- The granules of a run that need more than their data: those with a stored error, and one in each retired page or LOST
slice. -/
def Dev.special (d : Dev) (lo hi : Nat) : List Nat :=
  let back : Nat → List Nat := fun p =>
    (if isNear p then [p] else
      let byFrame := d.mem.served.filterMap (fun e =>
        if decide (e.2 ≤ p) && decide (p < e.2 + gib) then some (e.1 * gib + (p - e.2)) else none)
      let byEvac := d.mem.evac.filterMap (fun e =>
        if decide (e.frame ≤ p) && decide (p < e.frame + gib) then some (e.tile * gib + (p - e.frame)) else none)
      p :: (byFrame ++ byEvac))
  let errs := (d.mem.err.map (fun e => e.1 / 128 * 64)).eraseDups.flatMap back
  let pages := (d.mem.retired.map (· * 4096)).flatMap back
  let errs := errs.filter (fun g => decide (lo / 64 * 64 ≤ g) && decide (g < hi))
  let pages := pages.filterMap (fun g =>
    if decide (lo / 64 * 64 < g + 4096) && decide (g < hi) then some (max g (lo / 64 * 64)) else none)
  let slices := (List.range (min 256 ((hi + gib - 1) / gib) - lo / gib)).map (fun k => lo / gib + k)
  let lost := (slices.filter (fun t => d.sliceState t = 4)).map (fun t => max (t * gib) (lo / 64 * 64))
  sortBy (fun x y => decide (x < y)) (errs ++ pages ++ lost).eraseDups

/-- The granules of a run whose pseudo-channel has a failed pin. -/
def Dev.pinGranules (d : Dev) (lo hi : Nat) : List Nat :=
  (d.mem.pinsFailed.map (fun e => e.2 % 32)).eraseDups.flatMap (fun pc =>
    let first := lo / 64 + (pc + 32 - lo / 64 % 32) % 32
    ((List.range ((hi + 2047 - first * 64) / 2048)).map (fun k => (first + 32 * k) * 64)).filter (fun g =>
      decide (g < hi) && !(d.pinErr (d.phys g)).isEmpty))

/-- The granules of a run that a read has to look at. -/
def Dev.readSpecial (d : Dev) (lo hi : Nat) : List Nat :=
  if d.mem.pinsFailed.isEmpty then d.special lo hi
  else sortBy (fun x y => decide (x < y)) (d.special lo hi ++ d.pinGranules lo hi).eraseDups

/-- The granules of a run that a write has to look at: it reads only the first and the last, where it covers them in part (R144). -/
def Dev.writeSpecial (d : Dev) (lo hi : Nat) : List Nat :=
  if d.mem.pinsFailed.isEmpty then d.special lo hi
  else sortBy (fun x y => decide (x < y)) (d.special lo hi ++
    [lo / 64 * 64, (hi - 1) / 64 * 64].filter (fun g => !(d.pinErr (d.phys g)).isEmpty)).eraseDups

/-- Read the special granules of a run in address order until one fails. -/
def Dev.readGranules (d : Dev) (w : Access) : List Nat → Dev × Option Nat
  | [] => (d, none)
  | g :: r =>
    match d.granuleRead w g [] [] with
    | (d, .fail) => (d, some g)
    | (d, _) => d.readGranules w r

/-- A run of bytes as stored, without the checks. -/
def Dev.memBytes (d : Dev) (a len : Nat) : List Byte := readCells d.mem.cells a len

/-- A number of `len` bytes as stored. -/
def Dev.memNat (d : Dev) (a len : Nat) : Nat := leNat (d.memBytes a len)

/-- A read of a run for a consumer: the address of the first granule that fails, if one does (R143). -/
def Dev.memCheckRead (d : Dev) (w : Access) (a len : Nat) : Dev × Option Nat :=
  if len = 0 then (d, none)
  else
    let d := d.holdRun a len
    d.readGranules w (d.readSpecial a (a + len))

/-! ### Writes (R144, R158) -/

/-- Read a run granule by granule: every granule that fails, not only the first. -/
def Dev.memFails (d : Dev) (w : Access) (a len : Nat) : Dev × List Nat :=
  if len = 0 then (d, [])
  else
    let d := d.holdRun a len
    (d.readSpecial a (a + len)).foldl (fun acc g =>
      match acc.1.granuleRead w g [] [] with
      | (d, .fail) => (d, acc.2 ++ [g])
      | (d, _) => (d, acc.2)) (d, [])

/-- The write of a run touches one granule: whole, it mends it; in part, it reads it first (R144); a write to a retired
page fails (R145). -/
def Dev.granuleWrite (d : Dev) (w : Access) (a len g : Nat) : Dev × Bool :=
  if d.accessFails g then (d.retiredAccess w g, false)
  else if d.isCompute g then (d, true)
  else if decide (a ≤ g) && decide (g + 64 ≤ a + len) then (d.granuleMended (d.phys g), true)
  else
    match d.granuleRead w g [] [] with
    | (d, .fail) => (d, false)
    | (d, _) => (d.granuleMended (d.phys g), true)

/-- The special granules of a written run in address order until one fails. -/
def Dev.writeGranules (d : Dev) (w : Access) (a len : Nat) : List Nat → Dev × Option Nat
  | [] => (d, none)
  | g :: r =>
    match d.granuleWrite w a len g with
    | (d, true) => d.writeGranules w a len r
    | (d, false) => (d, some g)

/-- Put bytes into device memory, without the checks. -/
def Dev.poke (d : Dev) (a : Nat) (bs : List Byte) : Dev :=
  { d with mem := { d.mem with cells := writeCells d.mem.cells a bs } }

/-- A write of a run: the bytes before the first failing granule are written (R144, R145); the address of that granule. -/
def Dev.memWriteRun (d : Dev) (w : Access) (a : Nat) (bs : List Byte) : Dev × Option Nat :=
  if bs.isEmpty then (d, none)
  else
    let d := d.holdRun a bs.length
    match d.writeGranules w a bs.length (d.writeSpecial a (a + bs.length)) with
    | (d, none) => (d.poke a bs, none)
    | (d, some g) => (d.poke a (bs.take (g - a)), some g)

/-- Zero a run with correct check bits (R130, R29). -/
def Dev.memZero (d : Dev) (a len : Nat) : Dev :=
  let special := (d.special a (a + len)).filter (fun g => !d.accessFails g)
  let d := special.foldl (fun d g => d.granuleMended (d.phys g)) d
  { d with mem := { d.mem with cells := canonClear a (a + len) d.mem.cells } }

/-- Copy a run inside device memory without the checks. -/
def Dev.memMove (d : Dev) (src len dst : Nat) : Dev :=
  { d with mem := { d.mem with cells := copyCells d.mem.cells src len d.mem.cells dst } }

/-! ### Scrubbing (R147 to R149) -/

/-- The bounds of what a controller scrubs: first offset and end. -/
def Dev.scrubBounds (d : Dev) (ctrl : Nat) : Nat × Nat :=
  if ctrl < 256 then (0, gib) else (d.computeBytes, 48 * gib)

/-- The base address of what a controller serves. -/
def ctrlBase (ctrl : Nat) : Nat := if ctrl < 256 then ctrl * gib else stackBase (ctrl - 256)

/-- Where a controller scrubs next. -/
def Dev.scrubPos (d : Dev) (ctrl : Nat) : Nat :=
  if ctrl < 256 then (look ctrl d.mem.scrubNear).getD 0 else d.fld (R.MEM_FMC_SCRUB (ctrl - 256)) F.MEM_FMC_SCRUB_POS

/-- The next offset from `o` that lies in no retired page. -/
def Dev.skipRetired (d : Dev) (base : Nat) : (fuel o : Nat) → Nat
  | 0, o => o
  | k + 1, o => if d.pageRetired (base + o) then d.skipRetired base k (o / 4096 * 4096 + 4096) else o

/-- Set where a controller scrubs next. -/
def Dev.setScrubPos (d : Dev) (ctrl o : Nat) : Dev :=
  if ctrl < 256 then { d with mem := { d.mem with scrubNear := put ctrl o d.mem.scrubNear } }
  else d.setFld (R.MEM_FMC_SCRUB (ctrl - 256)) F.MEM_FMC_SCRUB_POS o

/-- The sweep number of a controller. -/
def Dev.sweeps (d : Dev) (ctrl : Nat) : Nat :=
  if ctrl < 256 then d.fld (R.MEM_NCH_STAT ctrl) F.MEM_NCH_STAT_SWEEPS
  else d.fld (R.MEM_FMC_STAT (ctrl - 256)) F.MEM_FMC_STAT_SWEEPS

/-- A sweep ends: SWEEPS counts, and one that took more than 110% of PERIOD raises EVT 0x0430 (R148). -/
def Dev.sweepEnd (d : Dev) (ctrl : Nat) : Dev :=
  let start := (look ctrl d.mem.sweepStart).getD 0
  let period := d.fld R.MEM_SCRUB_CFG F.MEM_SCRUB_CFG_PERIOD * 60000000000
  let d := if ctrl < 256 then d.wrapFld (R.MEM_NCH_STAT ctrl) F.MEM_NCH_STAT_SWEEPS 1
    else d.wrapFld (R.MEM_FMC_STAT (ctrl - 256)) F.MEM_FMC_STAT_SWEEPS 1
  let d := { d with mem := { d.mem with sweepStart := put ctrl d.now d.mem.sweepStart } }
  if period * 11 < (d.now - start) * 10 then
    d.raise { code := 0x0430, unit := if ctrl < 256 then ctrl else ctrl - 256, args := [ctrl] }
  else d

/-- The row of an address as the defect list names it: kind, unit, index (R402). -/
def rowOf (p : Nat) : Nat × Nat × Nat :=
  if isNear p then
    let o := p % gib
    (5, tileOf p, bits o 9 8 + bits o 13 10 * 4 + bits o 29 18 * 64)
  else
    let o := p - stackBase (stackOf p)
    (7, stackOf p, bits o 35 32 + bits o 10 6 * 16 + bits o 12 11 * 512 + bits o 14 13 * 2048 + bits o 31 19 * 8192)

/-- A corrected error found by a scrub marks its row; the third sweep in a row queues the row for repair (R149). -/
def Dev.markRow (d : Dev) (ctrl p : Nat) : Dev :=
  let (kind, unit, index) := rowOf p
  let s := d.sweeps ctrl
  let key := (ctrl, index)
  let cnt := match look key d.mem.rowMarks with
    | none => 1
    | some (last, c) => if last = s then c else if last + 1 = s then c + 1 else 1
  let seen := match look key d.mem.rowMarks with
    | none => false
    | some (last, _) => last = s
  let d := { d with mem := { d.mem with rowMarks := put key (s, cnt) d.mem.rowMarks } }
  if cnt = 3 && !seen then
    (d.addDefect kind unit index 0).raise { code := 0x0431, unit := unit, args := [p] }
  else d

/-- One scrub of a controller (R147). -/
def Dev.scrubOne (d : Dev) (ctrl : Nat) (err retry : Wrong) : Dev :=
  let (lo, hi) := d.scrubBounds ctrl
  let base := ctrlBase ctrl
  let o := d.skipRetired base (d.mem.retired.length + 1) (max lo (d.scrubPos ctrl))
  if hi ≤ lo || (ctrl < 256 && 3 ≤ d.sliceState ctrl) then d
  else
    let d := if decide (hi ≤ o) || d.phys (base + o) ≠ base + o then d
      else
        let a := base + o
        match d.granuleRead { scrub := true } a err retry with
        | (d, .mended) => (d.markRow ctrl a).granuleMended a
        | (d, _) => d
    let next := o / 64 * 64 + 64
    if hi ≤ next then (d.setScrubPos ctrl lo).sweepEnd ctrl else d.setScrubPos ctrl next

/-! ### The rows of the memory controllers -/

/-- CE_WRITEBACK: the controller writes a corrected granule back (R142). -/
def execCeWriteback (addr : Nat) (s : State) : Out :=
  onUnit "granule" memSize addr s (fun d =>
    let p := d.phys addr
    if d.mem.wbPend.contains (p / 64) then d.granuleMended p else d)

/-- REFRESH_BOUNDARY: at each ×1 refresh slot the channel controller tests every TSV of both halves; a TSV that fails two
tests in a row is declared failed (R151, R152); a channel told to switch to LAYER clocking does so (R133) (DESIGN CHOICE,
log entry 60). -/
def execRefreshBoundary (tile : Nat) (fails : List Nat) (s : State) : Out :=
  onUnit "tile" 256 tile s (fun d =>
    let d := if d.mem.clkPend && !d.mem.switched.contains tile then
        { d with mem := { d.mem with switched := tile :: d.mem.switched } } else d
    if 3 ≤ d.sliceState tile then d
    else
      let fails := (fails.filter (fun i => decide (i / 2 < 1184))).eraseDups
      let twice := fails.filter (fun i => d.mem.tsvFail.contains (tile, i))
      let d := { d with mem := { d.mem with
        tsvFail := d.mem.tsvFail.filter (fun e => e.1 ≠ tile) ++ fails.map (fun i => (tile, i)) } }
      twice.foldl (fun d i => d.tsvFailed tile i) d)

/-- CLK_FALLBACK: all channels that serve their slice have completed the switch to LAYER mode (R133); the record names the tile whose
layer called for it (R155). -/
def execClkFallback (s : State) : Out :=
  onDev s (fun d =>
    if d.mem.clkPend && (List.range 256).all (fun t => decide (3 ≤ d.sliceState t) || d.mem.switched.contains t) then
      let d := { d with mem := { d.mem with clkPend := false, switched := [] } }
      let d := (d.setFld R.MEM_CFG F.MEM_CFG_CLK_FALLBACK 1).setFld R.MEM_CFG F.MEM_CFG_NM_CLOCK 1
      d.raise { code := 0x0420, unit := d.mem.clkTile }
    else d)

/-- EVAC_PAGE_COPY: the page engine copies the next extent page of the slice being evacuated into its frame; a page whose
read meets a UE is not copied and is retired at its frame address (R153). -/
def execEvacPageCopy (s : State) : Out :=
  onDev s (fun d =>
    match d.mem.evac with
    | [] => d
    | e :: _ =>
      match d.nextExtentPage e.tile e.next with
      | none => d.evacEnd e
      | some a =>
        let (d, bad) := d.memCheckRead { ctx := (d.pageOwners (a / 4096)).headD 0 } a 4096
        let e := { e with next := a + 4096 }
        let d := { d with mem := { d.mem with evac := d.mem.evac.map (fun x : Evac => if x.tile = e.tile then e else x) } }
        let d := if bad.isSome then d.retireFor a (e.frame + a % gib) else d
        if (d.nextExtentPage e.tile e.next).isNone then d.evacEnd e else d)

/-- Hold a request until the sequence on its lane ends. -/
def Dev.holdReq (d : Dev) (a : Nat) (r : HeldReq) : Dev :=
  let p := d.phys a
  let n := stackOf p
  (d.updPim n (fun x => { x with held := x.held ++ [(laneOf p, d.now, r)] })).satFld (R.PIM_STK_HOLD n) F.PIM_STK_HOLD_HELD 1

/-- The address that a controller scrubs next. -/
def Dev.scrubAddr (d : Dev) (ctrl : Nat) : Nat :=
  let base := ctrlBase ctrl
  base + d.skipRetired base (d.mem.retired.length + 1) (max (d.scrubBounds ctrl).1 (d.scrubPos ctrl))

/-- SCRUB: a controller scrubs its next PROTECTED granule (R147 to R149); behind a sequence it is held (R167). -/
def execScrub (ctrl : Nat) (err retry : List (Nat × Byte)) (s : State) : Out :=
  onUnit "controller" 272 ctrl s (fun d =>
    let a := d.scrubAddr ctrl
    if decide (256 ≤ ctrl) && decide (stackOf a = ctrl - 256) && d.laneBusy a then d.holdReq a (.scrub err retry)
    else d.scrubOne ctrl err retry)

end Sys2Proof.Machine
end

