-- ==== Sys2Proof/Machine/Route.lean ====
section
/-! DEFINITION. Ways through the on-die network (R106, R109 to R112, R115, R116, R118, R125): where routers stand, the router a packet
makes for, its turn, the links it crosses, the walk of a multicast packet, and the order in which packets arrive. A router is
named as in NOC_LINK_ERR.NODE: a tile number, or 256 plus an edge index. -/

namespace Sys2Proof.Machine

/-! ### Places (R18, R106) -/

/-- The file index of a tile, 0 to 15. -/
def fileOf (t : Nat) : Nat := 4 * (t / 16 % 4) + t % 16 % 4

/-- The rank of a tile less 1, 0 to 15. -/
def rankOf (t : Nat) : Nat := 4 * (t / 16 / 4) + t % 16 / 4

/-- The tile at a file index and a rank less 1. -/
def tileAt (f r : Nat) : Nat := (r / 4 * 4 + f / 4) * 16 + (r % 4 * 4 + f % 4)

/-- The tile next to edge router e (R106). -/
def edgeTile (e : Nat) : Nat :=
  match e / 16 with
  | 0 => tileAt (e % 16) 0
  | 1 => tileAt 15 (e % 16)
  | 2 => tileAt (e % 16) 15
  | _ => tileAt 0 (e % 16)

/-- The tile of a router: its own, or the one next to an edge router. -/
def routerTile (n : Nat) : Nat := if n < 256 then n else edgeTile (n - 256)

/-- The column of a router: files are 1 to 16, the west edge is 0 and the east edge 17. -/
def routerX (n : Nat) : Nat :=
  if n < 256 then fileOf n + 1
  else match (n - 256) / 16 with | 1 => 17 | 3 => 0 | _ => (n - 256) % 16 + 1

/-- The row of a router: ranks are 1 to 16, the south edge is 0 and the north edge 17. -/
def routerY (n : Nat) : Nat :=
  if n < 256 then rankOf n + 1
  else match (n - 256) / 16 with | 0 => 0 | 2 => 17 | _ => (n - 256) % 16 + 1

/-- The router at a column and a row. -/
def routerAt (x y : Nat) : Nat :=
  if y = 0 then 255 + x else if x = 17 then 271 + y else if y = 17 then 287 + x else if x = 0 then 303 + y else tileAt (x - 1) (y - 1)

/-- The number by which records name a router: its tile number, or its edge index (R106, R127). -/
def routerUnit (n : Nat) : Nat := if n < 256 then n else n - 256

/-- The service point of a tile's cluster: its tile-in-cluster 5 (R111). -/
def servicePoint (t : Nat) : Nat := t / 16 * 16 + 5

/-! ### Striping (R112) -/

/-- The first of a window of four: s = min(max(i − 1, 0), 12). -/
def windowBase (i : Nat) : Nat := min (i - 1) 12

/-- The edge index of router `c` of the window of Bamat port k. -/
def portStripe (k c : Nat) : Nat := if k < 16 then 48 + windowBase k + c else 16 + windowBase (k - 16) + c

/-- The edge index of router `c` of the window of far-memory controller n. -/
def fmcStripe (n c : Nat) : Nat := if n < 8 then windowBase (2 * n) + c else 32 + windowBase (2 * (n - 8)) + c

/-- The edge index of router `c` of the window of the host interface: Sa, Sb, W1, W2 in ascending edge index. -/
def hostStripe (c : Nat) : Nat := ([0, 1, 48, 49] : List Nat).getD c 0

/-- The stripe router of an external endpoint for a packet that goes out to it. -/
def stripeOut (p : NocPkt) : Nat :=
  if p.dst < 272 then 256 + fmcStripe (p.dst - 256) (bits p.addr 11 10)
  else if p.dst < 304 then 256 + portStripe (p.dst - 272) ((p.src + p.job + p.tag) % 4)
  else 256 + hostStripe (bits p.addr 11 10)

/-- Whether a destination is an external endpoint: a controller, a port or the host. -/
def isExternal (dst : Nat) : Bool := decide (256 ≤ dst) && decide (dst ≤ 304)

/-- The router by which a packet enters the mesh: its source tile's, or the edge router its external source sends it in by (R111,
R112); a base-die agent's packets start at the service point of the destination's cluster (DESIGN CHOICE, log entry 58). -/
def entryRouter (p : NocPkt) : Nat :=
  if p.src < 256 then p.src
  else if p.src < 272 then 256 + fmcStripe (p.src - 256) (bits p.addr 11 10)
  else if p.src < 304 then 256 + portStripe (p.src - 272) ((p.dst + p.tag) % 4)
  else if p.src = 304 then 256 + hostStripe (bits p.addr 11 10)
  else servicePoint (if p.dst < 256 then p.dst else if isExternal p.dst then routerTile (stripeOut p) else 0)

/-- The router at which a packet starts: one that enters by an edge router starts at the tile next to it (R111). -/
def startRouter (p : NocPkt) : Nat := routerTile (entryRouter p)

/-- The target router of a packet (R111). -/
def targetRouter (p : NocPkt) : Nat :=
  if p.dst < 256 then p.dst
  else if isExternal p.dst then stripeOut p
  else servicePoint (startRouter p)

/-- Whether a packet travels north–south first: its target is an east or west edge router (R111). -/
def northSouthFirst (target : Nat) : Bool :=
  decide (256 ≤ target) && ((target - 256) / 16 = 1 || (target - 256) / 16 = 3)

/-- The turn router of a packet (R118): the target's file and the source's rank, or the other way where it travels north–south first;
its source router when it starts in the target's file or rank. -/
def turnRouter (p : NocPkt) : Nat :=
  let s := startRouter p
  let t := targetRouter p
  if northSouthFirst t then routerAt (routerX s) (routerY t) else routerAt (routerX t) (routerY s)

/-! ### Links (R111, R125) -/

/-- The numbers from a, not included, to b. -/
def span (a b : Nat) : List Nat :=
  if a ≤ b then (List.range (b - a)).map (fun i => a + 1 + i) else (List.range (a - b)).map (fun i => a - 1 - i)

/-- The routers from one tile router to a target, in the order of R111. -/
def routersTo (s t : Nat) : List Nat :=
  let row : Nat → List Nat := fun y => (span (routerX s) (routerX t)).map (fun x => routerAt x y)
  let column : Nat → List Nat := fun x => (span (routerY s) (routerY t)).map (fun y => routerAt x y)
  if northSouthFirst t then s :: (column (routerX s) ++ row (routerY t)) else s :: (row (routerY s) ++ column (routerX t))

/-- The port by which router a sends to its neighbour b, as NOC_LINK_ERR.DIR names it. -/
def linkDir (a b : Nat) : Nat :=
  if 256 ≤ a then 4
  else if routerY a < routerY b then 0 else if routerX a < routerX b then 1 else if routerY b < routerY a then 2 else 3

/-- The neighbour of a router at a port (R106): tile routers have north, east, south and west, an edge router has the tile next to it. -/
def neighbour (a dir : Nat) : Nat :=
  if 256 ≤ a then edgeTile (a - 256)
  else
    match dir with
    | 0 => routerAt (routerX a) (routerY a + 1)
    | 1 => routerAt (routerX a + 1) (routerY a)
    | 2 => routerAt (routerX a) (routerY a - 1)
    | _ => routerAt (routerX a - 1) (routerY a)

/-- Whether a link has failed, at whichever end it was found (R125). -/
def Dev.linkFailed (d : Dev) (a b : Nat) : Bool :=
  d.noc.failed.contains (a, linkDir a b) || d.noc.failed.contains (b, linkDir b a)

/-- Whether no link of a way from router to router has failed: both routers of a failed link have stopped it (R125). -/
def Dev.wayOpen (d : Dev) (rs : List Nat) : Bool := (rs.zip (rs.drop 1)).all (fun h => !d.linkFailed h.1 h.2)

/-- Whether a packet's way through the mesh to a target is open. -/
def Dev.pktOpen (d : Dev) (p : NocPkt) (target : Nat) : Bool :=
  let r := routersTo (startRouter p) target
  d.wayOpen (if entryRouter p = startRouter p then r else entryRouter p :: r)

/-! ### Systolic passing (R116) -/

/-- The five bits that the firmware writes for a group in a tile router: LOCAL, EAST, WEST, NORTH, SOUTH (R116). -/
structure McastBits where
  localBit : Bool
  east : Bool
  west : Bool
  north : Bool
  south : Bool
  deriving DecidableEq, Repr

/-- The bits of a tile router for a group with these members. -/
def mcastBits (ms : List Nat) (t : Nat) : McastBits :=
  { localBit := ms.contains t
    east := ms.any (fun m => decide (fileOf t < fileOf m))
    west := ms.any (fun m => decide (fileOf m < fileOf t))
    north := ms.any (fun m => fileOf m = fileOf t && decide (rankOf t < rankOf m))
    south := ms.any (fun m => fileOf m = fileOf t && decide (rankOf m < rankOf t)) }

/-- A file-phase packet enters a tile router: it is delivered there and goes on in its direction as the bits say (R116). -/
def filePhase (ms : List Nat) (north : Bool) : (fuel t : Nat) → List (Nat × Nat)
  | 0, _ => []
  | k + 1, t =>
    let b := mcastBits ms t
    (if b.localBit then [(t, 1)] else []) ++
      (if (if north then b.north else b.south) then
        filePhase ms north k (tileAt (fileOf t) (if north then rankOf t + 1 else rankOf t - 1)) else [])

/-- The file-phase copies that leave a router of the rank phase. -/
def fileCopies (ms : List Nat) (t : Nat) : List (Nat × Nat) :=
  let b := mcastBits ms t
  (if b.north then filePhase ms true 16 (tileAt (fileOf t) (rankOf t + 1)) else []) ++
    (if b.south then filePhase ms false 16 (tileAt (fileOf t) (rankOf t - 1)) else [])

/-- A rank-phase packet enters a tile router: delivered, passed on, copied north and south (R116). -/
def rankPhase (ms : List Nat) (east : Bool) : (fuel t : Nat) → List (Nat × Nat)
  | 0, _ => []
  | k + 1, t =>
    let b := mcastBits ms t
    (if b.localBit then [(t, 0)] else []) ++ fileCopies ms t ++
      (if (if east then b.east else b.west) then
        rankPhase ms east k (tileAt (if east then fileOf t + 1 else fileOf t - 1) (rankOf t)) else [])

/-- The deliveries of a group packet from its source router: each member with the phase PH in which it gets the packet. -/
def mcastWalk (ms : List Nat) (t : Nat) : List (Nat × Nat) :=
  let b := mcastBits ms t
  (if b.localBit then [(t, 0)] else []) ++ fileCopies ms t ++
    (if b.east then rankPhase ms true 16 (tileAt (fileOf t + 1) (rankOf t)) else []) ++
    (if b.west then rankPhase ms false 16 (tileAt (fileOf t - 1) (rankOf t)) else [])

/-! ### Packets on their way (R111, R115) -/

/-- A packet leaves for its target, or for each member of its group once (R111, R116). -/
def Dev.sendMesh (d : Dev) (p : NocPkt) (hdr : Option BamatPkt) : Dev :=
  let ps : List MeshPkt :=
    if p.dst < 1024 then [⟨p, targetRouter p, hdr⟩]
    else (mcastWalk ((look (p.dst - 1024) d.noc.groups).getD []) (startRouter p)).map (fun m => ⟨{ p with ph := m.2 }, m.1, hdr⟩)
  { d with noc := { d.noc with flight := d.noc.flight ++ ps } }

/-- Remove the first entry that a test picks. -/
def dropFirst {α : Type} (f : α → Bool) : List α → List α
  | [] => []
  | x :: r => if f x then r else x :: dropFirst f r

/-- Whether a packet may be added to others on the way. -/
def reducible (p : NocPkt) : Bool := p.red && p.typ = 5

/-- Whether packet y must arrive before packet x where it was sent before it (R115): the same source, destination, channel, job and tag,
or the same group and source at one member; reducible packets are exempt. -/
def keepsOrder (y x : MeshPkt) : Bool :=
  !reducible y.pkt && !reducible x.pkt && y.pkt.src = x.pkt.src && y.pkt.dst = x.pkt.dst && y.target = x.target &&
    (decide (1024 ≤ x.pkt.dst) || (y.pkt.vc = x.pkt.vc && y.pkt.job = x.pkt.job && y.pkt.tag = x.pkt.tag))

/-- Whether a packet is not behind one that must arrive before it (R115). -/
def Dev.meshFirst (d : Dev) (f : MeshPkt → Bool) : Bool :=
  match d.noc.flight.find? f with
  | none => true
  | some x => match d.noc.flight.find? (fun y => keepsOrder y x) with | some y => f y | none => true

/-- Whether a packet may reach its target now: none before it that must come first, no failed link on its way (R115, R125). -/
def Dev.meshMay (d : Dev) (f : MeshPkt → Bool) : Bool :=
  d.meshFirst f && (match d.noc.flight.find? f with | some x => d.pktOpen x.pkt x.target | none => true)

/-- A packet has left the mesh. -/
def Dev.meshTaken (d : Dev) (f : MeshPkt → Bool) : Dev :=
  { d with noc := { d.noc with flight := dropFirst f d.noc.flight } }

/-- Whether a job is being purged. -/
def Dev.purgingNow (d : Dev) (job : Nat) : Bool := (d.noc.purging.head?.map (fun e => e.1)) = some job

end Sys2Proof.Machine
end

