-- ==== Sys2Proof/Machine/Bamat.lean ====
section
/-! DEFINITION. Sending over Bamat (R270 to R276, R279): packets as bytes and flits, the torus and its routing, refusals, and
the mirrors and proxies by which writes and signals leave the device (R277). -/

namespace Sys2Proof.Machine

/-! ### CRC-32C (R270) -/

/-- One bit of the reflected CRC. -/
def crcBit (c : Nat) : Nat := if c % 2 = 1 then (c / 2) ^^^ 0x82F63B78 else c / 2

/-- One byte of the reflected CRC. -/
def crcByte (c : Nat) (b : Byte) : Nat :=
  crcBit (crcBit (crcBit (crcBit (crcBit (crcBit (crcBit (crcBit (c ^^^ b.toNat))))))))

/-- CRC-32C of a run of bytes; the conventions beside the polynomial are those the code has everywhere (PRESUMED, log entry 20). -/
def crc32c (bs : List Byte) : BitVec 32 := BitVec.ofNat 32 (bs.foldl crcByte 0xFFFFFFFF ^^^ 0xFFFFFFFF)

/-! ### Packets as bytes (R273) -/

/-- The 32 bytes of a header and the payload. -/
def pktBytes (p : BamatPkt) : List Byte :=
  let flags := p.vc % 8 + 8 * b2n p.red + 16 * (p.rfmt % 2) + 32 * (p.cls % 2) + 64 * (p.dir % 2)
  leBytes 1 p.op ++ leBytes 1 flags ++ leBytes 2 p.payload.length ++ leBytes 2 p.job ++ leBytes 2 p.tag ++
    leBytes 2 p.dstdev ++ leBytes 2 p.srcdev ++ leBytes 2 p.dstep ++ leBytes 2 p.srcep ++ leBytes 8 p.addr ++
    leBytes 1 p.cnt ++ leBytes 1 p.total ++ leBytes 1 p.hb ++ leBytes 1 p.hops ++ leBytes 4 p.arg ++ p.payload

/-- A packet from its bytes. -/
def parsePkt (b : List Byte) : BamatPkt :=
  let flags := natAt b 1 1
  { op := natAt b 0 1, vc := flags % 8, red := flags.testBit 3, rfmt := bits flags 4 4, cls := bits flags 5 5,
    dir := bits flags 6 6, job := natAt b 4 2 % 4096, tag := natAt b 6 2, dstdev := natAt b 8 2, srcdev := natAt b 10 2,
    dstep := natAt b 12 2 % 2048, srcep := natAt b 14 2 % 2048, addr := natAt b 16 8, cnt := natAt b 24 1,
    total := natAt b 25 1, hb := natAt b 26 1, hops := natAt b 27 1, arg := natAt b 28 4,
    payload := (b.drop 32).take (natAt b 2 2) }

/-- A packet with every field 0 (a sender sets fields that an operation does not use to 0). -/
def BamatPkt.blank : BamatPkt :=
  { op := 0, vc := 0, red := false, rfmt := 0, cls := 0, dir := 0, job := 0, tag := 0, dstdev := 0, srcdev := 0, dstep := 0,
    srcep := 0, addr := 0, cnt := 0, total := 0, hb := 0, hops := 0, arg := 0, payload := [] }

/-! ### The topology descriptor in force (R281) -/

/-- The 16 bytes of a port entry. -/
def topoEntry (t : List Byte) (k : Nat) : List Byte := bytesAt t (64 + 16 * k) 16
/-- MODE. -/
def teMode (e : List Byte) : Nat := natAt e 0 1
/-- NEED. -/
def teNeed (e : List Byte) : Nat := natAt e 1 1
/-- SET. -/
def teSet (e : List Byte) : Nat := natAt e 2 1
/-- MINLANES. -/
def teMinLanes (e : List Byte) : Nat := natAt e 3 1
/-- PEER. -/
def tePeer (e : List Byte) : Nat := natAt e 4 2
/-- PEER_PORT. -/
def tePeerPort (e : List Byte) : Nat := natAt e 6 1
/-- VLAN. -/
def teVlan (e : List Byte) : Nat := natAt e 8 2
/-- PEER_MAC, its first octet the most significant. -/
def teMac (e : List Byte) : Nat := leNat (bytesAt e 10 6).reverse
/-- TOPO_ID. -/
def topoId (t : List Byte) : Nat := natAt t 0x10 8

/-- The entry of a port. -/
def Dev.portEntry (d : Dev) (k : Nat) : List Byte := topoEntry d.lnk.topo k

/-- MODE of a port (R266). -/
def Dev.portMode (d : Dev) (k : Nat) : Nat := d.fld (R.LNK_PORT_STAT k) F.LNK_PORT_STAT_MODE

/-- NEED of a port. -/
def Dev.portNeed (d : Dev) (k : Nat) : Nat := d.fld (R.LNK_PORT_STAT k) F.LNK_PORT_STAT_NEED

/-- SET of a port. -/
def Dev.portSet (d : Dev) (k : Nat) : Nat := d.fld (R.LNK_PORT_STAT k) F.LNK_PORT_STAT_SET

/-- WIDTH of a port. -/
def Dev.portWidth (d : Dev) (k : Nat) : Nat := d.fld (R.LNK_PORT_STAT k) F.LNK_PORT_STAT_WIDTH

/-! ### Ports (R268, R270 to R272, R289) -/

/-- A port after training: sequence numbers from 0 and full credit (DESIGN CHOICE, log entry 71). -/
def PortSt.fresh : PortSt :=
  { attemptAt := 0, failed := 0, txSeq := 0, rxSeq := 0, ident := none, time := none, answer := none, retry := [], unacked := [],
    ackAt := 0, resendTimes := [], credits := [256, 1280, 1280, 1280, 1280, 1280, 1280, 256], txq := [], rx := List.replicate 8 [],
    held := List.replicate 8 [], pausedUntil := 0, frames := [], delay := 0, offset := 0 }

/-- A port's own state. -/
def Dev.portSt (d : Dev) (k : Nat) : PortSt := (look k d.lnk.ports).getD PortSt.fresh

/-- Change a port's own state. -/
def Dev.updPort (d : Dev) (k : Nat) (f : PortSt → PortSt) : Dev :=
  { d with lnk := { d.lnk with ports := put k (f (d.portSt k)) d.lnk.ports } }

/-- STATE of a port (R268). -/
def Dev.portState (d : Dev) (k : Nat) : Nat := d.fld (R.LNK_PORT_STAT k) F.LNK_PORT_STAT_STATE

/-- Whether a port carries packets: UP or DEGRADED, and not UNUSED (R268, R282). -/
def Dev.portUsable (d : Dev) (k : Nat) : Bool :=
  (d.portState k = 2 || d.portState k = 3) && d.fld (R.LNK_PORT_STAT k) F.LNK_PORT_STAT_NEED ≠ 0

/-- The link word of an outgoing flit (R270). -/
def linkWord (kind vc seq ack : Nat) (nak : Bool) : Word :=
  BitVec.ofNat 64 (kind + vc * 2 ^ 2 + seq % 2 ^ 14 * 2 ^ 5 + ack % 2 ^ 14 * 2 ^ 19 + b2n nak * 2 ^ 33)

/-- A DATA flit: its content filled up with zeros (PRESUMED, log entry 20). -/
def dataFlit (vc seq ack : Nat) (nak : Bool) (content : List Byte) : Flit :=
  let c := content ++ List.replicate (244 - content.length) (0 : Byte)
  let l := linkWord 1 vc seq ack nak
  { link := l, content := c, crc := crc32c (leBytes 8 l.toNat ++ c) }

/-- A CTRL flit: it takes the next sequence number (R270). -/
def ctrlFlit (seq ack : Nat) (content : List Byte) : Flit :=
  let c := content ++ List.replicate (244 - content.length) (0 : Byte)
  let l := linkWord 2 0 seq ack false
  { link := l, content := c, crc := crc32c (leBytes 8 l.toNat ++ c) }

/-- The packet of a channel whose bytes go next: one that has begun, else the first in the buffer of class 1, else of class 0 (R276)
(DEDUCED, log entry 68). -/
def nextPart (vc : Nat) (q : List TxPart) : Option TxPart :=
  match q.find? (fun x => x.vc = vc && x.begun) with
  | some x => some x
  | none =>
    match q.find? (fun x => x.vc = vc && x.cls = 1) with
    | some x => some x
    | none => q.find? (fun x => x.vc = vc)

/-- Replace the first entry equal to x, or drop it. -/
def changeFirst {α : Type} [DecidableEq α] (x : α) (y : Option α) : List α → List α
  | [] => []
  | z :: r => if z = x then (match y with | some y => y :: r | none => r) else z :: changeFirst x y r

/-- The content of one flit of a channel: its packets' bytes end to end while there is room (R270); with it the packets that end in
the flit and the queue that remains. -/
def fillFlit (vc : Nat) : (fuel room : Nat) → List TxPart → List Byte × List BamatPkt × List TxPart
  | 0, _, q => ([], [], q)
  | n + 1, room, q =>
    match nextPart vc q with
    | none => ([], [], q)
    | some x =>
      if room = 0 then ([], [], q)
      else if room < x.left.length then
        (x.left.take room, [], changeFirst x (some { x with left := x.left.drop room, begun := true }) q)
      else
        let (bs, ends, q) := fillFlit vc n (room - x.left.length) (changeFirst x none q)
        (x.left ++ bs, x.pkt :: ends, q)

/-- Send flits while the port holds a credit of a channel that has bytes to send, and retry space (R271, R272); the flits sent. -/
def pumpFlits (now : Nat) : (fuel : Nat) → PortSt → PortSt × List Flit
  | 0, p => (p, [])
  | n + 1, p =>
    match p.txq.find? (fun x => decide (0 < p.credits.getD x.vc 0)) with
    | none => (p, [])
    | some x =>
      if 4096 ≤ p.retry.length then (p, [])
      else
        let (content, ends, q) := fillFlit x.vc 244 244 p.txq
        let f := dataFlit x.vc p.txSeq (p.rxSeq + 16383) false content
        let p := { p with
          ackAt := if p.retry.isEmpty then now else p.ackAt
          retry := p.retry ++ [(f, 0)]
          unacked := p.unacked ++ ends.map (fun e => (p.txSeq, e))
          txSeq := (p.txSeq + 1) % 2 ^ 14
          txq := q
          credits := setAt p.credits x.vc (p.credits.getD x.vc 0 - 1) }
        let (p, fs) := pumpFlits now n p
        (p, f :: fs)

/-- Cut flits into runs of at most 8. -/
def eights : (fuel : Nat) → List Flit → List (List Flit)
  | 0, _ => []
  | n + 1, fs => if fs.isEmpty then [] else fs.take 8 :: eights n (fs.drop 8)

/-- The source address of an Ethernet port: 02-5A, SELF in two bytes, the port number, 0x00 (R289). -/
def ethMac (dev k : Nat) : Nat := 0x025A * 2 ^ 32 + dev % 65536 * 65536 + k * 256

/-- Flits leave a port: on an Ethernet port in frames of up to 8, to the entry's peer under its VLAN at priority 3 (R289). -/
def Dev.flitsOut (d : Dev) (k : Nat) (fs : List Flit) : Dev :=
  if fs.isEmpty || !(d.portMode k = 2 || d.portMode k = 3) then d
  else
    let e := d.portEntry k
    let frame : List Flit → EthFrame := fun l =>
      { dst := teMac e, src := ethMac (d.fld R.LNK_CFG F.LNK_CFG_SELF) k, priority := 3, vlan := teVlan e, etherType := 0x88B5, flits := l }
    d.updPort k (fun p => { p with frames := (eights fs.length fs).map frame })

/-- Send what the port can (R272); a port that its Ethernet peer has paused sends nothing (R289). -/
def Dev.pumpPort (d : Dev) (k : Nat) : Dev :=
  let p := d.portSt k
  if p.txq.isEmpty || decide (d.now < p.pausedUntil) then d
  else
    let (p, fs) := pumpFlits d.now (p.txq.length * 5) p
    let d := (d.updPort k (fun _ => p)).wrapFld (R.LNK_PORT_CNT k) F.LNK_PORT_CNT_FLITS fs.length
    d.flitsOut k fs

/-- Every port that holds packets sends what it can. -/
def Dev.pumpAll (d : Dev) : Dev :=
  ((d.lnk.ports.filter (fun e => !e.2.txq.isEmpty)).map (·.1)).foldl Dev.pumpPort d

/-- A packet enters the buffer of its channel and class at a port (R270, R276). -/
def Dev.portQueue (d : Dev) (k : Nat) (p : BamatPkt) : Dev :=
  d.updPort k (fun x => { x with txq := x.txq ++ [⟨p.vc % 8, p.cls % 2, pktBytes p, false, p⟩] })

/-! ### The torus and routing (R275, R276) -/

/-- This device's system device index. -/
def Dev.selfDev (d : Dev) : Nat := d.fld R.LNK_CFG F.LNK_CFG_SELF

/-- The coordinate of a device in a dimension (R275). -/
def coordOf (x k : Nat) : Nat := x / 8 ^ k % 8

/-- The size of a dimension. -/
def Dev.dimSize (d : Dev) (k : Nat) : Nat := d.fld R.LNK_CFG F.LNK_CFG_DIMS / 16 ^ k % 16

/-- The usable ports of a link set in ascending order (R276). -/
def Dev.setPorts (d : Dev) (set : Nat) : List Nat :=
  (List.range 32).filter (fun k => d.portUsable k && d.fld (R.LNK_PORT_STAT k) F.LNK_PORT_STAT_SET = set)

/-- Whether a segment is marked broken (R278) (DEDUCED, log entry 69). -/
def Dev.segBroken (d : Dev) (dim c : Nat) : Bool := (d.fld R.LNK_RING F.LNK_RING_BROKEN).testBit (8 * dim + c)

/-- Whether the way of `steps` hops from coordinate c crosses a broken segment; the first hop needs a usable port. -/
def Dev.wayBroken (d : Dev) (dim size c steps : Nat) (plus : Bool) : Bool :=
  (d.setPorts (2 * dim + b2n (!plus))).isEmpty ||
    (List.range steps).any (fun i => d.segBroken dim (if plus then (c + i) % size else (c + 2 * size - 1 - i) % size))

/-- The direction chosen on entering a dimension: true for plus; none where both ways are broken (R276). -/
def Dev.chooseDir (d : Dev) (dim size c dst : Nat) : Option Bool :=
  let p := (dst + size - c) % size
  let m := size - p
  let plus := decide (p ≤ m)
  let steps : Bool → Nat := fun w => if w then p else m
  if d.wayBroken dim size c (steps plus) plus = false then some plus
  else if d.wayBroken dim size c (steps (!plus)) (!plus) = false then some (!plus)
  else none

/-- The lowest dimension in which two devices differ. -/
def firstDim (a b : Nat) : Option Nat := lowest 5 (fun k => coordOf a k ≠ coordOf b k)

/-- The next hop of a packet: the ports of its link set, and the packet with DIR and CLASS as this hop leaves them. `via` is the
dimension in which it has come here; in another it makes a new choice of direction (DEDUCED, log entry 68). -/
def Dev.nextHop (d : Dev) (via : Option Nat) (p : BamatPkt) : Option (List Nat × BamatPkt) :=
  let me := d.selfDev
  let eth := (d.setPorts 10).filter (fun k => d.fld (R.LNK_PORT_PEER k) F.LNK_PORT_PEER_PEER_DEV = p.dstdev)
  if !eth.isEmpty then some (eth, p)
  else if d.fld R.LNK_CFG F.LNK_CFG_TOPO_LOADED = 0 then none
  else
    match firstDim me p.dstdev with
    | none => none
    | some k =>
      let c := coordOf me k
      let size := d.dimSize k
      let entering := via ≠ some k
      let dir := if entering then d.chooseDir k size c (coordOf p.dstdev k) else some (p.dir = 0)
      match dir with
      | none => none
      | some plus =>
        let cls := if entering then 0 else p.cls
        let wrap := if plus then c + 1 = size else c = 0
        let ports := d.setPorts (2 * k + b2n (!plus))
        if ports.isEmpty then none
        else some (ports, { p with dir := b2n (!plus), cls := if wrap then 1 else cls })

/-- The port of a link set that a packet takes (R276): check packets take the next one. -/
def pickPort (ports : List Nat) (p : BamatPkt) : Nat :=
  let n := ports.length
  let check := p.tag.testBit 12
  let i := (p.srcdev + p.job + (if check then p.tag - 4096 else p.tag)) % n
  ports.getD (if check && decide (1 < n) then (i + 1) % n else i) 0

/-- The dimension in which a packet has come by a port: that of the port's link set (R275). -/
def Dev.portDim (d : Dev) (k : Nat) : Option Nat := if d.portSet k < 10 then some (d.portSet k / 2) else none

/-- The dimension in which a packet from a device has come here: the last in which the two differ, as dimensions are crossed in
ascending order (R276). -/
def Dev.cameIn (d : Dev) (src : Nat) : Option Nat := (List.range 5).reverse.find? (fun k => coordOf src k ≠ coordOf d.selfDev k)

/-- The port by which a device is reached now; 0xFFFF where there is none (the UNIT of the records of R291). -/
def Dev.portToward (d : Dev) (dev : Nat) : Nat :=
  match d.nextHop none { BamatPkt.blank with dstdev := dev, srcdev := d.selfDev } with
  | some (ports, q) => pickPort ports q
  | none => 0xFFFF

/-- The refusal of a packet, in the name of the peer it was for, also where another device sends it (R273, R279, R280; DEDUCED, log
entry 31). -/
def refusal (p : BamatPkt) (status : Nat) : BamatPkt :=
  { BamatPkt.blank with
    op := 11, vc := 0, job := p.job, tag := p.tag, dstdev := p.srcdev, srcdev := p.dstdev, dstep := p.srcep, srcep := p.dstep,
    addr := p.addr, arg := status + p.op * 256 }

/-- A packet has reached this device. -/
def Dev.bamatArrives (d : Dev) (p : BamatPkt) : Dev := { d with lnk := { d.lnk with arrived := d.lnk.arrived ++ [p] } }

/-- A packet that has been handled. -/
def Dev.bamatHandled (d : Dev) (p : BamatPkt) : Dev := { d with lnk := { d.lnk with arrived := changeFirst p none d.lnk.arrived } }

/-- Whether packets of one source, channel, job and tag are to be handled in the order in which they came (R274). -/
def bamatOrder (y p : BamatPkt) : Bool := y.srcdev = p.srcdev && y.vc = p.vc && y.job = p.job && y.tag = p.tag

/-- Whether an earlier packet must be handled before this one. -/
def Dev.bamatWaits (d : Dev) (p : BamatPkt) : Bool :=
  d.lnk.arrived.contains p && (match d.lnk.arrived.find? (fun y => bamatOrder y p) with | some y => decide (y ≠ p) | none => false)

/-- A reducible packet crosses the mesh to the port by which it leaves (R118, R276): its Bamat header goes with it. -/
def meshOut (src k : Nat) (p : BamatPkt) : NocPkt :=
  { typ := 5, vc := p.vc, len := (p.payload.length + 127) / 128 - 1, job := p.job, tag := p.tag, dst := 272 + k, src := src, red := p.red,
    rfmt := p.rfmt, ph := 0, addr := p.addr, cnt := p.cnt, total := p.total, hb := p.hb, payload := p.payload }

/-- An ACC packet inside the device, on its way to the endpoint that its Bamat header names. -/
def meshIn (src : Nat) (p : BamatPkt) : NocPkt := { meshOut src 0 p with dst := p.dstep }

/-- A packet goes to a port: a reducible one by way of the mesh from the endpoint `src`, any other straight into the port's buffer
(DESIGN CHOICE, log entry 70). -/
def Dev.bamatOut (d : Dev) (src k : Nat) (p : BamatPkt) : Dev :=
  if p.op = 5 && p.red then d.sendMesh (meshOut src k p) (some p) else d.portQueue k p

/-- A packet goes its way: by a port, or to this device itself. One without a route is refused with ROUTE, unless it is a
refusal (R276). `src` is the endpoint by which it is in the device. -/
def Dev.bamatQueue (d : Dev) (via : Option Nat) (src : Nat) (p : BamatPkt) : Dev :=
  if p.dstdev = d.selfDev then d.bamatArrives p
  else
    match d.nextHop via p with
    | some (ports, p) => d.bamatOut src (pickPort ports p) p
    | none =>
      if p.op = 11 then d
      else
        let r := refusal p 6
        if r.dstdev = d.selfDev then d.bamatArrives r
        else
          match d.nextHop none r with
          | some (ports, r) => d.portQueue (pickPort ports r) r
          | none => d

/-- This device sends a packet. -/
def Dev.bamatSend (d : Dev) (p : BamatPkt) : Dev := (d.bamatQueue none p.srcep p).pumpAll

/-- This device sends packets: all are in their buffers before the ports send, so that they lie end to end in the flits (R270). -/
def Dev.bamatSendAll (d : Dev) (ps : List BamatPkt) : Dev := (ps.foldl (fun d p => d.bamatQueue none p.srcep p) d).pumpAll

/-- Refuse an operation addressed to this device: REFUSE to its sender and EVT 0x0A30 (R279, R291). -/
def Dev.bamatRefuse (d : Dev) (p : BamatPkt) (status : Nat) : Dev :=
  (d.bamatSend (refusal p status)).raise
    { code := 0x0A30, job := p.job, unit := d.portToward p.srcdev, args := [p.srcdev, status] }

/-! ### Checks of a packet (R273, R279) -/

/-- Whether an operation may travel on a virtual channel (R273). -/
def opVcOk (p : BamatPkt) : Bool :=
  match p.op with
  | 1 => decide (1 ≤ p.vc) && decide (p.vc ≤ 6)
  | 2 => true
  | 3 => true
  | 4 => p.vc = 0
  | 5 => decide (1 ≤ p.vc) && decide (p.vc ≤ 4)
  | 6 => p.vc = 0
  | 7 => p.vc = 0
  | 8 => p.vc = 5
  | 9 => p.vc = 5
  | 10 => if p.arg % 256 = 5 then p.vc = 7 else p.vc = 0
  | 11 => p.vc = 0
  | _ => false

/-- A packet or frame discarded at a port (R273, R289). -/
def Dev.discardAt (d : Dev) (k : Nat) : Dev := d.satFld (R.LNK_PORT_ERR k) F.LNK_PORT_ERR_DISCARDED 1

/-- A packet that is discarded is counted at the port by which its source is reached (DESIGN CHOICE, log entry 70). -/
def Dev.discardPkt (d : Dev) (p : BamatPkt) : Dev :=
  let k := d.portToward p.srcdev
  if k < 32 then d.discardAt k else d

/-- The lowest status that refuses an operation of a job addressed to this device, if any (R279); `range` says that its address
or object is refused. A job at a level above LEVEL_MAX is refused with LEVEL (R288). -/
def Dev.bamatStatus (d : Dev) (job : Nat) (range : Bool) : Option Nat :=
  if d.cfgState = 3 then some 1
  else
    match look job d.jobs with
    | none => some 2
    | some j =>
      if range then some 3
      else if d.fld R.COL_CFG F.COL_CFG_LEVEL_MAX < j.level then some 4
      else if d.cfgState ≠ 2 || d.ready = false then some 8
      else none

/-- Whether a packet is an operation for an engine's endpoint that the engine's own row takes: an accumulate, or a write to the
collective engine or the management core. -/
def engineOp (p : BamatPkt) : Bool := p.op = 5 || (p.op = 1 && (p.dstep = 322 || p.dstep = 324))

/-- An operation for an engine of this device is refused, or it goes on inside the device: an accumulate through the mesh from the
endpoint `src` by which it came, a write to the engine (R279). -/
def Dev.engineTakes (d : Dev) (src : Nat) (p : BamatPkt) : Dev :=
  match d.bamatStatus p.job false with
  | some st => d.bamatRefuse p st
  | none => if p.op = 5 then d.sendMesh (meshIn src p) (some p) else d.bamatArrives p

/-- A packet arrives for this device or passes through it (R273, R276): one whose operation and channel disagree, or that has crossed
40 devices, is discarded and counted. -/
def Dev.bamatTakes (d : Dev) (via : Option Nat) (src : Nat) (p : BamatPkt) (discard : Dev → Dev) (here : Dev → Dev) : Dev :=
  if opVcOk p = false then discard d
  else if p.dstdev = d.selfDev then here d
  else if 40 ≤ p.hops + 1 then discard d
  else (d.bamatQueue via src { p with hops := p.hops + 1 }).pumpAll

/-- The row of a packet of an operation: it acts once the packets that must come before it have been handled (R274). -/
def bamatRow (p : BamatPkt) (op : Nat) (s : State) (f : Dev → Dev) : Out :=
  onDev s (fun d =>
    if p.op ≠ op || d.bamatWaits p then d
    else
      let d := d.bamatHandled p
      d.bamatTakes (d.cameIn p.srcdev) (min (272 + d.portToward p.srcdev) 303) p (fun d => d.discardPkt p) f)

/-! ### Mirrors and proxies (R277) -/

/-- The endpoint of a memory address: the tile of a slice, or the controller of a stack. -/
def endpointOf (a : Nat) : Nat := if isNear a then tileOf a else 256 + stackOf a

/-- Queue a run for a mirror's peer in WRITE packets of at most 1,024 bytes, each an operation of the tile. -/
def Dev.mirrorPackets (d : Dev) (t : Nat) (m : Mirror) : (fuel a : Nat) → List Byte → Dev
  | 0, _, _ => d
  | k + 1, a, bs =>
    if bs.isEmpty then d
    else
      let p : BamatPkt := { BamatPkt.blank with
        op := 1, vc := 6, job := m.job, dstdev := m.peer, srcdev := d.selfDev, srcep := t,
        addr := m.remote + (a - m.local_), dstep := endpointOf (m.remote + (a - m.local_)), payload := bs.take 1024 }
      let d := { d with lnk := { d.lnk with outstanding := d.lnk.outstanding ++ [({ pkt := p, tile := some t } : Outstanding)] } }
      (d.bamatQueue none t p).mirrorPackets t m k (a + 1024) (bs.drop 1024)

/-- A tile of a context has written a run of memory: what of it lies in a mirror also goes to the peer, in whole 8-byte words
(DESIGN CHOICE, log entry 21). -/
def Dev.mirrorWrite (d : Dev) (t c a len : Nat) : Dev :=
  (d.lnk.mirrors.map (·.2)).foldl (fun d m =>
    let lo := max a m.local_ / 8 * 8
    let hi := min (roundUp (a + len) 8) (m.local_ + m.len)
    if m.ctx = c && decide (lo < hi) && decide (len ≠ 0) then
      (d.mirrorPackets t m (len / 1024 + 3) lo (d.memBytes lo (hi - lo))).pumpAll
    else d) d

/-- The proxy of a sync object. -/
def Dev.proxyOf (d : Dev) (o : Nat) : Option Proxy := (d.lnk.proxies.map (·.2)).find? (fun p => p.obj = o)

/-- A SIGNAL or SRESET of a proxied object goes to the peer's object (R277). -/
def Dev.proxySend (d : Dev) (x : Proxy) (tile : Option Nat) (op v : Nat) : Dev :=
  let p : BamatPkt := { BamatPkt.blank with
    op := op, vc := 0, job := x.job, dstdev := x.peer, srcdev := d.selfDev, dstep := 320,
    srcep := match tile with | some t => t | none => 320
    addr := x.remote, arg := v }
  d.bamatSend p

/-- Whether every write of a tile has been acknowledged by its peer (R81, R277). -/
def Dev.tileAcked (d : Dev) (t : Nat) : Bool := d.lnk.outstanding.all (fun o => !(o.tile = some t && o.pkt.op = 1))

end Sys2Proof.Machine
end

