-- ==== Sys2Proof/Machine/Operands.lean ====
section
/-! DEFINITION. The sequencer of a tile as plain data: the bundle and its slots (R82), the general registers (R78, R79),
the operand descriptors and where their rows lie (R84, R85), and the end of a bundle (R79). -/

namespace Sys2Proof.Machine

/-! ### Bundles (R79, R82). Slots are numbered in the order in which they take effect: 0 load, 1 array, 2 vector, 3 store,
4 stream, 5 sync. -/

/-- The bits of slot k of a bundle (R82). -/
def slotWord (b k : Nat) : Nat :=
  match k with
  | 0 => bits b 71 56
  | 1 => bits b 27 0
  | 2 => bits b 55 28
  | 3 => bits b 87 72
  | 4 => bits b 103 88
  | _ => bits b 127 104

/-- The opcode of slot k; 0 is a NOP (R82). -/
def slotOp (b k : Nat) : Nat :=
  match k with
  | 0 => slotWord b 0 % 8
  | 1 => slotWord b 1 % 16
  | 2 => slotWord b 2 % 32
  | 3 => slotWord b 3 % 8
  | 4 => slotWord b 4 % 8
  | _ => slotWord b 5 % 16

/-- The signed 10-bit immediate of the sync slot. -/
def syncImm (w : Nat) : Int := toSigned 10 (bits w 23 14)

/-- The bundle at PC; memory beyond the code holds NOPs (DESIGN CHOICE, log entry 14). -/
def Tile.bundle (t : Tile) : Nat := t.code.getD t.pc 0

/-- The next slot of the bundle that holds an operation. -/
def Tile.nextSlot (t : Tile) : Option Nat :=
  (List.range 6).find? (fun k => decide (t.slot ≤ k) && slotOp t.bundle k ≠ 0)

/-- A general register: G0 reads 0. -/
def Tile.reg (t : Tile) (i : Nat) : Word := if i = 0 then 0 else t.g.getD i 0

/-- Write a general register: writes to G0 are discarded. -/
def Tile.setReg (t : Tile) (i : Nat) (w : Word) : Tile := if i = 0 then t else { t with g := setAt t.g i w }

/-- A G write that takes effect after the bundle (R79). -/
def Tile.later (t : Tile) (i : Nat) (w : Word) : Tile := { t with gwrites := t.gwrites ++ [(i, w)] }

/-- The end of a bundle: its G writes and its branch take effect, or the program or the tile stops (R79, R101, R102). -/
def Tile.endBundle (t : Tile) : Tile :=
  let t := t.gwrites.foldl (fun t e => t.setReg e.1 e.2) t
  let halted := t.slot = 7
  let pc := match t.branch with
    | some p => p
    | none => t.pc + 1
  let t := { t with gwrites := [], branch := none, pc := pc, slot := 0 }
  if halted then { t with seq := .done } else if t.halting then { t with seq := .halted } else t

/-- Pass over bundles without an operation until one is found, the program stops or the code ends (DEDUCED, log entry 52). -/
def Tile.settle : (fuel : Nat) → Tile → Tile
  | 0, t => t
  | k + 1, t =>
    if t.seq ≠ .run then t
    else
      match t.nextSlot with
      | some s => { t with slot := s }
      | none => if t.slot = 0 && decide (t.code.length ≤ t.pc) then t else Tile.settle k t.endBundle

/-- The tile after the operation of its slot has completed. -/
def Tile.advance (t : Tile) : Tile :=
  Tile.settle (t.code.length + 2) { t with seq := .run, slot := t.slot + 1 }

/-- The tile after HALT: slot 7 marks the end of the program (R82). -/
def Tile.haltOp (t : Tile) : Tile := Tile.settle (t.code.length + 2) { t with slot := 7 }

/-- A tile with nothing bound and nothing held (R72). -/
def Tile.blank : Tile :=
  { pipe := none, index := 0, lastCtx := none, seq := .idle, pc := 0, slot := 0, gwrites := [], branch := none,
    halting := false, code := [], opds := [], consts := [], handles := [], ports := [], inbox := [], rounds := [],
    discarded := [], g := List.replicate 32 0, v := [], sram := [], sramErr := [], ceTimes := [],
    setA := ⟨false, 0, 0, false, [], []⟩, setB := ⟨false, 0, 0, false, [], []⟩, acc := [], latbuf := [], latwait := [],
    loading := none, credits := 0,
    slots := 0 }

/-! ### Operand descriptors (R84, R85) -/

/-- An operand descriptor from its 32 bytes (R84). -/
def parseOperand (b : List Byte) : Operand :=
  let flags := natAt b 0x19 1
  { addr := natAt b 0 8, saddr := natAt b 8 4, tscale := BitVec.ofNat 32 (natAt b 0x0C 4), stride := natAt b 0x10 4,
    rows := natAt b 0x14 2, rowBytes := natAt b 0x16 2, fmt := natAt b 0x18 1 % 16, mem := flags.testBit 0,
    hasT := flags.testBit 1, hasB := flags.testBit 2, rnd := bits flags 4 3, tag := natAt b 0x1A 2,
    offReg := natAt b 0x1C 1, iReg := natAt b 0x1D 1 % 32 }

/-- Operand number i of the tile's table. -/
def Tile.opd (t : Tile) (i : Nat) : Operand := t.opds.getD i (parseOperand [])

/-- The offset an operation adds to ADDR and SADDR: G[OFFREG] (R84) (DESIGN CHOICE, log entry 138). -/
def Tile.off (t : Tile) (o : Operand) : Nat := (t.reg o.offReg).toNat

/-- Where row i of an operand lies (R85): modulo 2 to the 64. -/
def Tile.rowAddr (t : Tile) (o : Operand) (i : Nat) : Nat := (o.addr + t.off o + i * o.stride) % 2 ^ 64

/-- Where the block scales of row i lie, with n elements in a row (R85). -/
def Tile.scaleAddr (t : Tile) (o : Operand) (n i : Nat) : Nat := (o.saddr + t.off o + i * ((n + 31) / 32)) % 2 ^ 64

/-- Where the packed copy of a memory operand lies in SRAM (R84, R85). -/
def Tile.packedAddr (t : Tile) (o : Operand) : Nat := (o.saddr + t.off o) % 2 ^ 64

/-- Bytes of tile SRAM (R69, R86). -/
def sramSize : Nat := 0x800000

/-- Whether an SRAM range lies inside the tile (R86). -/
def sramIn (a len : Nat) : Bool := decide (a + len ≤ sramSize)

/-- Whether every row of an operand lies inside SRAM. -/
def Tile.rowsIn (t : Tile) (o : Operand) (rows bytes : Nat) : Bool :=
  (List.range rows).all (fun i => sramIn (t.rowAddr o i) bytes)

/-- The destination index of element e of row r under SR (R85) (DESIGN CHOICE, log entry 137). -/
def Tile.srIndex (t : Tile) (o : Operand) (n r e : Nat) : Nat :=
  if o.iReg = 0 then r * n + e
  else ((t.reg o.iReg).toNat + r * (t.reg (o.iReg + 1)).toNat + e) % 2 ^ 64

end Sys2Proof.Machine
end

