-- ==== Sys2Proof/Machine/Queue.lean ====
section
/-! DEFINITION. Queues, descriptors, completion records, sync objects and the scheduling pass: what every engine needs to
take a descriptor, to wait for a sync object and to complete (R95 to R97, R301 to R310, R318, R337, R338). A queue number
below 4096 is a work queue; 4096 + f is the admin queue of function f. -/

namespace Sys2Proof.Machine

/-! ### Descriptors (R305) -/

/-- TYPE. -/
def Desc.typ (x : Desc) : Nat := natAt x.raw 0 1
/-- IRQ. -/
def Desc.irq (x : Desc) : Bool := (natAt x.raw 1 1).testBit 0
/-- FENCE. -/
def Desc.fence (x : Desc) : Bool := (natAt x.raw 1 1).testBit 1
/-- CID. -/
def Desc.cid (x : Desc) : Nat := natAt x.raw 4 4
/-- TIMEOUT_US. -/
def Desc.timeoutUs (x : Desc) : Nat := natAt x.raw 8 4
/-- A field of the body. -/
def Desc.body (x : Desc) (off size : Nat) : Nat := natAt x.raw (0x10 + off) size

/-- Whether a queue number is an admin queue. -/
def isAdmin (q : Nat) : Bool := decide (4096 ≤ q)

/-- A work or admin queue by number. -/
def Dev.queue (d : Dev) (q : Nat) : Option Queue := look q d.queues

/-- Change a queue. -/
def Dev.updQueue (d : Dev) (q : Nat) (f : Queue → Queue) : Dev := { d with queues := alter q f d.queues }

/-- Change a context. -/
def Dev.updCtx (d : Dev) (c : Nat) (f : Ctx → Ctx) : Dev := { d with ctxs := alter c f d.ctxs }

/-- The function of a queue. -/
def Dev.queueFn (d : Dev) (q : Nat) : Nat :=
  match d.queue q with
  | some x => x.fn
  | none => 0xFF

/-- The context of a queue; none for an admin queue. -/
def Dev.queueCtx (d : Dev) (q : Nat) : Nat :=
  match d.queue q with
  | some x => if isAdmin q then 0xFFFF else x.ctx
  | none => 0xFFFF

/-- A descriptor of a queue by ring number. -/
def Dev.desc (d : Dev) (q n : Nat) : Option Desc :=
  match d.queue q with
  | some x => x.fetched.find? (fun y => y.n = n)
  | none => none

/-- Change a descriptor. -/
def Dev.updDesc (d : Dev) (q n : Nat) (f : Desc → Desc) : Dev :=
  d.updQueue q (fun x => { x with fetched := x.fetched.map (fun y => if y.n = n then f y else y) })

/-- Add arithmetic status to a running descriptor (R54). -/
def Dev.descFlags (d : Dev) (q n flags : Nat) : Dev := d.updDesc q n (fun x => { x with astat := x.astat ||| flags })

/-- The event of a descriptor: function, context, queue and CID (R322). -/
def Dev.descEvent (d : Dev) (code q n : Nat) : Ev :=
  { code := code, fn := d.queueFn q, ctx := d.queueCtx q, args := [q, match d.desc q n with | some x => x.cid | none => 0] }

/-- The sync object a descriptor signals at completion, per type (R306, R159, R189, R204, R211, R224, R239, R245). -/
def Desc.syncObj (x : Desc) : Option Nat :=
  let at_ : Bool → Nat → Option Nat := fun en off => if en then some (x.body off 2 % 2 ^ 14) else none
  match x.typ with
  | 12 => at_ ((x.body 0x18 1).testBit 2) 0x1A
  | 14 => at_ ((x.body 0x04 2).testBit 15) 0x04
  | 15 => at_ ((x.body 0x01 1).testBit 1) 0x04
  | 16 => at_ ((x.body 0x03 1).testBit 0) 0x04
  | 17 => at_ ((x.body 0x03 1).testBit 0) 0x04
  | 18 => at_ ((x.body 0x00 1).testBit 0) 0x02
  | 19 => at_ ((x.body 0x00 1).testBit 0) 0x02
  | 20 => at_ ((x.body 0x03 1).testBit 0) 0x04
  | _ => none

/-- The wait a descriptor names, with its threshold and its bound in ns (R306, R189, R224, R239, R245, R310). -/
def Desc.namedWait (x : Desc) : Option (Nat × Nat × Nat) :=
  let obj : Nat → Nat := fun off => x.body off 2 % 2 ^ 14
  match x.typ with
  | 11 =>
    let us := x.body 0x08 4
    if x.body 0x00 1 = 2 then some (obj 0x02, x.body 0x04 4, (if us = 0 then 1000000 else us) * 1000) else none
  | 12 => if (x.body 0x18 1).testBit 3 then some (obj 0x1C, x.body 0x20 4, 100000000) else none
  | 15 => if (x.body 0x01 1).testBit 0 then some (obj 0x02, x.body 0x08 4, 100000000) else none
  | 18 => if (x.body 0x00 1).testBit 1 then some (obj 0x04, x.body 0x2C 4, 100000000) else none
  | 19 => if (x.body 0x00 1).testBit 1 then some (obj 0x04, x.body 0x1C 4, 100000000) else none
  | 20 =>
    let ms := natAt x.table 0x0C 4
    if (x.body 0x03 1).testBit 1 then some (obj 0x06, natAt x.table 0x08 4, (if ms = 0 then 1000 else ms) * 1000000) else none
  | _ => none

/-! ### Status codes (R308) -/

/-- INVALID's RESULT for a field of the descriptor. -/
def invalidAt (evt off : Nat) : Nat := evt + off * 2 ^ 16 + 0xFFFFFFFF * 2 ^ 32

/-- INVALID's RESULT for a field of an entry of a named table. -/
def invalidEntry (evt idx : Nat) : Nat := evt + 0xFFFF * 2 ^ 16 + idx * 2 ^ 32

/-- INVALID's RESULT for a field of a named table outside its entries. -/
def invalidTable (evt : Nat) : Nat := invalidEntry evt 0xFFFFFFFF

/-- The codes of R308. -/
def stOk : Nat := 0x0000
/-- PARTIAL. -/
def stPartial : Nat := 0x0001
/-- STEP_SKIPPED. -/
def stSkipped : Nat := 0x0002
/-- INVALID. -/
def stInvalid : Nat := 0x0010
/-- NOT_ADMITTED. -/
def stNotAdmitted : Nat := 0x0011
/-- BUSY. -/
def stBusy : Nat := 0x0012
/-- NO_RESOURCE. -/
def stNoResource : Nat := 0x0013
/-- ACCESS. -/
def stAccess : Nat := 0x0014
/-- LEVEL. -/
def stLevel : Nat := 0x0015
/-- CTX_FAULTED. -/
def stCtxFaulted : Nat := 0x0016
/-- ORPHANED. -/
def stOrphaned : Nat := 0x0017
/-- UE. -/
def stUe : Nat := 0x0020
/-- TIMEOUT. -/
def stTimeout : Nat := 0x0021
/-- RESIGNED. -/
def stResigned : Nat := 0x0022
/-- FAULT. -/
def stFault : Nat := 0x0023
/-- TILE_LOST. -/
def stTileLost : Nat := 0x0024
/-- NO_FRAME. -/
def stNoFrame : Nat := 0x0030
/-- SHARE_FULL. -/
def stShareFull : Nat := 0x0031
/-- REFUSED. -/
def stRefused : Nat := 0x0032
/-- AUDIT_FAILED. -/
def stAuditFailed : Nat := 0x0040
/-- HASH_FAILED. -/
def stHashFailed : Nat := 0x0041

/-! ### Host access for a descriptor (R295, R317) -/

/-- Whether host accesses for descriptors of a queue are suppressed: the queue is ORPHANED, or was when a resign covered it, or
was resigning when its function entered orphan mode (R300, R312, R317). -/
def Queue.suppressed (x : Queue) : Bool := x.state = .orphaned || x.resignAtOrphan || x.wasOrphaned

/-- Whether a queue's host accesses are suppressed. -/
def Dev.suppressed (d : Dev) (q : Nat) : Bool :=
  match d.queue q with
  | some x => x.suppressed
  | none => false

/-- A failed host access of a descriptor: counted, EVT 0x0B12 (R295, R322). -/
def Dev.hostFailed (d : Dev) (q n : Nat) : Dev := (d.accessFailed).raise { d.descEvent 0x0B12 q n with fault := true }

/-- A host read for a descriptor: its data, or the status and result the descriptor completes with. -/
def Dev.descRead (d : Dev) (q n iova len : Nat) : Dev × Sum (Nat × Nat) (List Byte) :=
  if d.suppressed q then (d, .inl (stOrphaned, 0))
  else
    match d.hostRead (d.queueFn q) iova len with
    | some bs => (d, .inr bs)
    | none => (d.hostFailed q n, .inl (stAccess, iova))

/-- A host write for a descriptor: done, or the status and result the descriptor completes with. -/
def Dev.descWrite (d : Dev) (q n iova : Nat) (bs : List Byte) : Dev × Option (Nat × Nat) :=
  if d.suppressed q then (d, some (stOrphaned, 0))
  else
    match d.hostWrite (d.queueFn q) iova bs with
    | some d => (d, none)
    | none => (d.hostFailed q n, some (stAccess, iova))

/-! ### Completion records (R302, R307, R317) -/

/-- The 32 bytes of a record; byte 3 holds the flags. -/
def recordBytes (status astat flags cid result end_ dur energy : Nat) : List Byte :=
  leBytes 2 status ++ leBytes 1 astat ++ leBytes 1 flags ++ leBytes 4 cid ++ leBytes 8 result ++ leBytes 8 end_ ++
    leBytes 4 dur ++ leBytes 4 energy

/-- PHASE of record n in a ring of 2 to the l slots (R302). -/
def phaseBit (l n : Nat) : Nat := 1 - n / 2 ^ l % 2

/-- A record with its flags byte set. -/
def withFlags (r : List Byte) (flags : Nat) : List Byte := r.take 3 ++ leBytes 1 flags ++ r.drop 4

/-- Modulo 2 to the 32, as the ring indices count (R302). -/
def mod32 (n : Nat) : Nat := n % 2 ^ 32

/-- The difference of two ring indices modulo 2 to the 32 (DEDUCED, log entry 88). -/
def sub32 (a b : Nat) : Nat := (a + 2 ^ 32 - b % 2 ^ 32) % 2 ^ 32

/-- Put a queue in ERROR. -/
def Dev.queueError (d : Dev) (q : Nat) : Dev :=
  let d := d.updQueue q (fun x => { x with state := .error })
  if isAdmin q then d.setFld (R.HIF_ADMQ_CFG (q - 4096)) F.HIF_ADMQ_CFG_STATE 2 else d

/-- Write one record into the CQ of a queue; a write that fails puts the queue in ERROR for good (R295). -/
def Dev.writeRecord (d : Dev) (q : Nat) (x : Queue) (rcd : List Byte) (held irq : Bool) : Dev :=
  let slot := x.written % 2 ^ x.log2
  let bs := withFlags rcd (phaseBit x.log2 x.written + 2 * b2n held)
  match d.hostWrite x.fn (x.cq + slot * 32) bs with
  | some d =>
    let d := d.updQueue q (fun x => { x with written := mod32 (x.written + 1) })
    if irq then d.msix x.fn x.vector else d
  | none =>
    let d := (d.accessFailed).raise { code := 0x0B12, fault := true, fn := x.fn, ctx := d.queueCtx q, args := [q, natAt rcd 4 4] }
    (d.queueError q).updQueue q (fun x => { x with recordLost := true })

/-- Where a finished descriptor's record goes: into the CQ; held in orphan mode, at most 64; discarded after a failed
record write, or for an admin queue that is not enabled (R295, R317). -/
def Dev.postRecord (d : Dev) (q : Nat) (rcd : List Byte) (irq : Bool) : Dev :=
  match d.queue q with
  | none => d
  | some x =>
    if x.recordLost then d
    else if isAdmin q && d.fld (R.HIF_ADMQ_CFG (q - 4096)) F.HIF_ADMQ_CFG_ENABLE = 0 then
      { d with fns := alter (q - 4096) (fun f => { f with adminLost := f.adminLost + b2n f.orphan }) d.fns }
    else if x.suppressed then
      d.updQueue q (fun x => if 64 ≤ x.held.length then x else { x with held := x.held ++ [rcd] })
    else d.writeRecord q x rcd false irq

/-- The event range that a descriptor's trace records stand in (R13, R341): that of the unit which does its work. -/
def descRange (typ : Nat) : Nat :=
  match typ with
  | 13 => 0x02
  | 14 => 0x05
  | 15 => 0x06
  | 16 => 0x07
  | 17 => 0x07
  | 18 => 0x08
  | 19 => 0x08
  | 20 => 0x09
  | 21 => 0x0A
  | _ => 0x0B

/-- A START or DONE record of the trace: the queue and CID of a descriptor in DATA0 (R341). -/
def Dev.traceDesc (d : Dev) (kind q : Nat) (x : Desc) (data1 : Nat) : Dev :=
  d.traceAt (tracePoint (descRange x.typ) kind) 0xFFFF (d.queueCtx q) 0xFFFF (q + x.cid * 2 ^ 32) data1

/-- WAITERS follows the pending waits, saturating at 255 (R98). -/
def Dev.countWaiters (d : Dev) (o : Nat) : Dev :=
  d.setFld (R.SYN_OBJ o) F.SYN_OBJ_WAITERS (min 255 (d.waits.filter (fun w => w.obj = o)).length)

/-- The waits of one waiter end without a result (R95, R312). -/
def Dev.dropWaits (d : Dev) (who : Waiter) : Dev :=
  let objs := (d.waits.filter (fun w => w.who = who)).map (·.obj)
  objs.foldl (fun d o => d.countWaiters o) { d with waits := d.waits.filter (fun w => w.who ≠ who) }

/-- A descriptor leaves its queue with its record, and adds its status flags to its context's (R54, R307); an
UPDATE counts in UPD_STAT.UPDATES, whatever its status (R242). -/
def Dev.completeRaw (d : Dev) (q n status result : Nat) : Dev :=
  match d.desc q n with
  | none => d
  | some x =>
    let dur := if x.phase = .running then min ((d.now - x.start) / 16) (2 ^ 32 - 1) else 0
    let status := if x.expired && status = stResigned then stTimeout else status
    let d := d.traceDesc 2 q x (status + min (x.energy / 1000) (2 ^ 32 - 1) * 2 ^ 32)
    let rcd := recordBytes status x.astat 0 x.cid (result % 2 ^ 64) d.now dur (min (x.energy / 1000) (2 ^ 32 - 1))
    let d := d.updQueue q (fun y => { y with
      fetched := y.fetched.filter (fun z => z.n ≠ n)
      orphanedDone := y.orphanedDone + b2n (status = stOrphaned && y.suppressed) })
    let d := if isAdmin q then d else d.updCtx (d.queueCtx q) (fun c => { c with astat := c.astat ||| x.astat })
    let d := if x.typ = 18 && !isAdmin q then d.satFld R.UPD_STAT F.UPD_STAT_UPDATES 1 else d
    (d.dropWaits (.desc q n)).postRecord q rcd x.irq

/-! ### Tiles -/

/-- Change a tile. -/
def Dev.updTile (d : Dev) (t : Nat) (f : Tile → Tile) : Dev :=
  { d with tiles := put t (f ((look t d.tiles).getD Tile.blank)) d.tiles }

/-- A tile. -/
def Dev.tile (d : Dev) (t : Nat) : Tile := (look t d.tiles).getD Tile.blank

/-! ### The scheduling pass (R337, R338) -/

/-- The rank of a class (R337): 0 REALTIME, 1 NORMAL, 2 BULK, 3 URGENT. -/
def classRank (c : Nat) : Nat := match c with | 0 => 2 | 1 => 1 | 2 => 0 | _ => 3

/-- The class of a rank. -/
def rankClass (r : Nat) : Nat := match r with | 2 => 0 | 1 => 1 | 0 => 2 | _ => 3

/-- The head of a queue: its first descriptor that has not started. -/
def Queue.headDesc (x : Queue) : Option Desc := x.fetched.find? (fun y => y.phase ≠ .running)

/-- Whether a head is ready: fetched, its FENCE satisfied, not yet dispatched (R337). -/
def Queue.readyHead (x : Queue) : Option Desc :=
  match x.headDesc with
  | none => none
  | some h =>
    if h.phase = .fetched && (!h.fence || (x.fetched.head?.map (·.n)) = some h.n) then some h else none

/-- Whether a tile is usable and free: IDLE, and not set aside for a dispatched pipeline (R100). -/
def Dev.tileFree (d : Dev) (t : Nat) : Bool :=
  d.fld (R.TIL_STATE t) F.TIL_STATE_STATE = 1 && (d.tile t).pipe.isNone &&
    d.queues.all (fun e => e.2.fetched.all (fun y =>
      y.phase = .running || !(y.tiles.any (fun ts => ts.contains t))))

/-- A usable tile of the floor plan: neither retired nor fenced, its cluster permitted, wide enough (R100). -/
def Dev.tileEligible (d : Dev) (minWidth clusters : Nat) (active : Bool) (t : Nat) : Bool :=
  decide (d.fld (R.TIL_STATE t) F.TIL_STATE_STATE < 4) && d.fld (R.TIL_WIDTH t) F.TIL_WIDTH_RETIRED = 0 &&
    decide (minWidth ≤ d.fld (R.TIL_WIDTH t) F.TIL_WIDTH_WIDTH) && (clusters = 0 || clusters.testBit (t / 16)) &&
    (!active || (d.fld R.MGT_PERSONA F.MGT_PERSONA_ACTIVE_CLUSTERS).testBit (t / 16))

/-- What a stage needs: tiles, minimum width, permitted clusters. -/
structure StageNeed where
  tiles : Nat
  minWidth : Nat
  clusters : Nat
  deriving DecidableEq, Repr

/-- Give each stage in turn the lowest tiles that remain, ascending. -/
def Dev.placeGreedy (d : Dev) (active : Bool) : List StageNeed → List Nat → Option (List (List Nat))
  | [], _ => some []
  | s :: r, free =>
    let pick := (free.filter (d.tileEligible s.minWidth s.clusters active)).take s.tiles
    if pick.length < s.tiles then none
    else (d.placeGreedy active r (free.filter (fun t => !pick.contains t))).map (pick :: ·)

/-- Look through a stage's permitted tiles for one that is free, or whose stage can move to another. `own` pairs a tile with
its stage, `seen` holds the tiles tried. -/
def placeTry (again : Nat → List (Nat × Nat) → List Nat → Option (List (Nat × Nat)) × List Nat) (s : Nat) :
    List Nat → List (Nat × Nat) → List Nat → Option (List (Nat × Nat)) × List Nat
  | [], _, seen => (none, seen)
  | t :: r, own, seen =>
    if seen.contains t then placeTry again s r own seen
    else
      match own.find? (fun e => e.1 = t) with
      | none => (some ((t, s) :: own), t :: seen)
      | some e =>
        match again e.2 (own.filter (fun x => x.1 ≠ t)) (t :: seen) with
        | (some own, seen) => (some ((t, s) :: own), seen)
        | (none, seen) => placeTry again s r own seen

/-- One more tile for stage `s`, with at most `fuel` stages moved. -/
def placeOne (permitted : List (List Nat)) :
    (fuel : Nat) → Nat → List (Nat × Nat) → List Nat → Option (List (Nat × Nat)) × List Nat
  | 0, _, _, seen => (none, seen)
  | n + 1, s, own, seen => placeTry (placeOne permitted n) s (permitted.getD s []) own seen

/-- A placement that meets R100 wherever one exists: tile by tile, stages that overlap give way to each other. -/
def Dev.placeMatch (d : Dev) (active : Bool) (needs : List StageNeed) (free : List Nat) : Option (List (List Nat)) :=
  let permitted := needs.map (fun s => free.filter (d.tileEligible s.minWidth s.clusters active))
  let wanted := ((needs.zip (List.range needs.length)).map (fun e => List.replicate e.1.tiles e.2)).flatten
  let own : Option (List (Nat × Nat)) := wanted.foldl (fun own s =>
    own.bind (fun (own : List (Nat × Nat)) => (placeOne permitted 257 s own []).1)) (some [])
  own.map (fun (own : List (Nat × Nat)) => (List.range needs.length).map (fun i => free.filter (fun t => own.contains (t, i))))

/-- As many of the tiles that a pipeline needs as are free: stage by stage, stages giving way to each other (R338). -/
def Dev.placeSome (d : Dev) (active : Bool) (needs : List StageNeed) (free : List Nat) : List Nat :=
  let permitted := needs.map (fun s => free.filter (d.tileEligible s.minWidth s.clusters active))
  let wanted := ((needs.zip (List.range needs.length)).map (fun e => List.replicate e.1.tiles e.2)).flatten
  (wanted.foldl (fun (own : List (Nat × Nat)) s => (placeOne permitted 257 s own []).1.getD own) []).map (fun e => e.1)

/-- Numbers in rising order. -/
def ascending : List Nat → Bool
  | a :: b :: r => decide (a < b) && ascending (b :: r)
  | _ => true

/-- Whether a placement gives every stage its tiles from the free ones, no tile twice, in ascending order (R100). -/
def Dev.placementOk (d : Dev) (active : Bool) (needs : List StageNeed) (free : List Nat) (p : List (List Nat)) : Bool :=
  p.length = needs.length && p.flatten.length = p.flatten.eraseDups.length && p.flatten.all (free.contains ·) &&
    (p.zip needs).all (fun e => e.1.length = e.2.tiles && ascending e.1 &&
      e.1.all (d.tileEligible e.2.minWidth e.2.clusters active))

/-- The placement of a pipeline over a set of tiles. R100 says what it depends on and not which it is: a free value where it
is a placement, else the lowest tiles stage by stage, else any placement there is (DESIGN CHOICE, log entry 15). -/
def Dev.place (d : Dev) (active : Bool) (raw : List Byte) (needs : List StageNeed) (free : List Nat) : Option (List (List Nat)) :=
  let p := Config.placement raw free
  if d.placementOk active needs free p then some p
  else match d.placeGreedy active needs free with
    | some p => some p
    | none => d.placeMatch active needs free

/-- The stages' needs of a pipeline descriptor read into a table: the first part of the table is the pipeline descriptor, the
containers follow in stage order (R87, R99). -/
def stageNeeds (table : List Byte) : List StageNeed :=
  let nst := natAt table 2 1
  let base := 32 + 64 * nst + 16 * natAt table 3 1 + 8 * natAt table 4 2
  let entry : Nat → Nat := fun i => 32 + 64 * i
  let cbase : Nat → Nat := fun i => base + ((List.range i).map (fun j => natAt table (entry j + 8) 4)).foldl (· + ·) 0
  (List.range nst).map (fun i =>
    ⟨natAt table (entry i + 0x0C) 2, natAt table (cbase i + 0x0A) 1, natAt table (entry i + 0x10) 2⟩)

/-- Every tile number. -/
def allTiles : List Nat := List.range 256

/-- Whether the personality restricts pipelines to active clusters (R26). -/
def Dev.cacheMode (d : Dev) : Bool := d.persona = 3

/-- A candidate of a pass: queue, its head, effective rank, since. -/
structure Candidate where
  q : Nat
  h : Desc
  rank : Nat
  since : Nat
  deriving DecidableEq, Repr

/-- The order of a pass: rank descending, then since, then queue number (R338). -/
def candBefore (a b : Candidate) : Bool :=
  decide (b.rank < a.rank) || (a.rank = b.rank && (decide (a.since < b.since) || (a.since = b.since && decide (a.q < b.q))))

/-- The aging interval in ns (R337, R342). -/
def Dev.agingNs (d : Dev) : Nat := d.fld R.MGT_SCHED F.MGT_SCHED_AGING_MS * 1000000

/-- Whether the URGENT share of the window has run out (R339). -/
def Dev.urgentSpent (d : Dev) : Bool := d.fld R.MGT_SCHED F.MGT_SCHED_SPENT = 1

/-- Tiles bound to work that started from URGENT (R339). -/
def Dev.urgentTiles (d : Dev) : Nat :=
  d.pipes.foldl (fun n e => if (d.desc e.2.q e.2.n).any Desc.urgent then n + (e.2.stages.map (fun g => g.tiles.length)).foldl (· + ·) 0 else n) 0

/-- The tile time of the URGENT share is charged up to now; a new window of 40 ms starts from nothing (R339). -/
def Dev.urgentAccount (d : Dev) : Dev :=
  let w := d.now / 40000000
  let same := d.fw.urgentWindow = w
  let ns := if same then d.fw.urgentNs + d.urgentTiles * (d.now - d.fw.urgentMark)
    else d.urgentTiles * (d.now - w * 40000000)
  let d := { d with fw := { d.fw with urgentWindow := w, urgentNs := ns, urgentMark := d.now } }
  let d := d.setFld R.MGT_SCHED F.MGT_SCHED_URGENT_USED (min (ns / 1000000) 0xFFF)
  if same then d else d.setFld R.MGT_SCHED F.MGT_SCHED_SPENT 0

/-- Give a ready head its rank; a queue that reaches URGENT raises EVT 0x0C40 (R338). -/
def Dev.rankHead (d : Dev) (q : Nat) (x : Queue) (h : Desc) : Dev × Candidate :=
  let since := max x.lastService h.ready
  let r := min 3 (classRank x.base + (d.now - since) / d.agingNs)
  let r := if r = 3 && d.urgentSpent then 2 else r
  let d := if r = 3 && x.cls ≠ 3 then
      d.raise { code := 0x0C40, fn := x.fn, ctx := d.queueCtx q, args := [q] } else d
  (d.updQueue q (fun y => { y with cls := rankClass r }), ⟨q, h, r, since⟩)

/-- Rank every ready head of the work queues. -/
def Dev.rankAll (d : Dev) : List Nat → Dev × List Candidate
  | [] => (d, [])
  | q :: r =>
    match d.queue q with
    | none => d.rankAll r
    | some x =>
      match x.readyHead with
      | none => d.rankAll r
      | some h =>
        let (d, c) := d.rankHead q x h
        let (d, cs) := d.rankAll r
        (d, c :: cs)

/-- Dispatch a head. -/
def Dev.dispatch (d : Dev) (c : Candidate) (tiles : List (List Nat)) : Dev :=
  d.updDesc c.q c.h.n (fun y => { y with phase := .dispatched, urgent := c.rank = 3, tiles := tiles })

/-- Go through the candidates in order: a head whose tiles are free is dispatched; an URGENT head that waits reserves
those free tiles that it needs (R338). A pipeline the floor plan can never hold is dispatched and refused at binding (R100)
(DEDUCED, log entry 154). -/
def Dev.serve (d : Dev) (reserved : List Nat) : List Candidate → Dev
  | [] => d
  | c :: r =>
    if c.h.typ = 13 then
      let needs := stageNeeds c.h.table
      let free := allTiles.filter (fun t => d.tileFree t && !reserved.contains t)
      match d.place d.cacheMode c.h.table needs free with
      | some p => (d.dispatch c p).serve reserved r
      | none =>
        if (d.place d.cacheMode c.h.table needs allTiles).isNone then (d.dispatch c []).serve reserved r
        else if c.rank = 3 then
          d.serve (reserved ++ d.placeSome d.cacheMode needs free) r
        else d.serve reserved r
    else (d.dispatch c []).serve reserved r

/-- Dispatch the ready heads of the admin queues, in ring order; they have no class. -/
def Dev.serveAdmin (d : Dev) : List Nat → Dev
  | [] => d
  | q :: r =>
    match (d.queue q).bind Queue.readyHead with
    | none => d.serveAdmin r
    | some h => (d.updDesc q h.n (fun y => { y with phase := .dispatched })).serveAdmin r

/-- One scheduling pass: while the firmware runs (R338). -/
def Dev.pass (d : Dev) : Dev :=
  if d.fwRuns = false then d
  else
    let d := d.serveAdmin ((d.queues.map (·.1)).filter isAdmin)
    let (d, cs) := d.rankAll (sortBy (fun a b => decide (a < b)) ((d.queues.map (·.1)).filter (fun q => !isAdmin q)))
    d.serve [] (sortBy candBefore cs)

/-- Whether a ready head has crossed an aging boundary since `before`: the pass then gives its queue the class of its new
rank, as the example of R339 dates it (DEDUCED, log entry 30). -/
def Dev.agingDue (d : Dev) (before : Nat) : Bool :=
  d.fwRuns && d.queues.any (fun e => !isAdmin e.1 &&
    (match e.2.readyHead with
     | none => false
     | some h =>
       let since := max e.2.lastService h.ready
       decide ((before - since) / d.agingNs < (d.now - since) / d.agingNs) && decide ((before - since) / d.agingNs < 3)))

/-! ### Sync objects (R95 to R97) -/

/-- VALUE of an object. -/
def Dev.syncValue (d : Dev) (o : Nat) : Nat := d.fld (R.SYN_OBJ o) F.SYN_OBJ_VALUE

/-- Whether an object is allocated to a context. -/
def Dev.syncOwned (d : Dev) (o c : Nat) : Bool :=
  decide (o < 16384) && d.fld (R.SYN_OBJ o) F.SYN_OBJ_ALLOC = 1 && d.fld (R.SYN_OBJ o) F.SYN_OBJ_CTX = c

/-- A WAIT_BEGIN or WAIT_END record of the trace (R341). -/
def Dev.traceWait (d : Dev) (kind o v : Nat) (who : Waiter) : Dev :=
  let (unit, ctx) := match who with
    | .tile t => (t, (((d.tile t).pipe.bind (fun p => look p d.pipes)).map (·.ctx)).getD 0xFFFF)
    | .desc q _ => (0xFFFF, d.queueCtx q)
  d.traceAt (tracePoint 0x02 kind) unit ctx 0xFFFF o v

/-- A satisfied wait lets its tile or its descriptor proceed (R95): a SYNC_OP WAIT completes with OK, any other
descriptor may start. -/
def Dev.releaseWaiter (d : Dev) : Waiter → Dev
  | .tile t => d.updTile t (fun x => match x.seq with
      | .waitSync _ _ _ => x.advance
      | _ => x)
  | .desc q n =>
    match d.desc q n with
    | none => d
    | some x =>
      if x.typ = 11 then (d.completeRaw q n stOk 0).pass
      else d.updDesc q n (fun y => if y.phase = .waiting then { y with phase := .released } else y)

/-- Release every wait that the object's value satisfies (R95). -/
def Dev.releaseWaits (d : Dev) (o : Nat) : Dev :=
  let v := d.syncValue o
  let met : SyncWait → Bool := fun w => w.obj = o && decide (w.threshold ≤ v) && decide (d.now < w.deadline)
  let hit := d.waits.filter met
  let d := { d with waits := d.waits.filter (fun w => !met w) }
  let d := hit.foldl (fun d w => (d.traceWait 4 o v w.who).releaseWaiter w.who) d
  d.countWaiters o

/-- The job that a record about an object names: the one a signalling tile works for, else the one recorded with the object, else the
lowest open job of its context (R97, R104). -/
def Dev.syncJob (d : Dev) (o : Nat) (tile : Option Nat := none) : Nat :=
  let c := d.fld (R.SYN_OBJ o) F.SYN_OBJ_CTX
  match (tile.bind (fun t => (d.tile t).pipe)).bind (fun p => look p d.pipes) with
  | some p => p.job
  | none => if d.syncJobs.contains o then d.fld (R.SYN_OBJ o) F.SYN_OBJ_JOB
    else (lowest 4096 (fun j => match look j d.jobs with | some x => x.ctx = c | none => false)).getD 0xFFFF

/-- SIGNAL applied to a local object: the value is added and saturates at 2^32 − 1, with EVT 0x0202 when it does (R95). -/
def Dev.syncAdd (d : Dev) (o v : Nat) (tile : Option Nat := none) : Dev :=
  let sum := d.syncValue o + v % 2 ^ 32
  let d := d.setFld (R.SYN_OBJ o) F.SYN_OBJ_VALUE (min sum (2 ^ 32 - 1))
  let d := if 2 ^ 32 ≤ sum then
      (d.satFld R.SYN_STAT F.SYN_STAT_SATURATED 1).raise
        { code := 0x0202, fn := d.ctxFn (d.fld (R.SYN_OBJ o) F.SYN_OBJ_CTX), ctx := d.fld (R.SYN_OBJ o) F.SYN_OBJ_CTX,
          job := d.syncJob o tile, unit := tile.getD 0xFFFF, args := [o] }
    else d
  d.releaseWaits o

/-- SRESET applied to a local object: the value becomes 0 (R95). A wait with threshold 0 is satisfied at this application
point too. -/
def Dev.syncZero (d : Dev) (o : Nat) : Dev := (d.setFld (R.SYN_OBJ o) F.SYN_OBJ_VALUE 0).releaseWaits o

/-- SIGNAL: on a proxied object it goes to the peer instead (R95, R277). -/
def Dev.syncSignal (d : Dev) (o v : Nat) (tile : Option Nat := none) : Dev :=
  match d.proxyOf o with
  | some x => d.proxySend x tile 6 v
  | none => d.syncAdd o v tile

/-- SRESET: on a proxied object it goes to the peer instead (R95, R277). -/
def Dev.syncReset (d : Dev) (o : Nat) (tile : Option Nat := none) : Dev :=
  match d.proxyOf o with
  | some x => d.proxySend x tile 7 0
  | none => d.syncZero o

/-- A wait arrives at the fabric: satisfied at once, or pending until its window ends (R95, R96) (DESIGN CHOICE, log entry 123). -/
def Dev.syncWait (d : Dev) (o threshold window : Nat) (who : Waiter) : Dev :=
  if threshold ≤ d.syncValue o then d.releaseWaiter who
  else
    (({ d with waits := d.waits ++ [⟨o, threshold, who, d.now + window⟩] } : Dev).countWaiters o).traceWait 3 o threshold who

/-- A refused operation: counted (R97). -/
def Dev.syncRefused (d : Dev) : Dev := d.satFld R.SYN_STAT F.SYN_STAT_REFUSED 1

/-! ### Completion (R307) -/

/-- A descriptor completes: record, the signal of its SYNC object for OK, PARTIAL and STEP_SKIPPED, and a scheduling pass
(R307, R338) (DEDUCED, log entry 147). -/
def Dev.complete (d : Dev) (q n status result : Nat) : Dev :=
  match d.desc q n with
  | none => d
  | some x =>
    let d := d.completeRaw q n status result
    let d := match x.syncObj with
      | some o => if decide (status ≤ stSkipped) && x.phase == Phase.running && d.syncOwned o (d.queueCtx q) then d.syncSignal o 1 else d
      | none => d
    d.pass

/-- A descriptor is refused with INVALID and the event its chapter names. -/
def Dev.refuseDesc (d : Dev) (q n evt result : Nat) : Dev := (d.raise (d.descEvent evt q n)).complete q n stInvalid result

/-! ### Starting a dispatched head (R307, R309, R310) -/

/-- What a type's own checks answer: the status and result that refuse the descriptor, or the tables read. -/
abbrev Checked := Dev × Sum (Nat × Nat) (List Byte)

/-- A check that fails with an event and INVALID. -/
def Dev.badDesc (d : Dev) (q n evt result : Nat) : Checked :=
  (d.raise (d.descEvent evt q n), .inl (stInvalid, result))

/-- Where the body names the object of its signal, and of its wait (R306, R159, R189, R204, R211, R224, R239, R245). -/
def Desc.syncOffset (x : Desc) : Nat := match x.typ with | 12 => 0x2A | 18 => 0x12 | 19 => 0x12 | _ => 0x14

/-- Where the body names the object it waits on. -/
def Desc.waitOffset (x : Desc) : Nat := match x.typ with | 12 => 0x2C | 18 => 0x14 | 19 => 0x14 | 20 => 0x16 | _ => 0x12

/-- The field of the first sync object that the body names for an enabled signal or wait and that is not allocated to the
descriptor's context (R309). -/
def Dev.syncNamesBad (d : Dev) (q : Nat) (x : Desc) : Option Nat :=
  let bad : Nat → Bool := fun o => !d.syncOwned o (d.queueCtx q)
  if x.syncObj.any bad then some x.syncOffset
  else if x.namedWait.any (fun w => bad w.1) then some x.waitOffset
  else none

/-- A descriptor starts (R307): LAST_SERVICE of its queue, whose class returns to its base (R338). -/
def Dev.markStart (d : Dev) (q n : Nat) : Dev :=
  let d := match d.desc q n with
    | some x => d.traceDesc 1 q x x.typ
    | none => d
  (d.updDesc q n (fun y => { y with phase := .running, start := d.now })).updQueue q (fun x =>
    { x with lastService := d.now, cls := x.base })

/-- Whether a job is in its quiet period (R315). -/
def Dev.quietNow (d : Dev) (job : Nat) : Bool :=
  match look job d.quiet with
  | some (t, _) => decide (d.now < t)
  | none => false

/-- A descriptor that has passed its checks and the wait it names starts; a collective in the quiet period of its job waits for the
period's end (R307, R315). -/
def Dev.startHead (d : Dev) (q : Nat) (x : Desc) (start : Dev → Nat → Desc → Dev) : Dev :=
  if x.typ = 20 && d.quietNow (natAt x.table 0 2) then d.updDesc q x.n (fun y => { y with phase := .released })
  else (start (d.markStart q x.n) q { x with phase := .running, start := d.now }).pass

/-- Run the head of a queue when it is one that `pick` wants and the scheduling pass has dispatched it: its own checks, then
the wait its body names, then its start. A head released from its wait starts. While the firmware is down none starts (R323). -/
def Dev.runHead (d : Dev) (q : Nat) (pick : Desc → Bool) (check : Dev → Nat → Desc → Checked)
    (start : Dev → Nat → Desc → Dev) : Dev :=
  match (d.queue q).bind Queue.headDesc with
  | none => d
  | some x =>
    if pick x = false || d.fwRuns = false then d
    else
      match x.phase with
      | .released => d.startHead q x start
      | .dispatched =>
        match check d q x with
        | (d, .inl (st, res)) => d.complete q x.n st res
        | (d, .inr table) =>
          let x := { x with table := table }
          let d := d.updDesc q x.n (fun y => { y with table := table })
          match d.syncNamesBad q x with
          | some off => d.refuseDesc q x.n 0x0B15 (invalidAt 0x0B15 off)
          | none =>
            match x.namedWait with
            | none => d.startHead q x start
            | some (o, thr, window) =>
              if (d.proxyOf o).isSome then
                (d.satFld R.SYN_STAT F.SYN_STAT_REFUSED 1).refuseDesc q x.n 0x0B15 (invalidAt 0x0B15 x.waitOffset)
              else if thr ≤ d.syncValue o && x.typ ≠ 11 then d.startHead q x start
              else
                (d.updDesc q x.n (fun y => { y with phase := .waiting })).syncWait o thr window (.desc q x.n)
      | _ => d

/-! ### Contexts (R300, R301) -/

/-- The queues of a context. -/
def Dev.ctxQueues (d : Dev) (c : Nat) : List Nat :=
  (d.queues.filter (fun e => !isAdmin e.1 && e.2.ctx = c)).map (·.1)

/-- Every descriptor of a queue that has not started, in ring order. -/
def Dev.unstarted (d : Dev) (q : Nat) : List Nat :=
  match d.queue q with
  | some x => (x.fetched.filter (fun y => y.phase ≠ .running)).map (·.n)
  | none => []

/-- A context enters FAULTED: the first fault is recorded, every descriptor that has not started completes with CTX_FAULTED
(R301). -/
def Dev.ctxFault (d : Dev) (c evt tile pc : Nat) : Dev :=
  match look c d.ctxs with
  | none => d
  | some x =>
    let first := x.state = .active || (x.state = .resigning && x.faultEvt = 0)
    let d := if first then d.updCtx c (fun y => { y with
        state := if y.state = .resigning then .resigning else .faulted, faultEvt := evt, faultPc := pc, faultTile := tile }) else d
    (d.ctxQueues c).foldl (fun d q => (d.unstarted q).foldl (fun d n => d.completeRaw q n stCtxFaulted 0) d) d

end Sys2Proof.Machine
end

