-- ==== Sys2Proof/Machine/Slots.lean ====
section
/-! DEFINITION. A sampler's slots and its running descriptor as the pipelines and the sampler share them: a stream taken down,
messages leaving a slot, the end of a descriptor (R94, R202, R209, R214, R216). -/

namespace Sys2Proof.Machine

/-- Lines of 128 bytes that a message takes (R92). -/
def lineCount (bytes : Nat) : Nat := (bytes + 127) / 128

/-- Change a stream. -/
def Dev.updStream (d : Dev) (sid : Nat) (f : Stream → Stream) : Dev := { d with streams := alter sid f d.streams }

/-- A sampler by number. -/
def Dev.sampler (d : Dev) (n : Nat) : Sampler := (look n d.smp).getD { slots := [], cmds := [] }

/-- Change a sampler. -/
def Dev.updSampler (d : Dev) (n : Nat) (f : Sampler → Sampler) : Dev := { d with smp := put n (f (d.sampler n)) d.smp }

/-- Change a slot of a sampler. -/
def Dev.updSlot (d : Dev) (n k : Nat) (f : Slot → Slot) : Dev :=
  d.updSampler n (fun x => { x with slots := alter k f x.slots })

/-- A sampler's bound slots as SMP_STAT shows them (R216). -/
def Dev.showSlots (d : Dev) (n : Nat) : Dev :=
  let bound := match look n d.smp with
    | some x => x.slots.foldl (fun m e => m ||| 2 ^ e.1) 0
    | none => 0
  d.setFld (R.SMP_STAT n) F.SMP_STAT_SLOTS bound

/-- Take a stream down: messages in flight are discarded (R94) and its sampler slot and multicast group are freed (R117, R202). -/
def Dev.dropStream (d : Dev) (sid : Nat) (st : Stream) : Dev :=
  let d := match st.sampler with
    | none => d
    | some n =>
      ({ d with smp := alter n (fun x => { x with slots := x.slots.filter (fun e => e.2.sid ≠ sid) }) d.smp } : Dev).showSlots n
  let d := match st.group with
    | none => d
    | some g =>
      ({ d with noc := { d.noc with groups := d.noc.groups.filter (fun e => e.1 ≠ g) } } : Dev).setReg (R.NOC_MCAST g) 0
  { d with streams := d.streams.filter (fun e => e.1 ≠ sid) }

/-- A slot whose pipeline has ended and whose messages have all been taken is freed (DESIGN CHOICE, log entry 18). -/
def Dev.slotDrained (d : Dev) (n k : Nat) : Dev :=
  match look k (d.sampler n).slots with
  | none => d
  | some s =>
    match look s.sid d.streams with
    | none => d
    | some st => if s.ended && s.msgs.isEmpty && st.flight.isEmpty then d.dropStream s.sid st else d

/-- Messages leave a slot: their credits go back to their producers (R92, R94). -/
def Dev.slotDrops (d : Dev) (n k : Nat) (gone kept : List (Nat × List Byte)) : Dev :=
  match look k (d.sampler n).slots with
  | none => d
  | some s =>
    let d := d.updSlot n k (fun s => { s with msgs := kept })
    let d := d.updStream s.sid (fun st => { st with
      returning := gone.foldl (fun l m =>
        let key := (st.prods.getD m.1 0, 16 * n + k)
        put key ((look key l).getD 0 + lineCount m.2.length) l) st.returning })
    d.slotDrained n k

/-- The messages left in slots 0 to `k` − 1 of a sampler are discarded (R94, R214). -/
def Dev.slotsDiscard (d : Dev) (n k : Nat) : Dev :=
  (List.range k).foldl (fun d i => match look i (d.sampler n).slots with
    | some s => d.slotDrops n i s.msgs []
    | none => d) d

/-- The accepted descriptors that wait, as SMP_STAT shows them; its STATE is computed when it is read (R216). -/
def Dev.smpShow (d : Dev) (n : Nat) : Dev :=
  d.setFld (R.SMP_STAT n) F.SMP_STAT_QUEUED (min 65535 ((d.sampler n).cmds.length - 1))

/-- The descriptor that runs on a sampler ends: the next one runs from now on. -/
def Dev.smpEnd (d : Dev) (n status result : Nat) : Dev :=
  match (d.sampler n).cmds with
  | [] => d
  | c :: r =>
    let now := d.now
    let d := d.updSampler n (fun x => { x with cmds := match r with | [] => [] | y :: z => { y with since := now } :: z })
    (d.complete c.q c.n status result).smpShow n

/-- A gambit descriptor that a resign covers finishes its sequence in hand; where a slot it needs is gone, no row can come any
more, and it ends there with RESIGNED (R214). -/
def Dev.smpStarved (d : Dev) (n : Nat) : Dev :=
  match (d.sampler n).cmds with
  | [] => d
  | c :: _ =>
    let k := match d.desc c.q c.n with | some x => x.body 0x01 1 | none => 0
    if c.stopping && (List.range k).any (fun i => (look i (d.sampler n).slots).isNone) then (d.slotsDiscard n k).smpEnd n stResigned 0
    else d

end Sys2Proof.Machine
end

