-- ==== Sys2Proof/Machine/Tile.lean ====
section
/-! DEFINITION. What the operations of a tile share: whose turn it is, tile faults and the halt of a pipeline (R64, R101,
R102), tile SRAM (R69, R71, R86), operand access (R85, R86) and the store path (R42, R43, R48, R53, R85). -/

namespace Sys2Proof.Machine

/-! ### Halting and completing pipelines (R72, R94, R101, R102) -/

/-- A tile goes back to IDLE with its SRAM and its last context kept (R72, R101); in a fenced cluster to FENCED (R355). What the
tile worked for is kept until the power window ends (R372). -/
def Dev.freeTile (d : Dev) (c t : Nat) : Dev :=
  let d := match (d.tile t).pipe.bind (fun i => look i d.pipes) with
    | some p => { d with pwr := { d.pwr with lastWork := put t (p.q, p.n, c) d.pwr.lastWork } }
    | none => d
  let d := d.updTile t (fun x => { x with
    pipe := none, lastCtx := some c, seq := .idle, gwrites := [], branch := none, halting := false, inbox := [], rounds := [],
    discarded := [], slots := 0, latwait := [], loading := none })
  if d.fld (R.TIL_STATE t) F.TIL_STATE_STATE = 2 || d.fld (R.TIL_STATE t) F.TIL_STATE_STATE = 3 then
    d.setFld (R.TIL_STATE t) F.TIL_STATE_STATE (if d.fld (R.CLU_IVR (t / 16)) F.CLU_IVR_TIER = 2 then 5 else 1) else d

/-- The tiles of a pipeline. -/
def Pipe.tiles (p : Pipe) : List Nat := p.stages.flatMap (fun s => s.tiles)

/-- Whether a sampler still has messages of a stream to take: in flight, or in its slot buffer. -/
def Dev.streamHolds (d : Dev) (sid : Nat) (st : Stream) : Bool :=
  match st.sampler with
  | none => false
  | some n => !st.flight.isEmpty || (match look n d.smp with
    | some x => x.slots.any (fun e => e.2.sid = sid && !e.2.msgs.isEmpty)
    | none => false)

/-- A stream of a pipeline that ends: one to a sampler whose messages have not all been taken stays, with its slot, until they
have, when the pipeline ended well; every other is taken down (R94, R101, R202, DESIGN CHOICE, log entry 18). -/
def Dev.endStream (d : Dev) (ok : Bool) (sid : Nat) (st : Stream) : Dev :=
  if ok && d.streamHolds sid st then
    let d := { d with streams := alter sid (fun x => { x with pipe := 4096 }) d.streams }
    match st.sampler with
    | none => d
    | some n => { d with smp := alter n (fun x => { x with
        slots := x.slots.map (fun e => if e.2.sid = sid then (e.1, { e.2 with ended := true }) else e) }) d.smp }
  else d.dropStream sid st

/-- A pipeline ends: its streams and tiles are freed and its descriptor completes (R101, R102); a gambit descriptor that a resign
covers and that waits on a slot gone with it ends too (R214). -/
def Dev.endPipe (d : Dev) (pid status result : Nat) : Dev :=
  match look pid d.pipes with
  | none => d
  | some p =>
    let d := (d.streams.filter (fun e => e.2.pipe = pid)).foldl (fun d e => d.endStream (status = stOk) e.1 e.2) d
    let d := p.tiles.foldl (fun d t => d.freeTile p.ctx t) d
    let d := { d.urgentAccount with pipes := drop1 pid d.pipes }
    (List.range 16).foldl Dev.smpStarved (d.complete p.q p.n status result)

/-- A pipeline that is to end does so once every tile has halted or passed HALT (R102). -/
def Dev.pipeCheck (d : Dev) (pid : Nat) : Dev :=
  match look pid d.pipes with
  | none => d
  | some p =>
    match p.ending with
    | none => d
    | some (st, res) =>
      if p.tiles.all (fun t => (d.tile t).seq == .halted || (d.tile t).seq == .done) then d.endPipe pid st res else d

/-- Whether a tile stands at a bundle boundary: no operation of its bundle has been performed. -/
def Tile.atBoundary (x : Tile) : Bool :=
  x.gwrites.isEmpty && x.branch.isNone && ({ x with slot := 0 } : Tile).nextSlot = some x.slot

/-- A message to a halted tile is discarded: EVT 0x0206 once for each port (R94). -/
def Dev.discardOnce (d : Dev) (pid t port : Nat) : Dev :=
  let x := d.tile t
  if x.discarded.contains port then d
  else
    let d := d.updTile t (fun x => { x with discarded := port :: x.discarded })
    let c := match look pid d.pipes with | some p => p.ctx | none => 0xFFFF
    let j := match look pid d.pipes with | some p => p.job | none => 0xFFFF
    d.raise { code := 0x0206, fn := d.ctxFn c, ctx := c, job := j, unit := t, args := [port] }

/-- A tile that has halted discards its port buffers (R94). -/
def Dev.dropInbox (d : Dev) (t : Nat) : Dev :=
  let x := d.tile t
  match x.pipe with
  | none => d
  | some pid =>
    let d := d.updTile t (fun x => { x with inbox := [] })
    ((x.inbox.map (fun m => m.port)).eraseDups).foldl (fun d p => d.discardOnce pid t p) d

/-- A tile is HALTED: its port buffers go (R94), and its array runs down with shadow issues only (R64). -/
def Dev.tileHalted (d : Dev) (t : Nat) : Dev :=
  let d := (d.updTile t (fun x => { x with seq := .halted, halting := false, slots := 0 })).dropInbox t
  (d.setFld (R.TIL_STATE t) F.TIL_STATE_STATE 3).setFld (R.TIL_ARRAY_STAT t) F.TIL_ARRAY_STAT_LATENT 0

/-- A tile stops: at once at a bundle boundary or in a wait, else at the end of its bundle (R64, R94, R312). -/
def Dev.haltTile (d : Dev) (t : Nat) : Dev :=
  let x := d.tile t
  let stop := match x.seq with
    | .run => x.atBoundary || decide (x.code.length ≤ x.pc)
    | .done => false
    | _ => true
  let d := d.dropWaits (.tile t)
  if stop then d.tileHalted t else d.updTile t (fun x => { x with halting := true })

/-- Whether a tile takes part in the castling in progress (R394). -/
def Dev.castling (d : Dev) (t : Nat) : Bool := d.thm.castle.any (fun k => k.hot = t || k.cool = t)

/-- A castling is abandoned: counted, with EVT 0x0E41; both tiles resume (R394). -/
def Dev.castleAbandon (d : Dev) : Dev :=
  match d.thm.castle with
  | none => d
  | some k =>
    (({ d with thm := { d.thm with castle := none } } : Dev).satFld R.THM_CASTLE F.THM_CASTLE_ABANDONED 1).raise
      { code := 0x0E41, unit := k.hot, args := [0, k.hot, k.cool] }

/-- A pipeline halts and will complete with a status (R102, R312); the first reason stands (DEDUCED, log entry 51). -/
def Dev.haltPipe (d : Dev) (pid status result : Nat) : Dev :=
  match look pid d.pipes with
  | none => d
  | some p =>
    if p.ending.isSome then d
    else
      let d := { d with pipes := alter pid (fun p => { p with ending := some (status, result) }) d.pipes }
      let d := if p.tiles.any d.castling then d.castleAbandon else d
      let d := p.tiles.foldl (fun d t => d.haltTile t) d
      d.pipeCheck pid

/-- The context and job that a tile works for. -/
def Dev.tilePipe (d : Dev) (t : Nat) : Option (Nat × Pipe) :=
  (d.tile t).pipe.bind (fun pid => (look pid d.pipes).map (fun p => (pid, p)))

/-- Whether the job that a tile works for is being purged (R123). -/
def Dev.jobPurged (d : Dev) (t : Nat) : Bool :=
  match d.tilePipe t with
  | some (_, p) => d.purgingNow p.job
  | none => false

/-- The context of a tile's stage. -/
def Dev.tileCtx (d : Dev) (t : Nat) : Nat :=
  match d.tilePipe t with
  | some (_, p) => p.ctx
  | none => 0

/-- Why an operation of a tile stops its program: a fault rule with its event, or an uncorrectable error in memory or in
SRAM (its event is raised already) with its address. -/
inductive Stop where
  | fault (evt : Nat)
  | ue (evt addr : Nat)
  deriving DecidableEq, Repr

/-- A tile program stops under a fault rule (R102, R301, R308): TIL_FAULT, the event, the context, the pipeline. `names` is
what the event's rule names beside the tile. -/
def Dev.tileStop (d : Dev) (t : Nat) (why : Stop) (names : List Nat := []) : Dev :=
  match d.tilePipe t with
  | none => d
  | some (pid, p) =>
    let pc := (d.tile t).pc
    let evt := match why with | .fault e => e | .ue e _ => e
    let d := (d.setFld (R.TIL_FAULT t) F.TIL_FAULT_EVENT evt).setFld (R.TIL_FAULT t) F.TIL_FAULT_PC pc
    let d := match why with
      | .fault e => d.raise { code := e, fault := true, fn := d.ctxFn p.ctx, ctx := p.ctx, job := p.job, unit := t, args := pc :: names }
      | .ue _ _ => d
    let d := d.ctxFault p.ctx evt t pc
    let d := d.tileHalted t
    match why with
    | .fault e => (d.haltPipe pid stFault (e + t * 2 ^ 16 + pc * 2 ^ 32)).pipeCheck pid
    | .ue _ a => (d.haltPipe pid stUe a).pipeCheck pid

/-! ### Performing one operation -/

/-- A tile of an ending pipeline halts at its next boundary, or before a wait that its bundle meets (R102). -/
def Dev.haltNow (d : Dev) (t : Nat) : Dev :=
  let d := d.tileHalted t
  match (d.tile t).pipe with
  | some pid => d.pipeCheck pid
  | none => d

/-- The tile's operation has completed: the next one, the end of the bundle, or the halt that waited for it. -/
def Dev.opDone (d : Dev) (t : Nat) (g : Tile → Tile) : Dev :=
  let d := d.updTile t (fun x => (g x).advance)
  let x := d.tile t
  if x.seq = .halted then d.haltNow t else d

/-- Perform the next operation of a tile if it is the one named: slot and opcode. -/
def Dev.tileOp (d : Dev) (t slot code : Nat) (f : Dev → Tile → Nat → Dev) : Dev :=
  let x := d.tile t
  if x.seq = .run && x.nextSlot = some slot && slotOp x.bundle slot = code && !(d.castling t && x.atBoundary) then f d x (slotWord x.bundle slot) else d

/-- A row that performs an operation of tile t. -/
def tileRow (t slot code : Nat) (s : State) (f : Dev → Tile → Nat → Dev) : Out :=
  onUnit "tile" 256 t s (fun d => d.tileOp t slot code f)

/-- The usable width of a tile (R65, R66). -/
def Dev.width (d : Dev) (t : Nat) : Nat := d.fld (R.TIL_WIDTH t) F.TIL_WIDTH_WIDTH

/-! ### Tile SRAM (R69, R71, R72) -/

/-- One upset of SRAM: the wrong symbols are added together. -/
def oneUpset (l : List (Nat × Byte)) (e : (Nat × Nat) × Byte) : List (Nat × Byte) :=
  if decide (e.1.1 < 131072) && decide (e.1.2 < 77) then
    canonSet zeroByte l (e.1.1 * 128 + e.1.2) (canonGet zeroByte l (e.1.1 * 128 + e.1.2) ^^^ e.2)
  else l

/-- Upsets strike a tile's SRAM (DEDUCED, log entry 44). -/
def Dev.upsets (d : Dev) (t : Nat) (u : Upsets) : Dev :=
  if u.isEmpty then d else d.updTile t (fun x => { x with sramErr := u.foldl oneUpset x.sramErr })

/-- A corrected SRAM error is counted; the sixteenth in 1 ms raises EVT 0x0103 (R71). -/
def Dev.sramCe (d : Dev) (t : Nat) : Dev :=
  let d := d.satFld (R.TIL_SRAM_ERR t) F.TIL_SRAM_ERR_CE_COUNT 1
  let ts := d.now :: recent d.now (d.tile t).ceTimes
  let d := d.updTile t (fun x => { x with ceTimes := if 16 ≤ ts.length then [] else ts })
  if 16 ≤ ts.length then
    d.raise { code := 0x0103, ctx := d.tileCtx t, unit := t }
  else d

/-- Decode the granules of a run that hold wrong symbols, in address order (R71): the offset of the first that cannot be
corrected. -/
def Dev.sramGranules (d : Dev) (t : Nat) : List Nat → Dev × Option Nat
  | [] => (d, none)
  | g :: r =>
    let w : Wrong := ((d.tile t).sramErr.filter (fun e => e.1 / 128 = g)).map (fun e => (e.1 % 128, e.2))
    match decodeWord w with
    | .clean => d.sramGranules t r
    | .corrected _ _ => (d.sramCe t).sramGranules t r
    | _ =>
      let d := d.satFld (R.TIL_SRAM_ERR t) F.TIL_SRAM_ERR_UE_COUNT 1
      (d.raise { code := 0x0104, fault := true, ctx := d.tileCtx t, unit := t, args := [g * 64] }, some (g * 64))

/-- Read a run of SRAM. -/
def Dev.sramRead (d : Dev) (t a len : Nat) : Dev × Sum Stop (List Byte) :=
  if sramIn a len = false then (d, .inl (.fault 0x0207))
  else
    let gs := (((d.tile t).sramErr.map (fun e => e.1 / 128)).filter (fun g =>
      decide (a < g * 64 + 64) && decide (g * 64 < a + len))).eraseDups
    match d.sramGranules t gs with
    | (d, some x) => (d, .inl (.ue 0x0104 x))
    | (d, none) => (d, .inr (readCells (d.tile t).sram a len))

/-- Write a run of SRAM: granules it covers whole hold no wrong symbols afterwards. -/
def Tile.sramPut (x : Tile) (a : Nat) (bs : List Byte) : Tile :=
  { x with
    sram := writeCells x.sram a bs
    sramErr := x.sramErr.filter (fun e => !(decide (a ≤ e.1 / 128 * 64) && decide (e.1 / 128 * 64 + 64 ≤ a + bs.length))) }

/-! ### Operand access (R85, R86) -/

/-- Read one run of an operand: SRAM, or memory of the tile's context (R86, R143) (DEDUCED, log entry 39). -/
def Dev.runRead (d : Dev) (t : Nat) (mem : Bool) (a len : Nat) : Dev × Sum Stop (List Byte) :=
  if mem then
    let c := d.tileCtx t
    if d.owns c a len = false then (d, .inl (.fault 0x0209))
    else
      match d.memCheckRead { ctx := c } a len with
      | (d, some g) => (d, .inl (.ue 0x0402 g))
      | (d, none) => (d, .inr (d.memBytes a len))
  else d.sramRead t a len

/-- Write one run of an operand. -/
def Dev.runWrite (d : Dev) (t : Nat) (mem : Bool) (a : Nat) (bs : List Byte) : Dev × Option Stop :=
  if mem then
    let c := d.tileCtx t
    if d.owns c a bs.length = false then (d, some (.fault 0x0209))
    else
      match d.memWriteRun { ctx := c } a bs with
      | (d, some g) => (d, some (.ue 0x0402 g))
      | (d, none) => (d.mirrorWrite t c a bs.length, none)
  else if sramIn a bs.length = false then (d, some (.fault 0x0207))
  else (d.updTile t (fun x => x.sramPut a bs), none)

/-- Read runs one after another until one stops. -/
def Dev.runsRead (d : Dev) (t : Nat) (mem : Bool) (len : Nat) : List Nat → Dev × Sum Stop (List (List Byte))
  | [] => (d, .inr [])
  | a :: r =>
    match d.runRead t mem a len with
    | (d, .inl e) => (d, .inl e)
    | (d, .inr bs) =>
      match d.runsRead t mem len r with
      | (d, .inl e) => (d, .inl e)
      | (d, .inr rest) => (d, .inr (bs :: rest))

/-- Write runs one after another until one stops. -/
def Dev.runsWrite (d : Dev) (t : Nat) (mem : Bool) : List (Nat × List Byte) → Dev × Option Stop
  | [] => (d, none)
  | (a, bs) :: r =>
    match d.runWrite t mem a bs with
    | (d, some e) => (d, some e)
    | (d, none) => d.runsWrite t mem r

/-- Whether every one of a list of runs is allowed: inside SRAM, or inside the context's extents (R86). The event of the first
fault otherwise. -/
def Dev.runsOk (d : Dev) (t : Nat) (mem : Bool) (len : Nat) (as : List Nat) : Option Stop :=
  if mem then (if as.all (fun a => d.owns (d.tileCtx t) a len) then none else some (.fault 0x0209))
  else if as.all (fun a => sramIn a len) then none else some (.fault 0x0207)

/-- The row addresses of an operand (R85). -/
def Tile.rowAddrs (x : Tile) (o : Operand) (n : Nat) : List Nat := (List.range n).map (x.rowAddr o)

/-- The tensor scale of an operand: 1.0 where it has none (R39). -/
def Operand.scale (o : Operand) : F32 := if o.hasT then o.tscale else f32One

/-- A reserved format code stops every operation that names it (R33). -/
def Operand.codeFault (o : Operand) : Option Stop := if fmtOk o.fmt then none else some (.fault 0x0141)

/-- The checks of an operand that is read or written as numbers: format code and tensor scale (R33, R41). -/
def Operand.fault (o : Operand) : Option Stop :=
  o.codeFault.or <|
  if o.hasT && tscaleOk o.tscale = false then some (.fault 0x0140)
  else none

/-- Whether an operand carries block scales: only the MX element types take them (R38) (DESIGN CHOICE, log entry 34). -/
def Operand.blocks (o : Operand) : Bool := o.hasB && fmtBlocks o.fmt

/-- The row's tensor scale multiplies each element exactly in a load; none multiplies a plain 1.0. -/
def rowValues (o : Operand) (codes scales : List Nat) : List Fp :=
  let vs := (List.range codes.length).zipWith (fun i c =>
    if o.blocks then blockDecode o.fmt c (scales.getD (i / 32) 0) else fpDecode o.fmt c) codes
  if o.hasT then vs.map (fun v => v.mul (ofF32 o.tscale)) else vs

/-! ### The store path (R42, R43, R48, R53, R85) -/

/-- The arithmetic mode word and seed of a context (R51). -/
def Dev.ctxMode (d : Dev) (c : Nat) : Word × Word :=
  match look c d.ctxs with
  | some x => (x.mode, x.seed)
  | none => (0, 0)

/-- INF_MODE of a context: SATURATE (R51). -/
def Dev.ctxSat (d : Dev) (c : Nat) : Bool := (d.ctxMode c).1.getLsbD 0

/-- ROUND of a context: SR (R51). -/
def Dev.ctxSr (d : Dev) (c : Nat) : Bool := (d.ctxMode c).1.getLsbD 1

/-- The rule an operation that writes an operand rounds by (R48, R84, R85). -/
def Dev.storeRule (d : Dev) (c : Nat) (o : Operand) : StoreRule :=
  let sr := match o.rnd with
    | 0 => d.ctxSr c
    | 1 => false
    | 2 => true
    | _ => Config.rndThree
  { sat := d.ctxSat c, sr := sr, seed := (d.ctxMode c).2, tag := o.tag }

/-- Multiply by 1/T_out, formed once in FP32 (R42). -/
def outScale (o : Operand) (vs : List F32) : List F32 :=
  if o.hasT then let inv := f32Div f32One o.tscale; vs.map (fun v => f32Mul v inv) else vs

/-- One row through the store path: scale bytes, element bytes, flags. `idx` gives each element's index under SR. -/
def storeRow (r : StoreRule) (o : Operand) (idx : Nat → Nat) (vs : List Fp) : List Byte × List Byte × Nat :=
  let draws := (List.range vs.length).map (fun e => r.draw (idx e))
  if o.blocks then
    let blocks := (List.range ((vs.length + 31) / 32)).map (fun b =>
      blockStore o.fmt r.sat ((vs.drop (b * 32)).take 32) ((draws.drop (b * 32)).take 32))
    (blocks.map (fun b => BitVec.ofNat 8 b.1), packCodes o.fmt (blocks.flatMap (fun b => b.2.1)),
      blocks.foldl (fun f b => f ||| b.2.2) 0)
  else
    let rs := vs.zipWith (fun v u => convert o.fmt r.sat u v) draws
    ([], packCodes o.fmt (rs.map (·.1)), rs.foldl (fun f x => f ||| x.2) 0)

/-- Add arithmetic status to the descriptor a tile works for (R54). -/
def Dev.tileFlags (d : Dev) (t flags : Nat) : Dev :=
  match d.tilePipe t with
  | some (_, p) => d.descFlags p.q p.n flags
  | none => d

end Sys2Proof.Machine
end

