-- ==== Sys2Proof/Machine/Noc.lean ====
section
/-! DEFINITION. The on-die network (chapter 05): destinations, reduction on the way, purges; the rows PACKET_INJECT,
EP_ARRIVAL, EP_HOLD_EXPIRY and PURGE_DONE. -/

namespace Sys2Proof.Machine

/-! ### Destinations (R109, R110, R116) -/

/-- Whether multicast group g is valid. -/
def Dev.groupValid (d : Dev) (g : Nat) : Bool := d.fld (R.NOC_MCAST g) F.NOC_MCAST_VALID = 1

/-- Whether a destination is one of the table's, and a group is valid (R109). -/
def Dev.dstOk (d : Dev) (x : Nat) : Bool :=
  decide (x ≤ 304) || (decide (320 ≤ x) && decide (x ≤ 324)) ||
    (decide (1024 ≤ x) && decide (x < 2048) && d.groupValid (x - 1024))

/-- Whether a packet's channel is one its type may travel on (R110); a reserved type has none (DEDUCED, log entry 57). -/
def vcOk (typ vc : Nat) : Bool :=
  match typ with
  | 1 => decide (1 ≤ vc) && decide (vc ≤ 6)
  | 2 => decide (1 ≤ vc) && decide (vc ≤ 6)
  | 3 => decide (1 ≤ vc) && decide (vc ≤ 6)
  | 4 => vc = 0
  | 5 => decide (1 ≤ vc) && decide (vc ≤ 4)
  | 6 => vc = 6
  | 7 => vc = 0
  | 8 => vc = 0
  | 9 => vc = 5
  | 10 => vc = 7
  | _ => false

/-! ### Injection (R109 to R111, R116, R123) -/

/-- Drop a packet at its source router. -/
def Dev.badDst (d : Dev) : Dev := d.satFld R.NOC_LINK_ERR F.NOC_LINK_ERR_BADDST 1

/-- PACKET_INJECT: a source router computes a packet's target router and sends it, or drops it (R109 to R111, R116); a packet
of a job being purged is discarded (R123). -/
def execPacketInject (pkt : NocPkt) (s : State) : Out :=
  onDev s (fun d =>
    if d.dstOk pkt.dst = false || vcOk pkt.typ pkt.vc = false then d.badDst
    else if d.purgingNow pkt.job then d
    else d.sendMesh pkt none)

/-! ### Adding on the way (R118 to R122) -/

/-- Whether two packets match (R118, R276). -/
def pktMatch (x : Parked) (dstdev : Nat) (p : NocPkt) : Bool :=
  x.pkt.job = p.job && x.pkt.tag = p.tag && x.pkt.dst = p.dst && x.pkt.addr = p.addr && x.pkt.len = p.len &&
    x.pkt.rfmt = p.rfmt && x.pkt.vc = p.vc && x.dstdev = dstdev

/-- The elements of a reducible payload as values: FP32 or BF16. -/
def payloadValues (p : NocPkt) : List Fp :=
  let fmt := if p.rfmt = 1 then 1 else 0
  (unpackCodes fmt (p.payload.length / (fmtBits fmt / 8)) p.payload).map (fpDecode fmt)

/-- Whether a payload holds a NaN or an infinity (R121). -/
def nonFinitePayload (p : NocPkt) : Bool := (payloadValues p).any (fun v => v.isNan || v.isInf)

/-- The sum of two payloads, rounded to the payload format by RNE; none where an element overflows (R119, R121). -/
def sumPayload (a b : NocPkt) : Option (List Byte) :=
  let fmt := if a.rfmt = 1 then 1 else 0
  let codes := (List.zipWith Fp.add (payloadValues a) (payloadValues b)).map (fun v => (convert fmt false none v).1)
  if codes.any (fun c => (fpDecode fmt c).isInf || (fpDecode fmt c).isNan) then none else some (packCodes fmt codes)

/-- Reduction entries of a router: 16 in a tile router, 64 in an edge router (R118). -/
def epEntries (node : Nat) : Nat := if node < 256 then 16 else 64

/-- Whether the packet may park at a router: its turn router, its stripe router, or the edge router by which it enters from a
Bamat port (R118). -/
def mayPark (node port : Nat) (p : NocPkt) : Bool :=
  node = turnRouter p || (isExternal p.dst && node = targetRouter p) ||
    (port = 6 && decide (272 ≤ p.src) && decide (p.src < 304) && node = entryRouter p)

/-- The cycle at which the window of a parked packet ends: HB units of 2 cycles (R119). -/
def Parked.ends (x : Parked) : Nat := x.since + 2 * x.pkt.hb

/-- The budget a parked packet has left: 1 less for every 2 cycles it has waited (R119). -/
def Parked.budget (x : Parked) (cycle : Nat) : Nat := x.pkt.hb - (cycle - x.since) / 2

/-- Whether a reduction entry is free in a cycle: one freed in that cycle is not (R119, R120). -/
def Dev.entryFree (d : Dev) (node cycle : Nat) : Bool :=
  decide ((d.noc.parked.filter (fun x => x.node = node && decide (cycle ≤ x.ends))).length +
    (d.noc.freed.filter (fun e => e.1 = node && e.2 = cycle)).length < epEntries node)

/-- Free the entry of a parked packet in a cycle. -/
def Dev.freeEntry (d : Dev) (x : Parked) (cycle : Nat) : Dev :=
  { d with noc := { d.noc with
      parked := dropFirst (fun y => y = x) d.noc.parked
      freed := (x.node, cycle) :: d.noc.freed.filter (fun e => decide (2 * d.now ≤ e.2)) } }

/-- Whether a port of this device runs protocol version 1, which never merges (R276, R287). -/
def Dev.oldLink (d : Dev) (ep : Nat) : Bool :=
  decide (272 ≤ ep) && decide (ep < 304) && d.fld (R.LNK_PORT_STAT (ep - 272)) F.LNK_PORT_STAT_VER = 1

/-- Whether a job is marked DETERMINISTIC (R122). -/
def Dev.detJob (d : Dev) (job : Nat) : Bool := (d.reg (R.NOC_JOB_DET (job / 64))).toNat.testBit (job % 64)

/-- A reducible packet of a DETERMINISTIC job: counted, and reported at most once per job in 1 ms (R122). -/
def Dev.detBypass (d : Dev) (node : Nat) (p : NocPkt) : Dev :=
  let d := d.satFld R.NOC_EP_CNT F.NOC_EP_CNT_DET_RED 1
  let soon := match look p.job d.noc.detTold with
    | some t => decide (d.now < t + 1000000)
    | none => false
  if soon then d
  else
    let d := { d with noc := { d.noc with detTold := put p.job d.now d.noc.detTold } }
    d.raise { code := 0x0301, job := p.job, unit := routerUnit node }

/-- The Bamat header of a packet that leaves by a port: the one that travels with it, with what the routers have made of the packet
(R276). -/
def Dev.leavesAs (d : Dev) (dstdev : Nat) (hdr : Option BamatPkt) (p : NocPkt) : BamatPkt :=
  { hdr.getD { BamatPkt.blank with
      op := 5, vc := p.vc, red := p.red, rfmt := p.rfmt, job := p.job, tag := p.tag, dstdev := dstdev, srcdev := d.selfDev, srcep := p.src,
      addr := p.addr, total := p.total } with cnt := p.cnt, hb := p.hb, payload := p.payload }

/-- A packet goes on from a router: from the stripe router of a port into the port, or to a port that is still usable, else through the
mesh (R111, R276). -/
def Dev.goesOn (d : Dev) (node dstdev : Nat) (hdr : Option BamatPkt) (p : NocPkt) : Dev :=
  if decide (272 ≤ p.dst) && decide (p.dst < 304) && node = targetRouter p then
    let b := d.leavesAs dstdev hdr p
    if d.portUsable (p.dst - 272) then (d.portQueue (p.dst - 272) b).pumpPort (p.dst - 272)
    else (d.bamatQueue none p.dst b).pumpAll
  else d.sendMesh p hdr

/-- A reducible packet that takes part arrives at a router in a cycle (R119 to R121) (DESIGN CHOICE, log entry 55) (DEDUCED, log entry
56). -/
def Dev.epArrive (d : Dev) (node port cycle dstdev : Nat) (hdr : Option BamatPkt) (p : NocPkt) : Dev :=
  let hit := d.noc.parked.find? (fun x => x.node = node && pktMatch x dstdev p && decide (cycle < x.ends))
  if nonFinitePayload p then
    let d := if hit.isSome then d.satFld R.NOC_EP_MISS F.NOC_EP_MISS_NONFINITE 1 else d
    d.goesOn node dstdev hdr { p with hb := 0 }
  else
    match hit with
    | some x =>
      if p.total < x.pkt.cnt + p.cnt || 255 < x.pkt.cnt + p.cnt then d.goesOn node dstdev hdr p
      else
        match sumPayload x.pkt p with
        | some sum =>
          let d := (d.freeEntry x cycle).satFld R.NOC_EP_CNT F.NOC_EP_CNT_MERGES 1
          d.goesOn node dstdev hdr { p with cnt := x.pkt.cnt + p.cnt, hb := min (x.budget cycle) p.hb, payload := sum }
        | none =>
          let d := (d.freeEntry x cycle).satFld R.NOC_EP_MISS F.NOC_EP_MISS_NONFINITE 1
          (d.goesOn node x.dstdev x.hdr { x.pkt with hb := 0 }).goesOn node dstdev hdr { p with hb := 0 }
    | none =>
      if mayPark node port p && decide (p.cnt < p.total) && decide (0 < p.hb) then
        if d.entryFree node cycle then
          { d with noc := { d.noc with parked := d.noc.parked ++ [⟨node, p, dstdev, hdr, cycle⟩] } }
        else (d.satFld R.NOC_EP_MISS F.NOC_EP_MISS_NOFREE 1).goesOn node dstdev hdr p
      else d.goesOn node dstdev hdr p

/-- Whether an arrival comes too late in its cycle: one from a later port has been handled (R120). -/
def Dev.portPassed (d : Dev) (node cycle port : Nat) : Bool :=
  match look node d.noc.handled with
  | some (c, p) => c = cycle && decide (port < p)
  | none => false

/-- Whether a packet cannot come in by a router's port: the link has failed (R125). Ports are local, north, east, south, west, down,
attach. -/
def Dev.portStopped (d : Dev) (node port : Nat) : Bool :=
  decide (1 ≤ port) && decide (port ≤ 4) && d.linkFailed (neighbour node (port - 1)) node

/-- EP_ARRIVAL: a packet arrives at a router in the first or the second CLK_NOC cycle of a ns. A reducible one merges, parks or goes on
(R118 to R122); any other goes on, and leaves the mesh at its target unless a controller's row takes it; one of a job being purged
is discarded (R123) (DESIGN CHOICE, log entry 54). -/
def execEpArrival (node : Nat) (port : MeshPort) (dstdev : Nat) (pkt : NocPkt) (s : State) : Out :=
  onUnits [("router", 320, node), ("router port", 7, port.port)] s (fun d =>
    let cycle := 2 * d.now + b2n port.odd
    let f : MeshPkt → Bool := fun x => x.pkt = pkt && (decide (pkt.dst < 1024) || x.target = node)
    if d.portPassed node cycle port.port || d.portStopped node port.port || d.meshFirst f = false then d
    else if d.purgingNow pkt.job then d.meshTaken f
    else if reducible pkt = false then
      if pkt.typ ≠ 5 && (decide (1024 ≤ pkt.dst) || node = targetRouter pkt) then d.meshTaken f else d
    else
      let hdr := (d.noc.flight.find? f).bind (fun x => x.hdr)
      let dev := (hdr.map (fun h => h.dstdev)).getD dstdev
      let d := d.meshTaken f
      let d := { d with noc := { d.noc with handled := put node (cycle, port.port) d.noc.handled } }
      if d.detJob pkt.job then (d.detBypass node pkt).goesOn node dev hdr pkt
      else if d.fld R.NOC_CFG F.NOC_CFG_EP_EN = 0 || d.oldLink pkt.src || d.oldLink pkt.dst then d.goesOn node dev hdr pkt
      else d.epArrive node port.port cycle dev hdr pkt)

/-- EP_HOLD_EXPIRY: a parked packet whose window has ended leaves unreduced with HB 0 (R119). -/
def execEpHoldExpiry (node : Nat) (s : State) : Out :=
  onUnit "router" 320 node s (fun d =>
    match d.noc.parked.find? (fun x => x.node = node && decide (x.ends ≤ 2 * d.now + 1)) with
    | none => d
    | some x =>
      ((d.freeEntry x x.ends).satFld R.NOC_EP_MISS F.NOC_EP_MISS_EXPIRED 1).goesOn node x.dstdev x.hdr { x.pkt with hb := 0 })

/-! ### Purges (R123) -/

/-- The purge at the head of the list begins: the job's parked partials and packets in flight are discarded (DEDUCED, log
entry 59). -/
def Dev.purgeBegin (d : Dev) : Dev :=
  match d.noc.purging with
  | [] => d.setFld R.NOC_PURGE F.NOC_PURGE_BUSY 0
  | (job, _) :: _ =>
    let d := { d with noc := { d.noc with
      parked := d.noc.parked.filter (fun x => x.pkt.job ≠ job)
      flight := d.noc.flight.filter (fun x => x.pkt.job ≠ job) } }
    (d.setFld R.NOC_PURGE F.NOC_PURGE_BUSY 1).setFld R.NOC_PURGE F.NOC_PURGE_JOB job

/-- The firmware purges a job: at once, or after the purges that run; `quiet` says that a quiet period follows, as after a resign
(R123, R315). -/
def Dev.purge (d : Dev) (job : Nat) (quiet : Bool) : Dev :=
  match look job d.noc.purging with
  | some q => { d with noc := { d.noc with purging := put job (q || quiet) d.noc.purging } }
  | none =>
    let first := d.noc.purging.isEmpty
    let covers := d.pipes.any (fun e => e.2.job = job && e.2.tiles.any d.castling)
    let d := if covers then d.castleAbandon else d
    let d := { d with noc := { d.noc with purging := d.noc.purging ++ [(job, quiet)] } }
    if first then d.purgeBegin else d

/-- PURGE_DONE: the purge ends, NOC_PURGE.BUSY falls, EVT 0x0320 is raised, the job's quiet period of 10 ms starts where a resign
purged it, and the next purge begins (R123, R315). -/
def execPurgeDone (s : State) : Out :=
  onDev s (fun d =>
    match d.noc.purging with
    | [] => d
    | (job, quiet) :: r =>
      let d := { d with
        noc := { d.noc with purging := r }
        quiet := if quiet then put job (d.now + 10000000, false) d.quiet else d.quiet }
      let d := d.wrapFld R.NOC_PURGE F.NOC_PURGE_COUNT 1
      (d.raise { code := 0x0320, job := job }).purgeBegin)

end Sys2Proof.Machine
end

