-- ==== Sys2Proof/Machine/Approx.lean ====
section
/-! DEFINITION. Functions whose results the spec bounds and does not fix (R73, R161): a reference value far more exact than
any bound, and a result that lies within the bound of it. Which result inside the bound is a free value, the same for the
same operands (R47). Fixed-point numbers below are integers in units of 2 to the −120. -/

namespace Sys2Proof.Machine

/-- The unit of the fixed-point numbers here: 2 to the 120. -/
def fixOne : Int := 2 ^ 120

/-- The natural logarithm of 2. -/
def fixLn2 : Int := 921350637599661305226344307672478454

/-- 1 / ln 2. -/
def fixLog2e : Int := 1917670637729674084946755258930051709

/-- A fixed-point product. -/
def fixMul (a b : Int) : Int := a * b / fixOne

/-- A fixed-point quotient. -/
def fixDiv (a b : Int) : Int := a * fixOne / b

/-- A value in fixed point, cut below 2 to the −120. -/
def fixOf : Fp → Int
  | .fin s m e =>
    let k := e + 120
    let v : Int := ((if 0 ≤ k then m * 2 ^ k.toNat else m / 2 ^ (-k).toNat : Nat) : Int)
    if s then -v else v
  | _ => 0

/-- The value of a fixed-point number. -/
def ofFix (v : Int) : Fp := (Fp.ofInt v).scale (-120)

/-- The terms of the exponential series from term k on: `t` is term k. -/
def expSeries (x : Int) : (fuel k : Nat) → Int → Int
  | 0, _, _ => 0
  | f + 1, k, t => t + expSeries x f (k + 1) (fixMul t x / ((k : Int) + 1))

/-- 2 to the x, for a fixed-point x, as an exact dyadic value close to it. -/
def refExp2Fix (x : Int) : Fp :=
  let n := x / fixOne
  let f := x - n * fixOne
  (ofFix (expSeries (fixMul f fixLn2) 40 0 fixOne)).scale n

/-- e to the x as a fixed-point number, for x at most about 100. -/
def fixExp (x : Int) : Int := fixOf (refExp2Fix (fixMul x fixLog2e))

/-- The terms of the inverse hyperbolic tangent series: `p` is r to the power 2k + 1. -/
def atanhSeries (r2 : Int) : (fuel k : Nat) → Int → Int
  | 0, _, _ => 0
  | f + 1, k, p => p / (2 * (k : Int) + 1) + atanhSeries r2 f (k + 1) (fixMul p r2)

/-- The base-2 logarithm of a positive finite value, in fixed point. -/
def refLog2 (m : Nat) (e : Int) : Int :=
  let l := Nat.log2 m
  let y : Int := ((m * 2 ^ 120 / 2 ^ l : Nat) : Int)
  let r := fixDiv (y - fixOne) (y + fixOne)
  let ln := 2 * atanhSeries (fixMul r r) 60 0 r
  fixMul ln fixLog2e + (e + (l : Int)) * fixOne

/-- tanh of a fixed-point number. -/
def fixTanh (x : Int) : Int :=
  let a : Int := (x.natAbs : Int)
  let v := if 30 * fixOne < a then fixOne else
    let e := fixExp (2 * a)
    fixDiv (e - fixOne) (e + fixOne)
  if x < 0 then -v else v

/-- The sigmoid of a fixed-point number. -/
def fixSigmoid (x : Int) : Int := (fixOne + fixTanh (x / 2)) / 2

/-- x times the sigmoid of x. -/
def fixSilu (x : Int) : Int := fixMul x (fixSigmoid x)

/-- The tanh form of GELU: 0.5 x (1 + tanh(0.797885 x + 0.035677 x cubed)) (R73). -/
def fixGelu (x : Int) : Int :=
  let u := (797885 * x + 35677 * fixMul x (fixMul x x)) / 1000000
  fixMul x (fixOne + fixTanh u) / 2

/-! ### Results within a bound -/

/-- The exponent of a unit in the last place of a value in a format (R73). -/
def ulpExp (fmt : Nat) (x : Fp) : Int :=
  let low : Int := 1 - (fmtBias fmt : Int) - (fmtMan fmt : Int)
  match x with
  | .fin _ m e => if m = 0 then low else max low (expOf m e - (fmtMan fmt : Int))
  | _ => low

/-- Whether |a − b| is at most the larger of `n` units in the last place of a and 2 to the `abs`, with a hair for the
reference's own error. -/
def withinUlps (fmt : Nat) (a b : Fp) (n : Nat) (abs : Int) : Bool :=
  match a, b with
  | .fin _ _ _, .fin _ _ _ =>
    let diff := (a.add b.negate).abs
    let u := ulpExp fmt a
    let lim := (Fp.fin false n u).add (.fin false 1 (u - 40))
    !(lim.lt diff) || !((Fp.fin false 1 abs).lt diff)
  | _, _ => false

/-- The code that lies k steps of the format above a code, in the order of the values. -/
def stepCode (fmt code : Nat) (k : Int) : Nat :=
  let top := 2 ^ (fmtBits fmt - 1)
  let v : Int := if code < top then (code : Int) else (top : Int) - (code : Int)
  let w := v + k
  if w < 0 then top + w.natAbs else w.toNat

/-- An FP32 code as a lane of a format holds it: itself, or rounded once to BF16 (R73). -/
def laneCode (lane code : Nat) : Fp := if lane = 0 then fpDecode 0 code else fpDecode lane (convert lane false none (fpDecode 0 code)).1

/-- The FP32 code nearest to a value; one that overflows is infinite. -/
def nearestF32 (ref : Fp) : Nat :=
  match ref with
  | .fin s m e => b2n s * 2 ^ 31 + (if m = 0 then 0 else min (roundCode 0 none m e) (fmtInf 0))
  | .inf s => b2n s * 2 ^ 31 + fmtInf 0
  | .nan => fmtNan 0

/-- The FP32 result of an operation whose exact value is close to `ref`, within `n` units in the last place or 2 to the `abs`: the
one the free value names if it lies in the bound, else the correctly rounded one. In a lane of BF16 the rounded result lies within one
BF16 unit in the last place too (R73). `op` and the operands key the choice. The results for infinite operands are exact (R75) (DESIGN
CHOICE, log entry 48). -/
def boundedPick (lane op a b n : Nat) (abs : Int) (ref : Fp) : Nat :=
  let c := nearestF32 ref
  let k := stepCode 0 c (Config.ulpPick op a b)
  if (fpDecode 0 a).isInf || (fpDecode 0 b).isInf then c
  else if withinUlps 0 (fpDecode 0 k) ref n abs && (lane = 0 || withinUlps lane (laneCode lane k) ref 1 (-400)) then k else c

/-- An absolute bound that is never the larger one. -/
def noAbs : Int := -400

/-- A quotient with far more bits than any bound needs. -/
def refDiv (x y : Fp) : Fp :=
  match x, y with
  | .fin a m e, .fin b n f =>
    if m = 0 || n = 0 then x.div y else .fin (a != b) (m * 2 ^ (Nat.log2 n + 200) / n) (e - f - ((Nat.log2 n + 200 : Nat) : Int))
  | _, _ => x.div y

/-- 1 over the square root of a positive finite value, with far more bits than any bound needs. -/
def refRsqrt (m : Nat) (e : Int) : Fp :=
  let k : Nat := 400 + 2 * Nat.log2 m + (if (e + (400 : Int)) % 2 = 0 then 0 else 1)
  let n := 2 ^ k / m
  .fin false (isqrt (Nat.log2 n / 2 + 1) n) ((-e - (k : Int)) / 2)

/-- e to the power of an FP32 value, or 2 to it: the reference, with the exact results of R75. -/
def refExp (base2 : Bool) (x : Fp) : Fp :=
  match x with
  | .nan => .nan
  | .inf s => if s then .fin false 0 0 else .inf false
  | .fin s m e =>
    if m ≠ 0 && decide (8 < expOf m e) then (if s then .fin false 1 (-300) else .fin false 1 300)
    else
      let r := refExp2Fix (if base2 then fixOf (.fin s m e) else fixMul (fixOf (.fin s m e)) fixLog2e)
      if nearestF32 r = fmtInf 0 then .inf false else r

/-- The logarithm of an FP32 value to base e or 2: the reference, with the exact results of R75. -/
def refLog (base2 : Bool) (x : Fp) : Fp :=
  match x with
  | .nan => .nan
  | .inf s => if s then .nan else .inf false
  | .fin s m e =>
    if m = 0 then .inf true
    else if s then .nan
    else ofFix (if base2 then refLog2 m e else fixMul (refLog2 m e) fixLn2)

/-- Whether |x| is above 2 to the 7, where tanh and the sigmoid have reached their limits. -/
def saturated (x : Fp) : Bool :=
  match x with
  | .fin _ m e => m ≠ 0 && decide (7 ≤ expOf m e)
  | _ => false

/-- tanh: the reference, ±1 at the infinities (R75). -/
def refTanh (x : Fp) : Fp :=
  match x with
  | .nan => .nan
  | .inf s => .fin s 1 0
  | .fin s m e => if m = 0 then .fin s 0 0 else if saturated x then .fin s 1 0 else ofFix (fixTanh (fixOf (.fin s m e)))

/-- The sigmoid: the reference, +0 and 1 at the infinities (R75). -/
def refSigmoid (x : Fp) : Fp :=
  match x with
  | .nan => .nan
  | .inf s => if s then .fin false 0 0 else .fin false 1 0
  | .fin s m e =>
    if saturated x then (if s then .fin false 1 (-184) else .fin false 1 0) else ofFix (fixSigmoid (fixOf (.fin s m e)))

/-- SILU and GELU: the reference, −0 and +∞ at the infinities (R75). -/
def refGate (f : Int → Int) (x : Fp) : Fp :=
  match x with
  | .nan => .nan
  | .inf s => if s then .fin true 0 0 else .inf false
  | .fin s m e =>
    if m = 0 then .fin s 0 0
    else if saturated x then (if s then .fin true 1 (-140) else x)
    else ofFix (f (fixOf (.fin s m e)))

end Sys2Proof.Machine
end

