-- ==== Sys2Proof/Machine/Vector.lean ====
section
/-! DEFINITION. The vector engine (R73 to R75, R82): every operation over 128 FP32 lanes or 256 BF16 lanes of a register.
Lane results set no status flag (R54). -/

namespace Sys2Proof.Machine

/-- The fields of the vector slot (R82). -/
def vVd (w : Nat) : Nat := bits w 9 5
/-- VA. -/
def vVa (w : Nat) : Nat := bits w 14 10
/-- VB. -/
def vVb (w : Nat) : Nat := bits w 19 15
/-- VC. -/
def vVc (w : Nat) : Nat := bits w 24 20
/-- The format of VFMT: 0 FP32, 1 BF16. -/
def vFmt (w : Nat) : Nat := b2n (w.testBit 25)

/-- A vector register as 128 words of 32 bits. -/
def Tile.vreg (x : Tile) (r : Nat) : List F32 := (look r x.v).getD (List.replicate 128 0)

/-- The lanes of a register: 128 codes of FP32, or 256 of BF16, two to a word, low half first. -/
def lanesOf (fmt : Nat) (v : List F32) : List Nat :=
  if fmt = 0 then v.map BitVec.toNat else v.flatMap (fun w => [w.toNat % 65536, w.toNat / 65536])

/-- Two BF16 lanes to a word. -/
def pairLanes : List Nat → List F32
  | a :: b :: r => BitVec.ofNat 32 (a + 65536 * b) :: pairLanes r
  | _ => []

/-- A register from its lanes. -/
def ofLanes (fmt : Nat) (l : List Nat) : List F32 := if fmt = 0 then l.map (BitVec.ofNat 32) else pairLanes l

/-- A value rounded to FP32 or BF16 by RNE; overflow is an infinity, as IEEE 754 arithmetic has it (R52). -/
def laneRound (fmt : Nat) (x : Fp) : Nat := (convert fmt false none x).1

/-- Write a vector register and go on. -/
def Dev.vDone (d : Dev) (t w : Nat) (v : List F32) : Dev := d.opDone t (fun x => { x with v := put (vVd w) v x.v })

/-- A row that performs a vector operation lane by lane on the codes of VA, VB and VC. -/
def vectorRow (t code : Nat) (s : State) (f : Nat → Nat → Nat → Nat → Nat → Nat) : Out :=
  tileRow t 2 code s (fun d x w =>
    let fmt := vFmt w
    let a := lanesOf fmt (x.vreg (vVa w))
    let b := lanesOf fmt (x.vreg (vVb w))
    let c := lanesOf fmt (x.vreg (vVc w))
    d.vDone t w (ofLanes fmt ((a.zip (b.zip c)).map (fun e => f w fmt e.1 e.2.1 e.2.2))))

/-- An operation that is exact and then rounded once in the register's own format. -/
def exactLane (f : Fp → Fp → Fp → Fp) (_w fmt a b c : Nat) : Nat :=
  laneRound fmt (f (fpDecode fmt a) (fpDecode fmt b) (fpDecode fmt c))

/-- An operation that every format computes in FP32; BF16 lanes are rounded once more (R73) (DEDUCED, log entry 47). -/
def viaF32 (f : Nat → Nat → Nat → Nat) (_w fmt a b _c : Nat) : Nat :=
  if fmt = 0 then f 0 a b else laneRound 1 (fpDecode 0 (f 1 (a * 65536) (b * 65536)))

/-- The minimum, −0 below +0, NaN if either is (R73). -/
def fpMin (x y : Fp) : Fp :=
  if x.isNan || y.isNan then .nan
  else if x.isZero && y.isZero then .fin (x.neg? || y.neg?) 0 0
  else if y.lt x then y else x

/-- The maximum, −0 below +0, NaN if either is (R73). -/
def fpMax (x y : Fp) : Fp :=
  if x.isNan || y.isNan then .nan
  else if x.isZero && y.isZero then .fin (x.neg? && y.neg?) 0 0
  else if x.lt y then y else x

/-- The comparison of a condition: 0 EQ, 1 LT, 2 LE, 3 NE (R82); a NaN compares unequal (R52). -/
def cmpLane (fmt cond a b : Nat) : Bool :=
  let x := fpDecode fmt a
  let y := fpDecode fmt b
  match cond with
  | 0 => x.eq y
  | 1 => x.lt y
  | 2 => x.lt y || x.eq y
  | 3 => !x.eq y
  | c => Config.cmpOther c a b

/-- VOP_ADD. -/
def execVopAdd (t : Nat) (s : State) : Out := vectorRow t 1 s (exactLane (fun a b _ => a.add b))

/-- VOP_SUB. -/
def execVopSub (t : Nat) (s : State) : Out := vectorRow t 2 s (exactLane (fun a b _ => a.add b.negate))

/-- VOP_MUL. -/
def execVopMul (t : Nat) (s : State) : Out := vectorRow t 3 s (exactLane (fun a b _ => a.mul b))

/-- VOP_FMA: VA × VB + VC with one rounding. -/
def execVopFma (t : Nat) (s : State) : Out := vectorRow t 4 s (exactLane (fun a b c => (a.mul b).add c))

/-- VOP_MIN. -/
def execVopMin (t : Nat) (s : State) : Out := vectorRow t 5 s (exactLane (fun a b _ => fpMin a b))

/-- VOP_MAX. -/
def execVopMax (t : Nat) (s : State) : Out := vectorRow t 6 s (exactLane (fun a b _ => fpMax a b))

/-- VOP_ABS. -/
def execVopAbs (t : Nat) (s : State) : Out := vectorRow t 7 s (exactLane (fun a _ _ => a.abs))

/-- VOP_NEG. -/
def execVopNeg (t : Nat) (s : State) : Out := vectorRow t 8 s (exactLane (fun a _ _ => a.negate))

/-- VOP_CMP: all ones where the condition holds, else 0; the VC field is the condition (R82). -/
def execVopCmp (t : Nat) (s : State) : Out :=
  vectorRow t 9 s (fun w fmt a b _ => if cmpLane fmt (vVc w) a b then 2 ^ fmtBits fmt - 1 else 0)

/-- VOP_SEL: VA where the VC lane has any bit set, else VB, on raw bits (R82). -/
def execVopSel (t : Nat) (s : State) : Out := vectorRow t 10 s (fun _ _ a b c => if c ≠ 0 then a else b)

/-- VOP_CVT: between the register formats; VFMT names the destination (R82). -/
def execVopCvt (t : Nat) (s : State) : Out :=
  tileRow t 2 11 s (fun d x w =>
    let v := x.vreg (vVa w)
    let sat := d.ctxSat (d.tileCtx t)
    let out := if vFmt w = 1 then
        ofLanes 1 ((v.map (fun a => (convert 1 sat none (ofF32 a)).1)) ++ List.replicate 128 0)
      else ((lanesOf 1 v).take 128).map (fun c => toF32 (fpDecode 1 c))
    d.vDone t w out)

/-- VOP_SQRT: correctly rounded (R73, R75). -/
def execVopSqrt (t : Nat) (s : State) : Out :=
  vectorRow t 12 s (viaF32 (fun _ a _ => f32Bits (fpDecode 0 a).sqrt))

/-- 1/x within 1 ulp (R73, R75). -/
def rcpCode (fmt a : Nat) : Nat := boundedPick fmt 13 a 0 1 noAbs (refDiv (.fin false 1 0) (fpDecode 0 a))

/-- VOP_RCP. -/
def execVopRcp (t : Nat) (s : State) : Out := vectorRow t 13 s (viaF32 (fun fmt a _ => rcpCode fmt a))

/-- 1/√x within 1 ulp; NaN below zero; infinities at the zeros with their sign (R73, R75). -/
def rsqrtCode (fmt a : Nat) : Nat :=
  match fpDecode 0 a with
  | .fin s m e =>
    if m = 0 then f32Bits (.inf s) else if s then f32Bits .nan else boundedPick fmt 14 a 0 1 noAbs (refRsqrt m e)
  | .inf s => if s then f32Bits .nan else 0
  | .nan => f32Bits .nan

/-- VOP_RSQRT. -/
def execVopRsqrt (t : Nat) (s : State) : Out := vectorRow t 14 s (viaF32 (fun fmt a _ => rsqrtCode fmt a))

/-- VOP_EXP2: 1 ulp. -/
def execVopExp2 (t : Nat) (s : State) : Out :=
  vectorRow t 15 s (viaF32 (fun fmt a _ => boundedPick fmt 15 a 0 1 noAbs (refExp true (fpDecode 0 a))))

/-- VOP_LOG2: 1 ulp or 2 to the −22. -/
def execVopLog2 (t : Nat) (s : State) : Out :=
  vectorRow t 16 s (viaF32 (fun fmt a _ => boundedPick fmt 16 a 0 1 (-22) (refLog true (fpDecode 0 a))))

/-- VOP_DIV: VA / VB within 2 ulp. -/
def execVopDiv (t : Nat) (s : State) : Out :=
  vectorRow t 17 s (viaF32 (fun fmt a b => boundedPick fmt 17 a b 2 noAbs (refDiv (fpDecode 0 a) (fpDecode 0 b))))

/-- VOP_EXP: 2 ulp. -/
def execVopExp (t : Nat) (s : State) : Out :=
  vectorRow t 18 s (viaF32 (fun fmt a _ => boundedPick fmt 18 a 0 2 noAbs (refExp false (fpDecode 0 a))))

/-- VOP_LOG: 2 ulp or 2 to the −22. -/
def execVopLog (t : Nat) (s : State) : Out :=
  vectorRow t 19 s (viaF32 (fun fmt a _ => boundedPick fmt 19 a 0 2 (-22) (refLog false (fpDecode 0 a))))

/-- VOP_TANH: 2 ulp or 2 to the −24. -/
def execVopTanh (t : Nat) (s : State) : Out :=
  vectorRow t 20 s (viaF32 (fun fmt a _ => boundedPick fmt 20 a 0 2 (-24) (refTanh (fpDecode 0 a))))

/-- VOP_SIGMOID: 2 ulp or 2 to the −24. -/
def execVopSigmoid (t : Nat) (s : State) : Out :=
  vectorRow t 21 s (viaF32 (fun fmt a _ => boundedPick fmt 21 a 0 2 (-24) (refSigmoid (fpDecode 0 a))))

/-- VOP_SILU: 3 ulp or 2 to the −24. -/
def execVopSilu (t : Nat) (s : State) : Out :=
  vectorRow t 22 s (viaF32 (fun fmt a _ => boundedPick fmt 22 a 0 3 (-24) (refGate fixSilu (fpDecode 0 a))))

/-- VOP_GELU: 4 ulp or 2 to the −24. -/
def execVopGelu (t : Nat) (s : State) : Out :=
  vectorRow t 23 s (viaF32 (fun fmt a _ => boundedPick fmt 23 a 0 4 (-24) (refGate fixGelu (fpDecode 0 a))))

/-- VA − VB, −∞ where the row maximum is −∞ (R75). -/
def submaxCode (a b : Nat) : Nat :=
  if fpDecode 0 b = .inf true then f32Bits (.inf true) else f32Bits ((fpDecode 0 a).add (fpDecode 0 b).negate)

/-- VOP_SUBMAX. -/
def execVopSubmax (t : Nat) (s : State) : Out := vectorRow t 24 s (viaF32 (fun _ => submaxCode))

/-- VA / VB within 1 ulp, +0 where the row scalar is +0 (R73, R75). -/
def scaleinvCode (fmt a b : Nat) : Nat :=
  if b = 0 then 0 else boundedPick fmt 25 a b 1 noAbs (refDiv (fpDecode 0 a) (fpDecode 0 b))

/-- VOP_SCALEINV. -/
def execVopScaleinv (t : Nat) (s : State) : Out := vectorRow t 25 s (viaF32 scaleinvCode)

/-- The lanes that take part in a reduction on a tile of width w (R74). -/
def usableLanes (fmt w : Nat) : Nat := if fmt = 0 then w else 2 * w

/-- VOP_MAXRED: the maximum over the usable lanes in every lane, exact in the register's own format (R74). -/
def execVopMaxred (t : Nat) (s : State) : Out :=
  tileRow t 2 26 s (fun d x w =>
    let fmt := vFmt w
    let l := (lanesOf fmt (x.vreg (vVa w))).take (usableLanes fmt (d.width t))
    let m := (l.map (fpDecode fmt)).foldl fpMax (.inf true)
    d.vDone t w (ofLanes fmt (List.replicate (if fmt = 0 then 128 else 256) (laneRound fmt m))))

/-- One level of the pairwise tree (R74). -/
def pairSums : List F32 → List F32
  | a :: b :: r => f32Add a b :: pairSums r
  | l => l

/-- The pairwise tree. -/
def treeFold : (fuel : Nat) → List F32 → F32
  | 0, l => l.headD 0
  | k + 1, l => treeFold k (pairSums l)

/-- VOP_SUMRED: the fixed pairwise tree over the lanes, those beyond the width entering as +0 (R74). -/
def execVopSumred (t : Nat) (s : State) : Out :=
  tileRow t 2 27 s (fun d x w =>
    let fmt := vFmt w
    let n := if fmt = 0 then 128 else 256
    let l := ((lanesOf fmt (x.vreg (vVa w))).take (usableLanes fmt (d.width t))).map (fun c => toF32 (fpDecode fmt c))
    let sum := treeFold 8 (l ++ List.replicate (n - l.length) (0 : F32))
    d.vDone t w (ofLanes fmt (List.replicate n (laneRound fmt (ofF32 sum)))))

/-- VOP_MOV: VD = VA. -/
def execVopMov (t : Nat) (s : State) : Out := vectorRow t 28 s (fun _ _ a _ _ => a)

/-- VOP_SPLAT: every lane is the FP32 value in bits 31:0 of G[VA], converted to BF16 with VFMT = 1 (R82). -/
def execVopSplat (t : Nat) (s : State) : Out :=
  tileRow t 2 29 s (fun d x w =>
    let v := (x.reg (vVa w)).toNat % 2 ^ 32
    let out := if vFmt w = 0 then List.replicate 128 (BitVec.ofNat 32 v)
      else ofLanes 1 (List.replicate 256 (convert 1 (d.ctxSat (d.tileCtx t)) none (fpDecode 0 v)).1)
    d.vDone t w out)

end Sys2Proof.Machine
end

