-- ==== Sys2Proof/Machine/Konaoc.lean ====
section
/-! DEFINITION. Konaoc (R230 to R233): programs, their checks, and the operations on an engine's register files. -/

namespace Sys2Proof.Machine

/-! ### Programs (R230, R231) -/

/-- OP of an instruction. -/
def kOp (w : Nat) : Nat := bits w 5 0
/-- D. -/
def kD (w : Nat) : Nat := bits w 10 6
/-- A. -/
def kA (w : Nat) : Nat := bits w 15 11
/-- B. -/
def kB (w : Nat) : Nat := bits w 20 16
/-- C. -/
def kC (w : Nat) : Nat := bits w 25 21

/-- How many source operands an operation takes (R231). -/
def kSources (op : Nat) : Nat :=
  match op with
  | 1 => 2 | 2 => 2 | 3 => 2 | 5 => 2 | 8 => 2 | 9 => 2 | 13 => 2
  | 4 => 3 | 14 => 3
  | 18 => 0
  | _ => 1

/-- The registers an instruction reads. -/
def kReads (w : Nat) : List Nat := ([kA w, kB w, kC w] : List Nat).take (kSources (kOp w))

/-- The register an instruction writes. -/
def kWrites (w : Nat) : List Nat := if kOp w = 18 then [] else [kD w]

/-- Whether an operation combines a block. -/
def kBlockOp (w : Nat) : Bool := kOp w = 16 || kOp w = 17

/-- One instruction: an operation of the table, unused fields 0, F8 to F19 not written (R230 to R232). -/
def kInstrOk (w : Nat) : Bool :=
  decide (1 ≤ kOp w) && decide (kOp w ≤ 18) && decide (w < 2 ^ 26) && (kOp w ≠ 18 || kD w = 0) &&
    (([kA w, kB w, kC w] : List Nat).drop (kSources (kOp w))).all (· = 0) && (kWrites w).all (fun r => decide (r < 8) || decide (20 ≤ r))

/-- The instructions before PHASE. -/
def kPass1 (prog : List Nat) : List Nat := prog.takeWhile (fun w => kOp w ≠ 18)

/-- The instructions after PHASE. -/
def kPass2 (prog : List Nat) : List Nat := (prog.dropWhile (fun w => kOp w ≠ 18)).drop 1

/-- The rules of a program as a whole (R233). -/
def kProgramOk (block : Bool) (prog : List Nat) : Bool :=
  prog.all kInstrOk &&
    (if block then
      (prog.filter (fun w => kOp w = 18)).length = 1 && (kPass2 prog).all (fun w => !kBlockOp w) &&
        (kPass1 prog).all (fun w => (kReads w).all (fun r => decide (r < 28)) && (!kBlockOp w || decide (28 ≤ kD w)))
    else prog.all (fun w => kOp w ≠ 18 && !kBlockOp w))

/-- Whether a program reads a register. -/
def kUses (prog : List Nat) (r : Nat) : Bool := prog.any (fun w => (kReads w).contains r)

/-- Whether a program writes a register that is written back: only pass 2 does in block mode (R232, R233). -/
def kStores (block : Bool) (prog : List Nat) (r : Nat) : Bool :=
  (if block then kPass2 prog else prog).any (fun w => (kWrites w).contains r)

/-! ### Operations (R231) -/

/-- SIGN. -/
def f32Sign (a : F32) : F32 :=
  match ofF32 a with
  | .nan => f32Nan
  | .inf s => if s then f32Neg f32One else f32One
  | .fin s m _ => if m = 0 then a else if s then f32Neg f32One else f32One

/-- The result of an operation of one element on its sources. -/
def kValue (op : Nat) (a b c : F32) : F32 :=
  match op with
  | 1 => f32Add a b
  | 2 => f32Sub a b
  | 3 => f32Mul a b
  | 4 => f32Fma a b c
  | 5 => f32Div a b
  | 6 => f32Sqrt a
  | 7 => BitVec.ofNat 32 (rsqrtCode 0 a.toNat)
  | 8 => toF32 (fpMin (ofF32 a) (ofF32 b))
  | 9 => toF32 (fpMax (ofF32 a) (ofF32 b))
  | 10 => f32Abs a
  | 11 => f32Neg a
  | 12 => f32Sign a
  | 13 => if (ofF32 a).lt (ofF32 b) then f32One else 0
  | 14 => if (ofF32 a).isZero then c else b
  | _ => a

/-- Whether a program may write a register (R232). -/
def kWritable (r : Nat) : Bool := decide (r < 8) || (decide (20 ≤ r) && decide (r < 32))

/-- One element's registers after an operation. -/
def kElement (op d a b c : Nat) (r : List F32) : List F32 := setAt r d (kValue op (r.getD a 0) (r.getD b 0) (r.getD c 0))

/-- The pairwise tree over one group of 1,024, shorter groups filled with the neutral value (R233). -/
def groupTree (f : F32 → F32 → F32) : (fuel : Nat) → List F32 → F32
  | 0, l => l.headD 0
  | k + 1, l => groupTree f k (pairs f l)
where
  /-- One level. -/
  pairs (f : F32 → F32 → F32) : List F32 → List F32
    | a :: b :: r => f a b :: pairs f r
    | l => l

/-- The groups of 1,024 elements of a block. -/
def konGroups : (fuel : Nat) → List F32 → List (List F32)
  | 0, _ => []
  | k + 1, l => if l.isEmpty then [] else l.take 1024 :: konGroups k (l.drop 1024)

/-- A block result: the groups' results combined in order (R233). -/
def blockResult (f : F32 → F32 → F32) (pad : F32) (l : List F32) : F32 :=
  match (konGroups 4 l).map (fun g => groupTree f 10 (g ++ List.replicate (1024 - g.length) pad)) with
  | [] => 0
  | x :: r => r.foldl f x

/-- BSUM of a block: the elements beyond a partial group enter as +0, as in R74. -/
def blockSum (l : List F32) : F32 := blockResult f32Add 0 l

/-- BMAX of a block: the elements beyond a partial group take no part, as in R74. -/
def blockMax (l : List F32) : F32 := blockResult (fun a b => toF32 (fpMax (ofF32 a) (ofF32 b))) 0xFF800000 l

/-! ### Engines (R232, R233) -/

/-- An engine with no element in hand. -/
def Engine.blank : Engine := { start := [], files := [], results := [0, 0, 0, 0] }

/-- An operation of every element. -/
def Engine.each (e : Engine) (op d a b c : Nat) : Engine :=
  if kWritable d then { e with files := e.files.map (kElement op d a b c) } else e

/-- A block result. -/
def Engine.combine (e : Engine) (f : List F32 → F32) (d a : Nat) : Engine :=
  if 28 ≤ d then { e with results := setAt e.results (d - 28) (f (e.files.map (fun r => r.getD a 0))) } else e

/-- PHASE: every register starts again as in R232, F28 to F31 hold the block results. -/
def Engine.phase (e : Engine) : Engine := { e with files := e.start.map (fun r => r.take 28 ++ e.results) }

/-- One instruction of a program. -/
def Engine.run1 (e : Engine) (w : Nat) : Engine :=
  match kOp w with
  | 16 => e.combine blockSum (kD w) (kA w)
  | 17 => e.combine blockMax (kD w) (kA w)
  | 18 => e.phase
  | op => e.each op (kD w) (kA w) (kB w) (kC w)

/-- A whole program over the elements in hand. -/
def runProgram (prog : List Nat) (start : List (List F32)) : Engine :=
  prog.foldl Engine.run1 { start := start, files := start, results := [0, 0, 0, 0] }

/-- An engine by number. -/
def Dev.engine (d : Dev) (n : Nat) : Engine := (look n d.upd.engines).getD Engine.blank

/-- Change an engine. -/
def Dev.updEngine (d : Dev) (n : Nat) (f : Engine → Engine) : Dev :=
  { d with upd := { d.upd with engines := put n (f (d.engine n)) d.upd.engines } }

/-- A row that performs one instruction on engine n. -/
def konaocRow (n d a b c : Nat) (s : State) (f : Engine → Engine) : Out :=
  onUnits [("engine", 16, n), ("register", 32, d), ("register", 32, a), ("register", 32, b), ("register", 32, c)] s
    (fun dev => dev.updEngine n f)

/-- KONAOC_ADD. -/
def execKonaocAdd (n d a b : Nat) (s : State) : Out := konaocRow n d a b 0 s (fun e => e.each 1 d a b 0)
/-- KONAOC_SUB. -/
def execKonaocSub (n d a b : Nat) (s : State) : Out := konaocRow n d a b 0 s (fun e => e.each 2 d a b 0)
/-- KONAOC_MUL. -/
def execKonaocMul (n d a b : Nat) (s : State) : Out := konaocRow n d a b 0 s (fun e => e.each 3 d a b 0)
/-- KONAOC_FMA. -/
def execKonaocFma (n d a b c : Nat) (s : State) : Out := konaocRow n d a b c s (fun e => e.each 4 d a b c)
/-- KONAOC_DIV. -/
def execKonaocDiv (n d a b : Nat) (s : State) : Out := konaocRow n d a b 0 s (fun e => e.each 5 d a b 0)
/-- KONAOC_SQRT. -/
def execKonaocSqrt (n d a : Nat) (s : State) : Out := konaocRow n d a 0 0 s (fun e => e.each 6 d a 0 0)
/-- KONAOC_RSQRT. -/
def execKonaocRsqrt (n d a : Nat) (s : State) : Out := konaocRow n d a 0 0 s (fun e => e.each 7 d a 0 0)
/-- KONAOC_MIN. -/
def execKonaocMin (n d a b : Nat) (s : State) : Out := konaocRow n d a b 0 s (fun e => e.each 8 d a b 0)
/-- KONAOC_MAX. -/
def execKonaocMax (n d a b : Nat) (s : State) : Out := konaocRow n d a b 0 s (fun e => e.each 9 d a b 0)
/-- KONAOC_ABS. -/
def execKonaocAbs (n d a : Nat) (s : State) : Out := konaocRow n d a 0 0 s (fun e => e.each 10 d a 0 0)
/-- KONAOC_NEG. -/
def execKonaocNeg (n d a : Nat) (s : State) : Out := konaocRow n d a 0 0 s (fun e => e.each 11 d a 0 0)
/-- KONAOC_SIGN. -/
def execKonaocSign (n d a : Nat) (s : State) : Out := konaocRow n d a 0 0 s (fun e => e.each 12 d a 0 0)
/-- KONAOC_CMPLT. -/
def execKonaocCmplt (n d a b : Nat) (s : State) : Out := konaocRow n d a b 0 s (fun e => e.each 13 d a b 0)
/-- KONAOC_SEL. -/
def execKonaocSel (n d a b c : Nat) (s : State) : Out := konaocRow n d a b c s (fun e => e.each 14 d a b c)
/-- KONAOC_MOV. -/
def execKonaocMov (n d a : Nat) (s : State) : Out := konaocRow n d a 0 0 s (fun e => e.each 15 d a 0 0)
/-- KONAOC_BSUM. -/
def execKonaocBsum (n d a : Nat) (s : State) : Out := konaocRow n d a 0 0 s (fun e => e.combine blockSum d a)
/-- KONAOC_BMAX. -/
def execKonaocBmax (n d a : Nat) (s : State) : Out := konaocRow n d a 0 0 s (fun e => e.combine blockMax d a)
/-- KONAOC_PHASE. -/
def execKonaocPhase (n : Nat) (s : State) : Out := konaocRow n 0 0 0 0 s Engine.phase

end Sys2Proof.Machine
end

