-- ==== Sys2Proof/Machine/Pim.lean ====
section
/-! DEFINITION. Arithmetic inside the far stacks (chapter 07): the checks and results of the in-stack commands, sequences,
budgets, block sums, and the refresh of a bank. A command's sources are read when its controller starts it and its
destination is written when it is done (DESIGN CHOICE, log entry 19). -/

namespace Sys2Proof.Machine

/-! ### The body (R159) -/

/-- OP. -/
def pimOp (x : Desc) : Nat := x.body 0x00 1
/-- PFMT. -/
def pimFmt (x : Desc) : Nat := x.body 0x01 1 % 4
/-- STACK. -/
def pimStk (x : Desc) : Nat := x.body 0x02 1 % 16
/-- A bit of FLAGS. -/
def pimFlag (x : Desc) (i : Nat) : Bool := (x.body 0x03 1).testBit i
/-- D. -/
def pimD (x : Desc) : Nat := x.body 0x08 8
/-- A, or the table base T. -/
def pimA (x : Desc) : Nat := x.body 0x10 8
/-- B, or the index list. -/
def pimB (x : Desc) : Nat := x.body 0x18 8
/-- C, or the bag offset list. -/
def pimC (x : Desc) : Nat := x.body 0x20 8
/-- LEN in bytes. -/
def pimLen (x : Desc) : Nat := x.body 0x28 8 % 2 ^ 24 * 8192
/-- BSUM_ADDR. -/
def pimSumAt (x : Desc) : Nat := x.body 0x28 8 / 2 ^ 24
/-- NROWS. -/
def poolRows (x : Desc) : Nat := x.body 0x28 8 % 2 ^ 32
/-- NBAG. -/
def poolBags (x : Desc) : Nat := bits (x.body 0x28 8) 55 32
/-- ROWG. -/
def poolRowg (x : Desc) : Nat := x.body 0x28 8 / 2 ^ 56

/-- Bytes of an element. -/
def pimBytes (f : Nat) : Nat := if f = 1 || f = 2 then 2 else 4

/-- Elements of a POOL row. -/
def poolElems (x : Desc) : Nat := poolRowg x * 64 / pimBytes (pimFmt x)

/-- Bytes of a POOL table: whole 8 KiB blocks. -/
def poolTable (x : Desc) : Nat := (poolRows x + 127) / 128 * poolRowg x * 8192

/-- Bytes that POOL writes. -/
def poolOut (x : Desc) : Nat := poolBags x * poolElems x * 4

/-- Whether the OP uses B, and C. -/
def pimUsesB (op : Nat) : Bool := op = 1 || op = 2 || op = 3 || op = 7
/-- Whether the OP uses C. -/
def pimUsesC (op : Nat) : Bool := op = 3 || op = 7

/-- The memory sources of a command other than POOL: A, and B and C where they are no scalars. -/
def pimSources (x : Desc) : List Nat :=
  [pimA x] ++ (if pimUsesB (pimOp x) && !pimFlag x 0 then [pimB x] else []) ++
    (if pimUsesC (pimOp x) && !pimFlag x 1 then [pimC x] else [])

/-- Whether a run lies in the COMPUTE region of a stack (R157). -/
def Dev.inCompute (d : Dev) (n a len : Nat) : Bool :=
  decide (stackBase n ≤ a) && decide (a + len ≤ stackBase n + d.computeBytes)

/-- Whether two runs overlap in part: they meet and are not the same run. -/
def partOverlap (a la b lb : Nat) : Bool :=
  decide (a < b + lb) && decide (b < a + la) && !(a = b && la = lb)

/-! ### Checks (R160) -/

/-- The checks of R160 in its order: whether it holds, the event of its failure, the offset of its field in the descriptor. -/
def Dev.pimChecks (d : Dev) (c : Nat) (x : Desc) : List (Bool × Nat × Nat) :=
  let op := pimOp x
  let pool := op = 8
  let len := pimLen x
  let n := pimStk x
  let enc : List (Bool × Nat × Nat) :=
    [(decide (1 ≤ op) && decide (op ≤ 8), 0x0502, 0x10), (decide (x.body 1 1 < 4), 0x0502, 0x11),
     (decide (x.body 2 1 < 16), 0x0502, 0x12), (decide (x.body 3 1 < 32), 0x0502, 0x13),
     (!(x.body 4 2).testBit 14, 0x0502, 0x14), (x.body 6 2 = 0, 0x0502, 0x16), (decide (pimD x < 2 ^ 40), 0x0502, 0x18),
     (!(op = 7) || (pimFlag x 0 && pimFlag x 1), 0x0502, 0x13),
     (!(pimFmt x = 3 && (op = 5 || op = 6 || pool || pimFlag x 2)), 0x0502, 0x11)]
  if pool then
    enc ++
    [(decide (pimA x % 524288 = 0) && d.owns c (pimA x) (poolTable x), 0x0502, 0x20),
     (decide (pimD x % 8192 = 0) && d.owns c (pimD x) (poolOut x), 0x0502, 0x18),
     (decide (pimC x % 64 = 0) && d.owns c (pimC x) ((poolBags x + 1) * 4), 0x0502, 0x30),
     (decide (pimB x % 64 = 0), 0x0502, 0x28),
     (([1, 2, 4, 8, 16, 32, 64] : List Nat).contains (poolRowg x), 0x0502, 0x3F),
     (d.inCompute n (pimA x) (poolTable x), 0x0501, 0x20),
     (!partOverlap (pimD x) (poolOut x) (pimA x) (poolTable x) &&
       !partOverlap (pimD x) (poolOut x) (pimC x) ((poolBags x + 1) * 4), 0x0502, 0x18)]
  else
    enc ++
    [((pimSources x ++ [pimD x]).all (fun a => decide (a % 8192 = 0) && d.owns c a len), 0x0502, 0x18),
     ((pimSources x ++ [pimD x]).all (fun a => d.inCompute n a len), 0x0501, 0x18),
     ((pimSources x).all (fun a => !partOverlap (pimD x) len a len), 0x0502, 0x18),
     (decide (len ≠ 0), 0x0502, 0x38),
     (!pimFlag x 2 || (pimSumAt x % 64 = 0 && d.owns c (pimSumAt x) (len / 1024) && !d.isCompute (pimSumAt x) &&
       !d.isCompute (pimSumAt x + len / 1024 - 1)), 0x0502, 0x3B)]

/-- The event of a command: it names the stack, the context and the descriptor. -/
def Dev.pimEvent (d : Dev) (code q : Nat) (x : Desc) : Ev := { d.descEvent code q x.n with unit := pimStk x }

/-- The checks of an in-stack command. -/
def Dev.pimCheck (d : Dev) (q : Nat) (x : Desc) : Checked :=
  match (d.pimChecks (d.queueCtx q) x).find? (fun e => !e.1) with
  | some (_, evt, off) => (d.raise (d.pimEvent evt q x), .inl (stInvalid, invalidAt evt off))
  | none => (d, .inr [])

/-! ### Results (R161) -/

/-- GELU or SILU in FP32: within 2 to the −12 relative or 2 to the −16 absolute of the reference, whichever is larger; which
value inside the bound is free (R161, R162). -/
def pimGate (op : Nat) (f : Int → Int) (v : Fp) : Fp :=
  let ref := refGate f v
  let c := f32Bits ref
  let k := fpDecode 0 (stepCode 0 c (Config.ulpPick (100 + op) (f32Bits v) 0))
  match ref, k with
  | .fin s m e, .fin _ _ _ =>
    let diff := ((Fp.fin s m e).add k.negate).abs
    let big := if (Fp.fin false 1 (-16)).lt (Fp.fin false m (e - 12)) then Fp.fin false m (e - 12) else Fp.fin false 1 (-16)
    if m = 0 || big.lt diff then fpDecode 0 c else k
  | _, _ => fpDecode 0 c

/-- A floating-point element result in FP32. -/
def pimFloat (op : Nat) (a b c : Fp) : Fp :=
  match op with
  | 1 => ofF32 (toF32 (a.add b))
  | 2 => ofF32 (toF32 (a.mul b))
  | 3 => ofF32 (toF32 ((a.mul b).add c))
  | 4 => fpMax a (.fin false 0 0)
  | 5 => pimGate 5 fixGelu a
  | 6 => pimGate 6 fixSilu a
  | _ => fpMin (fpMax a b) c

/-- An INT32 element result before saturation (DEDUCED, log entry 63). -/
def pimInt (op : Nat) (a b c : Int) : Int :=
  match op with
  | 1 => a + b
  | 2 => a * b
  | 3 => a * b + c
  | 4 => max a 0
  | _ => min (max a b) c

/-- One element: its code in PFMT and the status it sets (R53, R54, R161). -/
def pimElem (op f : Nat) (sat : Bool) (a b c : Nat) (bScalar cScalar : Bool) : Nat × Nat :=
  if f = 3 then
    let v := pimInt op (toSigned 32 a) (toSigned 32 b) (toSigned 32 c)
    let w := max (-2147483648) (min 2147483647 v)
    (fromSigned 32 w, if v = w then 0 else flagOvf)
  else
    convert f sat none (pimFloat op (fpDecode f a) (fpDecode (if bScalar then 0 else f) b) (fpDecode (if cScalar then 0 else f) c))

/-- The element codes of a run. -/
def Dev.pimCodes (d : Dev) (f a len : Nat) : List Nat :=
  unpackBits (pimBytes f * 8) (len / pimBytes f) (leNat (d.memBytes a len))

/-- A source operand as a list of codes: memory, or a scalar repeated. -/
def Dev.pimSource (d : Dev) (f len : Nat) (used scalar : Bool) (v : Nat) : List Nat :=
  if used && !scalar then d.pimCodes f v len else List.replicate (len / pimBytes f) (v % 2 ^ 32)

/-- Cut a list into groups of n. -/
def groupsOf {α : Type} (n : Nat) : (fuel : Nat) → List α → List (List α)
  | 0, _ => []
  | k + 1, l => if l.isEmpty then [] else l.take n :: groupsOf n k (l.drop n)

/-- The block sums of D (R173). -/
def blockSums (f : Nat) (codes : List Nat) : List F32 :=
  (groupsOf (4096 / pimBytes f) codes.length codes).map (fun b =>
    match (groupsOf 128 b.length (b.map (fun c => toF32 (fpDecode f c)))).map (treeFold 7) with
    | [] => 0
    | g :: r => r.foldl f32Add g)

/-- Rows that a run of each lane's granules touches: 64 granules of a lane, 16 in each of its four banks, lie in one row of each, so
a row covers 512 KiB of the stack (R129, R156). -/
def rowsTouched (off len : Nat) : Nat := if len = 0 then 0 else (off + len - 1) / 524288 - off / 524288 + 1

/-- The arithmetic status of each granule of a run, `per` values to the granule (R54). -/
def granuleFlags (base per : Nat) (fl : List Nat) : List (Nat × Nat) :=
  let gs := groupsOf per fl.length fl
  ((List.range gs.length).zip gs).map (fun g => (base + 64 * g.1, g.2.foldl (· ||| ·) 0))

/-- What an element command writes (R161, R173). -/
def Dev.pimElements (d : Dev) (x : Desc) (sat : Bool) (c : PimCmd) : PimCmd :=
  let op := pimOp x
  let f := pimFmt x
  let len := pimLen x
  let a := d.pimCodes f (pimA x) len
  let b := d.pimSource f len (pimUsesB op) (pimFlag x 0) (pimB x)
  let e := d.pimSource f len (pimUsesC op) (pimFlag x 1) (pimC x)
  let rs := (a.zip (b.zip e)).map (fun v => pimElem op f sat v.1 v.2.1 v.2.2 (pimFlag x 0) (pimFlag x 1))
  let codes := rs.map (·.1)
  let out := leBytes len (packBits (pimBytes f * 8) codes)
  let bs := if pimFlag x 2 then blockSums f codes else []
  let sums := if pimFlag x 2 then [(pimSumAt x, bs.flatMap (fun s => leBytes 4 s.toNat))] else []
  let per := ((pimSources x ++ [pimD x]).map (fun a => rowsTouched (a - stackBase (pimStk x)) len)).foldl (· + ·) 0
  { c with started := true, lanes := (List.range 128).map (fun l => (l, per)), writes := [(pimD x, out)], sums := sums,
           flags := granuleFlags (pimD x) (64 / pimBytes f) (rs.map (·.2)) ++
             granuleFlags (pimSumAt x) 16 (bs.map (fun v => (convert 0 false none (ofF32 v)).2)) }

/-! ### POOL (R170 to R172) -/

/-- Row q of the table, widened to FP32. -/
def Dev.poolRow (d : Dev) (x : Desc) (q : Nat) : List F32 :=
  let f := pimFmt x
  let bs := (List.range (poolRowg x)).flatMap (fun j =>
    d.memBytes (pimA x + (q / 128 * poolRowg x + j) * 8192 + q % 128 * 64) 64)
  (unpackCodes f (poolElems x) bs).map (fun c => toF32 (fpDecode f c))

/-- Add a row to the partial sum of its lane. -/
def addPartial (l : Nat) (v : List F32) (p : List (Nat × List F32)) : List (Nat × List F32) :=
  match look l p with
  | none => put l v p
  | some w => put l (List.zipWith f32Add w v) p

/-- The lane partials added in ascending lane order. -/
def foldLanes (zero : List F32) (p : List (Nat × List F32)) : List F32 :=
  match (List.range 128).filterMap (fun l => look l p) with
  | [] => zero
  | v :: r => r.foldl (List.zipWith f32Add) v

/-- The pooled row of one bag: its entries as (row, weight). -/
def Dev.poolBag (d : Dev) (x : Desc) (es : List (Nat × F32)) : List F32 :=
  let zero := List.replicate (poolElems x) (0 : F32)
  let p := es.foldl (fun p e =>
    let v := d.poolRow x e.1
    addPartial (e.1 % 128) (if pimFlag x 4 then v.map (fun a => f32Mul a e.2) else v) p) []
  let s := foldLanes zero p
  if pimFlag x 3 && !es.isEmpty then s.map (fun a => f32Div a (toF32 (Fp.ofInt es.length))) else s

/-- The two lists as read. -/
def poolOffsets (b : List Byte) (n : Nat) : List Nat := (List.range n).map (fun i => natAt b (4 * i) 4)

/-- Offsets never decrease. -/
def risingOffsets : List Nat → Bool
  | a :: b :: r => decide (a ≤ b) && risingOffsets (b :: r)
  | _ => true

/-- POOL reads and checks its lists, then computes every bag; or the status and result it completes with (R171, R172)
(DEDUCED, log entry 64). -/
def Dev.poolCompute (d : Dev) (q : Nat) (x : Desc) (sat : Bool) (c : PimCmd) : Dev × Sum (Nat × Nat) PimCmd :=
  let bad : Dev → Nat → Dev × Sum (Nat × Nat) PimCmd := fun d evt => (d.raise (d.pimEvent evt q x), .inl (stInvalid, invalidTable evt))
  match d.memCheckRead { ctx := c.ctx } (pimC x) ((poolBags x + 1) * 4) with
  | (d, some g) => (d, .inl (stUe, g))
  | (d, none) =>
    let offs := poolOffsets (d.memBytes (pimC x) ((poolBags x + 1) * 4)) (poolBags x + 1)
    let total := offs.getLastD 0
    let w := if pimFlag x 4 then 8 else 4
    if !(offs.headD 0 = 0 && risingOffsets offs && decide (total ≤ 1048576) && decide (1 ≤ poolBags x)) then bad d 0x0503
    else if d.owns c.ctx (pimB x) (total * w) = false || partOverlap (pimD x) (poolOut x) (pimB x) (total * w) then bad d 0x0502
    else
      match d.memCheckRead { ctx := c.ctx } (pimB x) (total * w) with
      | (d, some g) => (d, .inl (stUe, g))
      | (d, none) =>
        let bs := d.memBytes (pimB x) (total * w)
        let es := (List.range total).map (fun i => (natAt bs (i * w) 4, (BitVec.ofNat 32 (natAt bs (i * w + 4) 4) : F32)))
        if es.any (fun e => decide (poolRows x ≤ e.1)) then bad d 0x0503
        else
          let rows := (List.range (poolBags x)).map (fun b =>
            d.poolBag x ((es.drop (offs.getD b 0)).take (offs.getD (b + 1) 0 - offs.getD b 0)))
          let rs := rows.flatten.map (fun v => convert 0 sat none (ofF32 v))
          let lanes := (List.range 128).map (fun l => (l, (es.filter (fun e => e.1 % 128 = l)).length))
          (d, .inr { c with started := true, lanes := lanes, writes := [(pimD x, packCodes 0 (rs.map (·.1)))],
                            flags := granuleFlags (pimD x) 16 (rs.map (·.2)) })

/-! ### The controller's command list (R163) -/

/-- Start the head command of a stack if it has not started; one whose lists fail completes, and the next is tried. -/
def Dev.pimStart (d : Dev) (n : Nat) : (fuel : Nat) → Dev
  | 0 => d
  | k + 1 =>
    match (d.pimStack n).cmds with
    | [] => d
    | c :: r =>
      if c.started then d
      else
        match d.desc c.q c.n with
        | none => (d.updPim n (fun s => { s with cmds := r })).pimStart n k
        | some x =>
          let sat := d.ctxSat c.ctx
          match (if pimOp x = 8 then d.poolCompute c.q x sat c else (d, .inr (d.pimElements x sat c))) with
          | (d, .inr c) => d.updPim n (fun s => { s with cmds := c :: r })
          | (d, .inl (st, res)) =>
            ((d.updPim n (fun s => { s with cmds := r })).complete c.q c.n st res).pimStart n k

/-- The controller takes an accepted command (R163) (DEDUCED, log entry 62). -/
def Dev.pimAccept (d : Dev) (q : Nat) (x : Desc) : Dev :=
  let n := pimStk x
  let c : PimCmd :=
    { q := q, n := x.n, ctx := d.queueCtx q, started := false, lanes := [], writes := [], sums := [], flags := [], stopping := false }
  let d := d.updPim n (fun s => { s with cmds := s.cmds ++ [c] })
  d.pimStart n ((d.pimStack n).cmds.length + 1)

/-- The row of an OP; a reserved OP is refused by whichever of them runs. -/
def pimRow (q op : Nat) (s : State) : Out :=
  onUnit "queue" 4096 q s (fun d =>
    d.runHead q (fun x => x.typ = 14 && (pimOp x = op || pimOp x = 0 || decide (8 < pimOp x))) Dev.pimCheck Dev.pimAccept)

/-- PIM_ADD: D = A + B. -/
def execPimAdd (q : Nat) (s : State) : Out := pimRow q 1 s

/-- PIM_MUL: D = A × B. -/
def execPimMul (q : Nat) (s : State) : Out := pimRow q 2 s

/-- PIM_MAD: D = A × B + C with one rounding. -/
def execPimMad (q : Nat) (s : State) : Out := pimRow q 3 s

/-- PIM_RELU: D = max(A, 0). -/
def execPimRelu (q : Nat) (s : State) : Out := pimRow q 4 s

/-- PIM_GELU: D = GELU(A), approximated. -/
def execPimGelu (q : Nat) (s : State) : Out := pimRow q 5 s

/-- PIM_SILU: D = A × sigmoid(A), approximated. -/
def execPimSilu (q : Nat) (s : State) : Out := pimRow q 6 s

/-- PIM_CLAMP: D = min(max(A, B), C). -/
def execPimClamp (q : Nat) (s : State) : Out := pimRow q 7 s

/-- POOL: embedding bags (R170 to R172). -/
def execPool (q : Nat) (s : State) : Out := pimRow q 8 s

/-! ### Sequences and budget (R164 to R169) -/

/-- Open the budget window of the present tempo (R169): EVT 0x0511 after 100 windows in a row without a deferral. -/
def Dev.pimRoll (d : Dev) (n : Nat) : Dev :=
  let x := d.pimStack n
  let w := d.now / 10000
  if w ≤ x.window then d
  else
    let gone := w - x.window
    let clean := if x.deferred then gone - 1 else x.clean + gone
    let off := x.throttled && decide (100 ≤ clean)
    let d := d.updPim n (fun x => { x with
      window := w, spent := 0, clean := clean, deferred := false, throttled := x.throttled && !off })
    if off then d.raise { code := 0x0511, unit := n } else d

/-- The unit of a lane. -/
def unitOf (l : Nat) : Nat := l % 32

/-- The longest sequence at the stack's refresh rate (R164). -/
def Dev.maxRows (d : Dev) (n : Nat) : Nat := if 2 ≤ d.fld (R.MEM_FMC_STAT n) F.MEM_FMC_STAT_REFRESH then 16 else 32

/-- Whether the controller may start `rows` row operations on a lane, the budget apart (R164, R165, R168): the lane's command
is at the head and goes on, the unit is free and has no lower lane to run, no bank owes a refresh, no thermal hold. -/
def Dev.seqAllowed (d : Dev) (n l rows : Nat) : Bool :=
  let x := d.pimStack n
  match x.cmds with
  | [] => false
  | c :: _ =>
    c.started && !c.stopping && decide (1 ≤ rows) && decide (rows ≤ d.maxRows n) && decide (rows ≤ (look l c.lanes).getD 0) &&
      x.seqs.all (fun s => unitOf s.lane ≠ unitOf l) &&
      c.lanes.all (fun e => !(unitOf e.1 = unitOf l && decide (e.1 < l) && decide (0 < e.2))) &&
      x.postponed.all (fun e => e.1 / 4 ≠ l || e.2 = 0) && d.fld (R.PIM_STK_STAT n) F.PIM_STK_STAT_THERM_HOLD = 0

/-- ACTIVE follows the running sequences (R174). -/
def Dev.pimActive (d : Dev) (n : Nat) : Dev :=
  d.setFld (R.PIM_STK_STAT n) F.PIM_STK_STAT_ACTIVE (d.pimStack n).seqs.length

/-- A sequence is deferred to the next window: counted once a window, EVT 0x0510 after 100 windows without (R169). -/
def Dev.pimDefer (d : Dev) (n : Nat) : Dev :=
  let x := d.pimStack n
  let d := if x.deferred then d else d.satFld (R.PIM_STK_HOLD n) F.PIM_STK_HOLD_DEFERRED 1
  let d := if decide (100 ≤ x.clean) && !x.deferred then d.raise { code := 0x0510, unit := n } else d
  d.updPim n (fun x => { x with deferred := true, throttled := true, clean := 0 })

/-- SEQUENCE_START: the controller starts a sequence on a lane once refresh, budget and thermal conditions allow (R165, R169). -/
def execSequenceStart (stack lane rows : Nat) (s : State) : Out :=
  onUnits [("stack", 16, stack), ("lane", 128, lane)] s (fun d =>
    let d := d.pimRoll stack
    if d.seqAllowed stack lane rows = false then d
    else
      let charge := rows * d.fld (R.PIM_STK_BUDGET stack) F.PIM_STK_BUDGET_ROWOP_NJ
      let budget := d.fld (R.PIM_STK_BUDGET stack) F.PIM_STK_BUDGET_BUDGET_UJ * 1000
      if budget < (d.pimStack stack).spent + charge then d.pimDefer stack
      else
        (d.updPim stack (fun x => { x with
          spent := x.spent + charge
          seqs := x.seqs ++ [⟨lane, rows, d.now⟩]
          cmds := match x.cmds with
            | [] => []
            | c :: r => { c with lanes := alter lane (fun k => k - rows) c.lanes } :: r })).pimActive stack)

/-- Write runs of a command one after another, with the arithmetic status of the values written (R54); the address of the first
granule that fails. -/
def Dev.pimWrites (d : Dev) (c : PimCmd) : List (Nat × List Byte) → Dev × Option Nat
  | [] => (d, none)
  | (a, bs) :: r =>
    let (d, bad) := d.memWriteRun { ctx := c.ctx } a bs
    let stop := bad.getD (a + bs.length)
    let d := d.descFlags c.q c.n (c.flags.foldl (fun f e => if decide (a ≤ e.1) && decide (e.1 < stop) then f ||| e.2 else f) 0)
    match bad with
    | some g => (d, some g)
    | none => d.pimWrites c r

/-- What a stopped command has written: some granules of D, which is free (R168) (DESIGN CHOICE, log entry 65). -/
def partWrites (draw : Nat) (ws : List (Nat × List Byte)) : List (Nat × List Byte) :=
  (ws.flatMap (fun w => (List.range (w.2.length / 64)).map (fun k => (w.1 + 64 * k, bytesAt w.2 (64 * k) 64)))).filter
    (fun g => Config.partlyWritten draw (g.1 / 64))

/-- The head command of a stack ends with a status; the next one starts (R163). -/
def Dev.pimEnd (d : Dev) (n : Nat) (c : PimCmd) (st res : Nat) : Dev :=
  let d := d.updPim n (fun x => { x with cmds := x.cmds.filter (fun y => !(y.q = c.q && y.n = c.n)) })
  let d := d.complete c.q c.n st res
  d.pimStart n ((d.pimStack n).cmds.length + 1)

/-- PIM_CMD_DONE: every write of D and the block sums is visible: the command completes and signals its object (R163); one
that stops completes with RESIGNED (R168). -/
def execPimCmdDone (stack : Nat) (s : State) : Out :=
  onUnit "stack" 16 stack s (fun d =>
    match (d.pimStack stack).cmds with
    | [] => d
    | c :: _ =>
      if !(d.pimStack stack).seqs.isEmpty || !c.started then d
      else if c.stopping then
        let ws := partWrites d.fresh c.writes
        let (d, _) := d.drew.pimWrites c ws
        d.pimEnd stack c stResigned 0
      else if c.lanes.any (fun e => decide (0 < e.2)) then d
      else
        match d.pimWrites c (c.writes ++ c.sums) with
        | (d, some g) => d.pimEnd stack c stUe g
        | (d, none) => d.pimEnd stack c stOk 0)

/-- A resign covers an in-stack command (R168): one that runs stops starting sequences and ends by PIM_CMD_DONE; one that waits
completes at once. -/
def Dev.pimResign (d : Dev) (q n : Nat) : Dev :=
  (List.range 16).foldl (fun d k =>
    match (d.pimStack k).cmds.find? (fun c => c.q = q && c.n = n) with
    | none => d
    | some c =>
      if c.started then d.updPim k (fun x => { x with
        cmds := x.cmds.map (fun y => if y.q = q && y.n = n then { y with stopping := true } else y) })
      else d.pimEnd k c stResigned 0) d

/-- PIM_BUDGET_WINDOW: a new budget window opens for each stack (R169). -/
def execPimBudgetWindow (s : State) : Out := onDev s (fun d => (List.range 16).foldl Dev.pimRoll d)

/-- REFRESH: a refresh falls due for a bank; behind a sequence of its lane it is postponed (R138, R164, R167), else it is made,
which leaves the data as it was. -/
def execRefresh (bank : BankId) (s : State) : Out :=
  match bank with
  | .near t layer => onUnits [("tile", 256, t), ("layer", 4, layer)] s id
  | .far n pc bg b =>
    onUnits [("stack", 16, n), ("pseudo-channel", 32, pc), ("bank group", 4, bg), ("bank", 4, b)] s (fun d =>
      let l := 32 * bg + pc
      if (d.pimStack n).seqs.any (fun e => e.lane = l) then
        let k := min 4 ((look (4 * l + b) (d.pimStack n).postponed).getD 0 + 1)
        let d := d.updPim n (fun x => { x with postponed := put (4 * l + b) k x.postponed })
        d.setFld (R.PIM_STK_REF n) F.PIM_STK_REF_MAX_POSTPONED (max k (d.fld (R.PIM_STK_REF n) F.PIM_STK_REF_MAX_POSTPONED))
      else d)

end Sys2Proof.Machine
end

