-- ==== Sys2Proof/Machine/Kv.lean ====
section
/-! DEFINITION. The KV page engine (chapter 08): frames, directory, maps, the eight commands, copy-on-write, and remote pages.
Maps are bytes in device memory; the directory and the sequence records are the structures of Kvp. -/

namespace Sys2Proof.Machine

/-! ### Formats and pages (R176, R178) -/

/-- The number format of a latent format. -/
def kvElem (f : Nat) : Nat := match f with | 0 => 3 | 1 => 7 | _ => 1

/-- Whether a width is allowed in a latent format (R176). -/
def kvWidthOk (f w : Nat) : Bool :=
  match f with
  | 0 => decide (128 ≤ w) && decide (w ≤ 512) && w % 64 = 0
  | 1 => decide (128 ≤ w) && decide (w ≤ 1024) && w % 128 = 0
  | 2 => decide (128 ≤ w) && decide (w ≤ 256) && w % 32 = 0
  | _ => false

/-- RB of a sequence. -/
def KvSeq.rb (s : KvSeq) : Nat := match s.fmt with | 0 => s.w | 1 => s.w / 2 | _ => s.w * 2

/-- Bytes of a page's chunks. -/
def KvSeq.used (s : KvSeq) : Nat := s.rb / 64 * 4096

/-- Bytes of a sequence's map (R184). -/
def mapBytes (layers maxPages : Nat) : Nat := layers * maxPages * 12

/-- Pages that hold the positions below `n`. -/
def pagesOf (n : Nat) : Nat := (n + 63) / 64

/-- Bytes of a frame. -/
def frameSize : Nat := 32768

/-! ### Engine state -/

/-- Change the page engine. -/
def Dev.updKvp (d : Dev) (f : Kvp → Kvp) : Dev := { d with kvp := f d.kvp }

/-- KVP_STAT follows the engine's state (R200). -/
def Dev.kvShow (d : Dev) : Dev :=
  let d := d.setFld R.KVP_STAT F.KVP_STAT_PAGES d.kvp.dir.length
  let d := d.setFld R.KVP_STAT F.KVP_STAT_SEQS d.kvp.seqs.length
  d.setFld R.KVP_STAT F.KVP_STAT_COPIES d.kvp.copies.length

/-- Frames that a context may still give. -/
def Dev.framesFree (d : Dev) (c : Nat) : Nat := (d.kvp.free.filter (fun f => f.1 = c)).length

/-- Directory entries that are free: neither in use nor reserved with a frame (R190). -/
def Dev.entriesFree (d : Dev) : Nat :=
  16777215 - d.kvp.dir.length - (d.kvp.fetches.map (fun f => f.todo.length)).foldl (· + ·) 0 -
    (match d.kvp.running with | some a => a.reserved.length | none => 0)

/-- Take a free frame of a context; 0 when there is none. -/
def Dev.takeKvFrame (d : Dev) (c : Nat) : Dev × Nat :=
  match d.kvp.free.find? (fun f => f.1 = c) with
  | none => (d, 0)
  | some f => (d.updKvp (fun k => { k with free := k.free.erase f }), f.2)

/-- A frame returns to a context's free list, unless a page of it has been retired (R145, R187). -/
def Dev.giveKvFrame (d : Dev) (c f : Nat) : Dev :=
  if (List.range 8).any (fun i => d.pageRetired (d.phys (f + 4096 * i))) then d
  else d.updKvp (fun k => { k with free := k.free ++ [(c, f)] })

/-- The lowest directory index that is free; index 0 is never used. -/
def Dev.freeIndex (d : Dev) : Nat :=
  ((List.range (d.kvp.dir.length + 1)).map (· + 1)).find? (fun i => (look i d.kvp.dir).isNone) |>.getD 1

/-- A new directory entry. -/
def Dev.newEntry (d : Dev) (e : DirEntry) : Dev × Nat :=
  let i := d.freeIndex
  (d.updKvp (fun k => { k with dir := put i e k.dir }), i)

/-- Free a page whose count has reached 0, once it is not BUSY (R187). -/
def Dev.reapPage (d : Dev) (i : Nat) : Dev :=
  match look i d.kvp.dir with
  | some e => if e.refcnt = 0 && !e.busy then (d.updKvp (fun k => { k with dir := drop1 i k.dir })).giveKvFrame e.owner e.frame else d
  | none => d

/-- Release a page: its count falls by 1 (R193, R197). -/
def Dev.releasePage (d : Dev) (i : Nat) : Dev :=
  (d.updKvp (fun k => { k with dir := alter i (fun e => { e with refcnt := e.refcnt - 1 }) k.dir })).reapPage i

/-! ### Maps (R184) -/

/-- The address of the frame entry of page x of layer l. -/
def KvSeq.frameAt (s : KvSeq) (l x : Nat) : Nat := s.map + (l * s.maxPages + x) * 8

/-- The address of the ID entry. -/
def KvSeq.idAt (s : KvSeq) (l x : Nat) : Nat := s.map + s.layers * s.maxPages * 8 + (l * s.maxPages + x) * 4

/-- Write a map entry: the ID array, then the frame array (R195). -/
def Dev.mapSet (d : Dev) (s : KvSeq) (l x frame id : Nat) : Dev :=
  let (d, _) := d.memWriteRun { ctx := s.ctx } (s.idAt l x) (leBytes 4 id)
  (d.memWriteRun { ctx := s.ctx } (s.frameAt l x) (leBytes 8 frame)).1

/-- Whether the frame array, the ID array and the directory agree on an entry. -/
def Dev.mapAgrees (d : Dev) (s : KvSeq) (l x : Nat) : Bool :=
  let f := d.memNat (s.frameAt l x) 8
  let i := d.memNat (s.idAt l x) 4
  if f = 0 && i = 0 then true
  else match look i d.kvp.dir with
    | some e => e.frame = f && e.owner = s.ctx && decide (0 < e.refcnt)
    | none => false

/-- The directory index of an entry, 0 when it is not mapped. -/
def Dev.mapId (d : Dev) (s : KvSeq) (l x : Nat) : Nat := d.memNat (s.idAt l x) 4

/-- Read map entries: the status and result of the first that fails, with EVT 0x0603 for a disagreement. -/
def Dev.mapRead (d : Dev) (seq : Nat) (s : KvSeq) : List (Nat × Nat) → Dev × Option (Nat × Nat)
  | [] => (d, none)
  | (l, x) :: r =>
    match d.memCheckRead { ctx := s.ctx } (s.frameAt l x) 8 with
    | (d, some g) => (d, some (stUe, g))
    | (d, none) =>
      match d.memCheckRead { ctx := s.ctx } (s.idAt l x) 4 with
      | (d, some g) => (d, some (stUe, g))
      | (d, none) =>
        if d.mapAgrees s l x then d.mapRead seq s r
        else
          let d := d.satFld R.KVP_ERR F.KVP_ERR_MAP_BAD 1
          (d.raise { code := 0x0603, fn := d.ctxFn s.ctx, ctx := s.ctx, job := s.job, args := [seq, x] },
            some (stInvalid, invalidTable 0x0603))

/-- Every page index of layers `l0` to `l0 + n − 1` from page `lo` up to, not including, `hi`. -/
def pageGrid (l0 n lo hi : Nat) : List (Nat × Nat) :=
  (List.range n).flatMap (fun l => (List.range (hi - lo)).map (fun x => (l0 + l, lo + x)))

/-! ### Answers -/

/-- The event of a page command. -/
def Dev.kvEvent (d : Dev) (code : Nat) (c : Nat) (args : List Nat) : Ev :=
  { code := code, fn := d.ctxFn c, ctx := c, args := args }

/-- A failed check: EVT 0x0602 and INVALID (R190). -/
def Dev.kvBad (d : Dev) (c seq off : Nat) : Dev × Option (Nat × Nat) :=
  (d.raise (d.kvEvent 0x0602 c [seq]), some (stInvalid, invalidAt 0x0602 (0x10 + off)))

/-- A failed check of an entry of the list that the command names: RESULT names the entry (R190, R308). -/
def Dev.kvBadEntry (d : Dev) (c seq idx : Nat) : Dev × Option (Nat × Nat) :=
  (d.raise (d.kvEvent 0x0602 c [seq]), some (stInvalid, invalidEntry 0x0602 idx))

/-- A shortage: EVT 0x0601, NO_FRAME (R190). -/
def Dev.kvShort (d : Dev) (c seq : Nat) : Dev × Option (Nat × Nat) :=
  ((d.satFld R.KVP_ERR F.KVP_ERR_NO_FRAME 1).raise (d.kvEvent 0x0601 c [seq]), some (stNoFrame, 0))

/-- An open sequence of a context. -/
def Dev.ownSeq (d : Dev) (c seq : Nat) : Option KvSeq :=
  match look seq d.kvp.seqs with
  | some s => if s.ctx = c then some s else none
  | none => none

/-! ### SEQ_OPEN, SEQ_CLOSE, POOL_ADD, TRUNCATE, FORK -/

/-- A field of a page command's body. -/
def kvSeqNo (x : Desc) : Nat := x.body 0x06 2
/-- COUNT. -/
def kvCount (x : Desc) : Nat := x.body 0x14 4
/-- ADDR. -/
def kvAddr (x : Desc) : Nat := x.body 0x18 8
/-- ARG. -/
def kvArg (x : Desc) : Nat := x.body 0x20 8
/-- REMOTE. -/
def kvRemote (x : Desc) : Nat := x.body 0x28 8
/-- NLAYER. -/
def kvNlayer (x : Desc) : Nat := x.body 0x10 2

/-- Record an open sequence. -/
def Dev.openSeq (d : Dev) (seq : Nat) (s : KvSeq) : Dev :=
  (d.memZero s.map (mapBytes s.layers s.maxPages)).updKvp (fun k => { k with seqs := put seq s k.seqs })

/-- SEQ_OPEN: the engine opens SEQ with an empty map at ADDR (R184, R189). -/
def Dev.kvOpen (d : Dev) (c : Nat) (x : Desc) : Dev × Option (Nat × Nat) :=
  let seq := kvSeqNo x
  let s : KvSeq := {
    ctx := c, layers := kvNlayer x, maxPages := bits (kvArg x) 47 32, w := bits (kvArg x) 18 8, fmt := kvArg x % 4,
    remoteOk := (kvRemote x).testBit 44, job := bits (kvRemote x) 43 32, len := 0, map := kvAddr x }
  if (look seq d.kvp.seqs).isSome then d.kvBad c seq 0x06
  else if !(kvAddr x % 64 = 0 && d.owns c (kvAddr x) (mapBytes s.layers s.maxPages)) then d.kvBad c seq 0x18
  else (d.openSeq seq s, none)

/-- The mapped pages of a sequence are released from page `lo` on. -/
def Dev.releaseFrom (d : Dev) (s : KvSeq) (clear : Bool) (lo : Nat) : Dev :=
  (pageGrid 0 s.layers lo (pagesOf s.len)).foldl (fun d e =>
    let id := d.mapId s e.1 e.2
    let d := if clear then d.mapSet s e.1 e.2 0 0 else d
    if id = 0 then d else d.releasePage id) d

/-- SEQ_CLOSE: every page is released and the sequence closes. -/
def Dev.kvClose (d : Dev) (c seq : Nat) : Dev × Option (Nat × Nat) :=
  match d.ownSeq c seq with
  | none => d.kvBad c seq 0x06
  | some s =>
    match d.mapRead seq s (pageGrid 0 s.layers 0 (pagesOf s.len)) with
    | (d, some e) => (d, some e)
    | (d, none) => ((d.releaseFrom s true 0).updKvp (fun k => { k with seqs := drop1 seq k.seqs }), none)

/-- POOL_ADD: COUNT frames from ADDR join the context's free list (R187, R189). -/
def Dev.kvPool (d : Dev) (c : Nat) (x : Desc) : Dev × Option (Nat × Nat) :=
  let a := kvAddr x
  let fs := (List.range (kvCount x)).map (fun i => a + i * frameSize)
  if decide (kvCount x = 0) || decide (memSize / frameSize < kvCount x) then d.kvBad c 0 0x14
  else if !(a % frameSize = 0 && d.inOneExtent c a (kvCount x * frameSize) && !d.isCompute a) then d.kvBad c 0 0x18
  else if fs.any (fun f => d.kvp.pooled.any (fun p => p.2 = f)) then d.kvBad c 0 0x18
  else
    let d := d.updKvp (fun k => { k with pooled := k.pooled ++ fs.map (fun f => (c, f)) })
    (fs.foldl (fun d f => d.giveKvFrame c f) d, none)

/-- TRUNCATE: the sequence is cut to COUNT, later pages are released (R193). -/
def Dev.kvTruncate (d : Dev) (c seq count : Nat) : Dev × Option (Nat × Nat) :=
  match d.ownSeq c seq with
  | none => d.kvBad c seq 0x06
  | some s =>
    if s.len < count then d.kvBad c seq 0x14
    else
      match d.mapRead seq s (pageGrid 0 s.layers (pagesOf count) (pagesOf s.len)) with
      | (d, some e) => (d, some e)
      | (d, none) =>
        ((d.releaseFrom s true (pagesOf count)).updKvp (fun k =>
          { k with seqs := put seq { s with len := count } k.seqs }), none)

/-- Copy the chunks of a page into another frame. -/
def Dev.copyPage (d : Dev) (s : KvSeq) (src dst : Nat) : Dev :=
  (d.memWriteRun { ctx := s.ctx } dst (d.memBytes src s.used)).1

/-- Give one page of a FORK to the new sequence: shared, or a private copy of one that stands at 65,535 (R192, R197). -/
def Dev.forkPage (d : Dev) (s2 s : KvSeq) (l x : Nat) : Dev :=
  let id := d.mapId s2 l x
  match look id d.kvp.dir with
  | none => d
  | some e =>
    if e.refcnt < 65535 then
      (d.updKvp (fun k => { k with dir := put id { e with refcnt := e.refcnt + 1 } k.dir })).mapSet s l x e.frame id
    else
      let (d, f) := d.takeKvFrame s.ctx
      let (d, i) := (d.copyPage s e.frame f).newEntry { e with frame := f, refcnt := 1, busy := false }
      d.mapSet s l x f i

/-- The first granule of a list of runs that fails to read. -/
def Dev.readsOk (d : Dev) (c len : Nat) : List Nat → Dev × Option Nat
  | [] => (d, none)
  | a :: r =>
    match d.memCheckRead { ctx := c } a len with
    | (d, some g) => (d, some g)
    | (d, none) => d.readsOk c len r

/-- FORK: SEQ opens with SEQ2's shape and shares its positions below COUNT (R192, R197). -/
def Dev.kvFork (d : Dev) (c : Nat) (x : Desc) : Dev × Option (Nat × Nat) :=
  let seq := kvSeqNo x
  if (look seq d.kvp.seqs).isSome then d.kvBad c seq 0x06
  else
    match d.ownSeq c (x.body 0x0C 2) with
    | none => d.kvBad c seq 0x0C
    | some s2 =>
      let s := { s2 with len := kvCount x, map := kvAddr x }
      if s2.len < kvCount x then d.kvBad c seq 0x14
      else if !(s.map % 64 = 0 && d.owns c s.map (mapBytes s.layers s.maxPages)) then d.kvBad c seq 0x18
      else
        let grid := pageGrid 0 s.layers 0 (pagesOf s.len)
        match d.mapRead (x.body 0x0C 2) s2 grid with
        | (d, some e) => (d, some e)
        | (d, none) =>
          let full := (grid.map (fun e => d.mapId s2 e.1 e.2)).filter (fun i =>
            match look i d.kvp.dir with | some e => decide (65535 ≤ e.refcnt) | none => false)
          if !full.isEmpty && !(x.body 0x01 1).testBit 2 then
            ((d.satFld R.KVP_ERR F.KVP_ERR_SHARE_FULL 1).raise (d.kvEvent 0x0605 c [seq]), some (stShareFull, 0))
          else if decide (d.framesFree c < full.length) || decide (d.entriesFree < full.length) then d.kvShort c seq
          else
            match d.readsOk c s.used (full.map (fun i => match look i d.kvp.dir with | some e => e.frame | none => 0)) with
            | (d, some g) => (d, some (stUe, g))
            | (d, none) => (grid.foldl (fun d e => d.forkPage s2 s e.1 e.2) (d.openSeq seq s), none)

/-! ### APPEND and copy-on-write (R179, R191, R195) -/

/-- An append list as (sequence, tokens, staging address), and whether its reserved bytes are 0. -/
def appendList (bs : List Byte) (n : Nat) : List (Nat × Nat × Nat) × Bool :=
  ((List.range n).map (fun k => (natAt bs (16 * k) 2, natAt bs (16 * k + 2) 2, natAt bs (16 * k + 8) 8)),
    (List.range n).all (fun k => zeroAt bs (16 * k + 4) 4))

/-- Pages that NTOK tokens from position `len` touch. -/
def touched (len ntok : Nat) : List Nat := (List.range (pagesOf (len + ntok) - len / 64)).map (fun i => len / 64 + i)

/-- What an APPEND needs, entry by entry: lengths and counts as earlier entries of the list leave them; the number of frames. -/
structure AppendPlan where
  lens : List (Nat × Nat)
  refs : List (Nat × Nat)
  own : List (Nat × Nat × Nat)
  frames : Nat
  deriving DecidableEq, Repr

/-- Plan the page (l, x) of a sequence: in place, copied, or fresh. -/
def Dev.planPage (d : Dev) (seq : Nat) (s : KvSeq) (p : AppendPlan) (e : Nat × Nat) : AppendPlan :=
  let key := (seq, e.1, e.2)
  if p.own.contains key then p
  else
    let id := d.mapId s e.1 e.2
    if id = 0 then { p with own := key :: p.own, frames := p.frames + 1 }
    else
      let rc := (look id p.refs).getD (match look id d.kvp.dir with | some e => e.refcnt | none => 1)
      if rc ≤ 1 then p else { p with own := key :: p.own, frames := p.frames + 1, refs := put id (rc - 1) p.refs }

/-- Plan one entry; none where it is out of range. -/
def Dev.planEntry (d : Dev) (c : Nat) (p : AppendPlan) (e : Nat × Nat × Nat) : Option AppendPlan :=
  match d.ownSeq c e.1 with
  | none => none
  | some s =>
    let len := (look e.1 p.lens).getD s.len
    if decide (1 ≤ e.2.1) && decide (e.2.1 ≤ 64) && decide (len + e.2.1 ≤ s.maxPages * 64) && e.2.2 % 64 = 0 &&
        d.owns c e.2.2 (s.layers * e.2.1 * s.rb) then
      let grid := (List.range s.layers).flatMap (fun l => (touched len e.2.1).map (fun x => (l, x)))
      some { grid.foldl (d.planPage e.1 s) p with lens := put e.1 (len + e.2.1) p.lens }
    else none

/-- Plan a whole list. -/
def Dev.planAll (d : Dev) (c : Nat) : AppendPlan → List (Nat × Nat × Nat) → Option AppendPlan
  | p, [] => some p
  | p, e :: r =>
    match d.planEntry c p e with
    | none => none
    | some p => d.planAll c p r

/-- Read the map entries that a list touches, each entry at the length that those before it leave. -/
def Dev.mapReads (d : Dev) (c : Nat) (lens : List (Nat × Nat)) : List (Nat × Nat × Nat) → Dev × Option (Nat × Nat)
  | [] => (d, none)
  | e :: r =>
    match d.ownSeq c e.1 with
    | none => d.mapReads c lens r
    | some s =>
      let len := (look e.1 lens).getD s.len
      let grid := (List.range s.layers).flatMap (fun l => ((touched len e.2.1).filter (fun x => decide (x < s.maxPages))).map (fun x => (l, x)))
      match d.mapRead e.1 s grid with
      | (d, some f) => (d, some f)
      | (d, none) => d.mapReads c (put e.1 (len + e.2.1) lens) r

/-- The first entry of a list that is malformed, names no open sequence of the context, or a sequence of another format or width
than the first entry's (R190). -/
def Dev.badEntry (d : Dev) (c : Nat) (bs : List Byte) (es : List (Nat × Nat × Nat)) : Option Nat :=
  let shape : Nat → Option (Nat × Nat) := fun q => (d.ownSeq c q).map (fun s => (s.fmt, s.w))
  (List.range es.length).find? (fun i =>
    let e := es.getD i (0, 0, 0)
    (appendList (bytesAt bs (16 * i) 16) 1).2 = false || (shape e.1).isNone || shape e.1 ≠ shape (es.getD 0 (0, 0, 0)).1)

/-- Take a number of frames of a context. -/
def Dev.takeSome (d : Dev) (c : Nat) : Nat → Dev × List Nat
  | 0 => (d, [])
  | n + 1 =>
    let (d, f) := d.takeKvFrame c
    let (d, fs) := d.takeSome c n
    (d, f :: fs)

/-- The check of an APPEND: its entries, and the frames reserved for it (R190, R191). -/
def Dev.kvAppendCheck (d : Dev) (c : Nat) (x : Desc) : Dev × Sum (Nat × Nat) (List (Nat × Nat × Nat) × List Nat) :=
  let out : Dev × Option (Nat × Nat) → Dev × Sum (Nat × Nat) (List (Nat × Nat × Nat) × List Nat) :=
    fun r => (r.1, .inl (r.2.getD (stInvalid, 0)))
  let n := kvCount x
  if decide (n = 0) then out (d.kvBad c (kvSeqNo x) 0x14)
  else if !(kvAddr x % 64 = 0 && d.owns c (kvAddr x) (n * 16)) then out (d.kvBad c (kvSeqNo x) 0x18)
  else
    match d.memCheckRead { ctx := c } (kvAddr x) (n * 16) with
    | (d, some g) => (d, .inl (stUe, g))
    | (d, none) =>
      let es := (appendList (d.memBytes (kvAddr x) (n * 16)) n).1
      match d.badEntry c (d.memBytes (kvAddr x) (n * 16)) es with
      | some i => out (d.kvBadEntry c (kvSeqNo x) i)
      | none =>
        match d.mapReads c [] es with
        | (d, some f) => (d, .inl f)
        | (d, none) =>
          match d.planAll c ⟨[], [], [], 0⟩ es with
          | none =>
            let i := ((List.range n).find? (fun i => (d.planAll c ⟨[], [], [], 0⟩ (es.take (i + 1))).isNone)).getD 0
            out (d.kvBadEntry c (kvSeqNo x) i)
          | some p =>
            if decide (d.framesFree c < p.frames) || decide (d.entriesFree < p.frames) then out (d.kvShort c (kvSeqNo x))
            else
              let (d, fs) := d.takeSome c p.frames
              (d, .inr (es, fs))

/-- A latent row with every NaN and infinity replaced by +0, and whether any was (R191). -/
def cleanRow (fmt : Nat) (bs : List Byte) : List Byte × Bool :=
  let f := kvElem fmt
  let cs := unpackCodes f (bs.length * 8 / fmtBits f) bs
  let bad : Nat → Bool := fun c => (fpDecode f c).isNan || (fpDecode f c).isInf
  (packCodes f (cs.map (fun c => if bad c then 0 else c)), cs.any bad)

/-- Write the rows of the current entry that fall in page x of layer l into a frame (R178, R191). -/
def Dev.writeSlots (d : Dev) (s : KvSeq) (ntok stage l x frame : Nat) : Dev :=
  ((List.range ntok).filter (fun i => (s.len + i) / 64 = x)).foldl (fun d i =>
    let row := (cleanRow s.fmt (d.memBytes (stage + (l * ntok + i) * s.rb) s.rb)).1
    (List.range (s.rb / 64)).foldl (fun d j =>
      (d.memWriteRun { ctx := s.ctx } (frame + j * 4096 + (s.len + i) % 64 * 64) (bytesAt row (64 * j) 64)).1) d) d

/-- Slots written in page x once positions below `len` are. -/
def fillTo (len x : Nat) : Nat := min 64 (len - 64 * x)

/-- The next frame reserved for the running APPEND. -/
def Dev.nextReserved (d : Dev) : Dev × Nat :=
  match d.kvp.running with
  | some a => (d.updKvp (fun k => { k with running := some { a with reserved := a.reserved.drop 1 } }), a.reserved.headD 0)
  | none => (d, 0)

/-- Copies begin while fewer than 16 run; a page is BUSY from then on (R194, R195). -/
def Dev.startCopies (d : Dev) : Dev :=
  let n := 16 - d.kvp.copies.length
  let new := d.kvp.copyWait.take n
  let d := new.foldl (fun d c => d.updKvp (fun k => { k with dir := alter c.old (fun e => { e with busy := true }) k.dir })) d
  d.updKvp (fun k => { k with copies := k.copies ++ new, copyWait := k.copyWait.drop n })

/-- Do what the current entry asks of page x of layer l: write in place, open a fresh page, or ask for a copy (R179, R191,
R195). -/
def Dev.appendPage (d : Dev) (seq : Nat) (s : KvSeq) (ntok stage : Nat) (e : Nat × Nat) : Dev :=
  let id := d.mapId s e.1 e.2
  match look id d.kvp.dir with
  | none =>
    let (d, f) := d.nextReserved
    let d := (d.memZero f s.used).writeSlots s ntok stage e.1 e.2 f
    let (d, i) := d.newEntry {
      frame := f, refcnt := 1, busy := false, remote := false, fill := fillTo (s.len + ntok) e.2, owner := s.ctx, fmt := s.fmt }
    d.mapSet s e.1 e.2 f i
  | some p =>
    if p.refcnt ≤ 1 then
      (d.writeSlots s ntok stage e.1 e.2 p.frame).updKvp (fun k =>
        { k with dir := put id { p with fill := max p.fill (fillTo (s.len + ntok) e.2) } k.dir })
    else
      let (d, f) := d.nextReserved
      d.updKvp (fun k => { k with copyWait := k.copyWait ++ [⟨seq, e.1, e.2, id, f⟩] })

/-- Pages that the current entry touches, in layer order. -/
def entryGrid (s : KvSeq) (ntok : Nat) : List (Nat × Nat) :=
  (List.range s.layers).flatMap (fun l => (touched s.len ntok).map (fun x => (l, x)))

/-- The runs that an entry reads: its staging rows, and the pages it copies. -/
def Dev.entryReads (d : Dev) (s : KvSeq) (ntok stage : Nat) : List (Nat × Nat) :=
  (stage, s.layers * ntok * s.rb) :: (entryGrid s ntok).filterMap (fun e =>
    match look (d.mapId s e.1 e.2) d.kvp.dir with
    | some p => if 1 < p.refcnt then some (p.frame, s.used) else none
    | none => none)

/-- The first failing granule of runs of several lengths. -/
def Dev.runsFail (d : Dev) (c : Nat) : List (Nat × Nat) → Dev × Option Nat
  | [] => (d, none)
  | (a, len) :: r =>
    match d.memCheckRead { ctx := c } a len with
    | (d, some g) => (d, some g)
    | (d, none) => d.runsFail c r

/-- The current entry is finished: LEN rises (R191). -/
def Dev.entryDone (d : Dev) (seq ntok : Nat) : Dev :=
  d.updKvp (fun k => { k with
    seqs := alter seq (fun s => { s with len := s.len + ntok }) k.seqs
    running := k.running.map (fun a => { a with entries := a.entries.drop 1 }) })

/-- The pages of the entry into which a row with a non-finite element goes. -/
def Dev.entryDirty (d : Dev) (s : KvSeq) (ntok stage : Nat) : List Nat :=
  (touched s.len ntok).filter (fun x => (List.range (s.layers * ntok)).any (fun i =>
    (s.len + i % ntok) / 64 = x && (cleanRow s.fmt (d.memBytes (stage + i * s.rb) s.rb)).2))

/-- The running APPEND ends: frames reserved and not mapped return to the free list (R196). -/
def Dev.appendOver (d : Dev) : Dev :=
  match d.kvp.running with
  | none => d
  | some a => a.reserved.foldl (fun d f => d.giveKvFrame a.ctx f) (d.updKvp (fun k => { k with running := none }))

/-- Work through the entries of the running APPEND until one waits for copies; the command completes after the last
(R191, R195, R196). -/
def Dev.appendGo (d : Dev) : (fuel : Nat) → Dev
  | 0 => d
  | k + 1 =>
    match d.kvp.running with
    | none => d
    | some a =>
      let finish : Nat → Nat → Dev := fun st res => d.appendOver.complete a.q a.n st res
      match a.entries with
      | [] =>
        match a.ue with
        | some g => finish stUe g
        | none => finish stOk 0
      | (seq, ntok, stage) :: _ =>
          match look seq d.kvp.seqs with
          | none => (d.entryDone seq ntok).appendGo k
          | some s =>
            match d.runsFail a.ctx (d.entryReads s ntok stage) with
            | (d, some g) =>
              (d.updKvp (fun k => { k with running := some { a with entries := a.entries.drop 1, ue := some (a.ue.getD g) } })).appendGo k
            | (d, none) =>
              let d := (d.entryDirty s ntok stage).foldl (fun d x =>
                (d.descFlags a.q a.n flagNanOut).raise (d.kvEvent 0x0604 a.ctx [seq, x])) d
              let d := ((entryGrid s ntok).foldl (fun d e => d.appendPage seq s ntok stage e) d).startCopies
              if d.kvp.copies.isEmpty then (d.entryDone seq ntok).appendGo k else d

/-! ### Remote pages (R198, R199) -/

/-- The shape of a sequence as page data carries it in CNT and TOTAL, or in HB and the high part of ADDR: format and width in one byte,
LAYERS − 1 in another (DESIGN CHOICE, log entry 22). -/
def KvSeq.shape (s : KvSeq) : Nat := s.fmt + 4 * (s.w / 32)

/-- Answer a page read with the page's chunks and FILL (R198, R273). -/
def Dev.sendPage (d : Dev) (p : BamatPkt) (s : KvSeq) (e : DirEntry) : Dev :=
  let n := s.used / 1024
  d.bamatSendAll ((List.range n).map (fun i =>
    { BamatPkt.blank with
      op := 9, vc := 5, job := p.job, tag := p.tag, dstdev := p.srcdev, srcdev := d.selfDev, dstep := p.srcep, srcep := 321,
      cnt := s.layers - 1, total := s.shape,
      addr := 1024 * i, arg := e.fill + 128 * b2n (i + 1 = n), payload := d.memBytes (e.frame + 1024 * i) 1024 }))

/-- A page request is refused under R198: counted, EVT 0x0606 with the context of an open sequence, the sequence and the page. -/
def Dev.pageRefused (d : Dev) (p : BamatPkt) (seq page : Nat) : Dev :=
  let c := match look seq d.kvp.seqs with | some s => s.ctx | none => 0xFFFF
  ((d.satFld R.KVP_ERR F.KVP_ERR_REFUSED 1).raise { d.kvEvent 0x0606 c [seq, page] with job := p.job }).bamatRefuse p 3

/-- A page is read for a peer: it answers with the page, or with the error that the read meets (R143, R198). -/
def Dev.pageServe (d : Dev) (p : BamatPkt) (s : KvSeq) (e : DirEntry) : Dev :=
  match d.memCheckRead { ctx := s.ctx } e.frame s.used with
  | (d, some _) => d.bamatRefuse p 7
  | (d, none) => (d.satFld R.KVP_CNT F.KVP_CNT_SERVED 1).sendPage p s e

/-- Serve a remote page read, hold it while its page is BUSY, or refuse it (R196, R198, R279). -/
def Dev.pageRead (d : Dev) (p : BamatPkt) : Dev :=
  let n := p.addr % 65536
  let l := bits p.addr 23 16
  let x := bits p.addr 39 24
  let seq := look n d.kvp.seqs
  let fits : KvSeq → Bool := fun s => s.remoteOk && s.job = p.job && decide (l < s.layers) && decide (x < s.maxPages)
  match d.bamatStatus p.job (!seq.any fits) with
  | some st => if st = 3 then d.pageRefused p n x else d.bamatRefuse p st
  | none =>
    match seq with
    | none => d.pageRefused p n x
    | some s =>
      match d.mapRead n s [(l, x)] with
      | (d, some (st, _)) => if st = stUe then d.bamatRefuse p 7 else d.pageRefused p n x
      | (d, none) =>
        let id := d.mapId s l x
        match look id d.kvp.dir with
        | none => d.pageRefused p n x
        | some e => if e.busy then d.updKvp (fun k => { k with waiting := k.waiting ++ [(p, id)] }) else d.pageServe p s e

/-- Serve the reads that waited for a page: they read the page that they found, the old one (R196). -/
def Dev.serveWaiting (d : Dev) (id : Nat) : Dev :=
  let ps := d.kvp.waiting.filter (fun w => w.2 = id)
  let d := d.updKvp (fun k => { k with waiting := k.waiting.filter (fun w => w.2 ≠ id) })
  ps.foldl (fun d w =>
    match look (w.1.addr % 65536) d.kvp.seqs, look id d.kvp.dir with
    | some s, some e => d.pageServe w.1 s e
    | _, _ => d.pageRefused w.1 (w.1.addr % 65536) (bits w.1.addr 39 24)) d

/-- COPY_ON_WRITE's five steps for one copy (R195). -/
def Dev.finishCopy (d : Dev) (c : KvCopy) : Dev :=
  let d := d.updKvp (fun k => { k with copies := k.copies.filter (fun y => y ≠ c) })
  match look c.seq d.kvp.seqs, look c.old d.kvp.dir, d.kvp.running.bind (fun a => a.entries.head?) with
  | some s, some old, some (_, ntok, stage) =>
    let d := d.copyPage s old.frame c.frame
    let (d, i) := d.newEntry { old with
      frame := c.frame, refcnt := 1, busy := false, fill := max old.fill (fillTo (s.len + ntok) c.page), owner := s.ctx }
    let d := (d.writeSlots s ntok stage c.layer c.page c.frame).mapSet s c.layer c.page c.frame i
    let d := d.updKvp (fun k => { k with dir := alter c.old (fun e => { e with refcnt := e.refcnt - 1, busy := false }) k.dir })
    (((d.serveWaiting c.old).reapPage c.old).satFld R.KVP_CNT F.KVP_CNT_COW 1).startCopies
  | _, _, _ => d

/-- A transfer ends badly: its mapped pages are released, its reserved frames go back, LEN stays 0 (R199). -/
def Dev.fetchDrop (d : Dev) (f : KvFetch) : Dev :=
  let d := d.updKvp (fun k => { k with fetches := k.fetches.filter (fun y => y ≠ f) })
  let d := f.todo.foldl (fun d r => d.giveKvFrame f.ctx r.frame) d
  if f.kind = .pushOut then d
  else
    match look f.seq d.kvp.seqs with
    | none => f.got.foldl (fun d g => d.releasePage g.2.2) d
    | some s => f.got.foldl (fun d g => (d.mapSet s g.1 g.2.1 0 0).releasePage g.2.2) d

/-- Take frames for the pages of a transfer: one each, with a tag. -/
def Dev.takeFrames (d : Dev) (c : Nat) : (i : Nat) → List (Nat × Nat) → Dev × List KvRead
  | _, [] => (d, [])
  | i, (l, x) :: r =>
    let (d, f) := d.takeKvFrame c
    let (d, rs) := d.takeFrames c (i + 1) r
    (d, ⟨i % 65536, l, x, f, [], none⟩ :: rs)

/-- The page reads of a FETCH (R199). -/
def Dev.sendReads (d : Dev) (f : KvFetch) : Dev :=
  f.todo.foldl (fun d r => d.bamatSend { BamatPkt.blank with
    op := 8, vc := 5, job := f.job, tag := r.tag, dstdev := f.peer, srcdev := d.selfDev, dstep := 321, srcep := 321,
    addr := f.peerSeq + r.layer * 2 ^ 16 + r.page * 2 ^ 24 }) d

/-- The checks of a transfer into a sequence that any FETCH or PUSH must meet (R190, R199). -/
def fetchShapeOk (s : KvSeq) (layer nl count : Nat) : Bool :=
  s.len = 0 && decide (1 ≤ nl) && decide (layer + nl ≤ s.layers) && decide (count ≤ s.maxPages * 64)

/-- FETCH: reserve frames, then one remote read for each page (R199). None where it goes on. -/
def Dev.kvFetch (d : Dev) (c q : Nat) (x : Desc) : Dev × Option (Option (Nat × Nat)) :=
  let seq := kvSeqNo x
  match d.ownSeq c seq with
  | none => let r := d.kvBad c seq 0x06; (r.1, some r.2)
  | some s =>
    if fetchShapeOk s (x.body 0x0E 2) (kvNlayer x) (kvCount x) = false then let r := d.kvBad c seq 0x0E; (r.1, some r.2)
    else
      let grid := pageGrid (x.body 0x0E 2) (kvNlayer x) 0 (pagesOf (kvCount x))
      if decide (d.framesFree c < grid.length) || decide (d.entriesFree < grid.length) then
        let r := d.kvShort c seq; (r.1, some r.2)
      else if grid.isEmpty then (d, some none)
      else
        let (d, todo) := d.takeFrames c 0 grid
        let f : KvFetch := {
          kind := .fetch, q := q, n := x.n, ctx := c, seq := seq, peer := kvRemote x % 65536, peerSeq := bits (kvRemote x) 31 16,
          job := bits (kvRemote x) 43 32, count := kvCount x, todo := todo, got := [] }
        ((d.updKvp (fun k => { k with fetches := k.fetches ++ [f] })).sendReads f, none)

/-- PUSH: the pages travel as PAGE_DATA under the peer sequence's number; where each part belongs and how much is to come
stands in fields that R273 leaves free (DESIGN CHOICE, log entry 22). -/
def Dev.kvPush (d : Dev) (c q : Nat) (x : Desc) : Dev × Option (Option (Nat × Nat)) :=
  let seq := kvSeqNo x
  match d.ownSeq c seq with
  | none => let r := d.kvBad c seq 0x06; (r.1, some r.2)
  | some s =>
    let l0 := x.body 0x0E 2
    let nl := kvNlayer x
    if !(decide (1 ≤ nl) && decide (l0 + nl ≤ s.layers)) || decide (s.len < kvCount x) then
      let r := d.kvBad c seq 0x0E; (r.1, some r.2)
    else
      let grid := pageGrid l0 nl 0 (pagesOf (kvCount x))
      match d.mapRead seq s grid with
      | (d, some e) => (d, some (some e))
      | (d, none) =>
        let pages := grid.filterMap (fun e => (look (d.mapId s e.1 e.2) d.kvp.dir).map (fun p => (e, p)))
        match d.readsOk c s.used (pages.map (fun p => p.2.frame)) with
        | (d, some g) => (d, some (some (stUe, g)))
        | (d, none) =>
          if pages.isEmpty then (d, some none)
          else
            let f : KvFetch := {
              kind := .pushOut, q := q, n := x.n, ctx := c, seq := seq, peer := kvRemote x % 65536,
              peerSeq := bits (kvRemote x) 31 16, job := bits (kvRemote x) 43 32, count := kvCount x, todo := [], got := [] }
            let d := d.updKvp (fun k => { k with fetches := k.fetches ++ [f] })
            let n := s.used / 1024
            (pages.foldl (fun d p => (List.range n).foldl (fun d i =>
              d.bamatSend { BamatPkt.blank with
                op := 9, vc := 5, job := f.job, tag := f.peerSeq, dstdev := f.peer, srcdev := d.selfDev, dstep := 321, srcep := 321,
                addr := 1024 * i + p.1.1 * 2 ^ 15 + p.1.2 * 2 ^ 23 + (s.layers - 1) * 2 ^ 40, cnt := nl % 256, total := l0 % 256, hb := s.shape,
                arg := p.2.fill + 128 * b2n (i + 1 = n) + f.count * 256, payload := d.memBytes (p.2.frame + 1024 * i) 1024 }) d) d, none)

/-! ### The engine's work (R194) -/

/-- The result of a command that ends at once. -/
def Dev.kvAnswer (q n : Nat) (r : Dev × Option (Nat × Nat)) : Dev :=
  match r with
  | (d, some (st, res)) => d.complete q n st res
  | (d, none) => d.complete q n stOk 0

/-- Begin one piece of accepted work. -/
def Dev.kvBegin (d : Dev) : KvWork → Dev
  | .rollback smp c seq count out =>
    match d.kvTruncate c seq count with
    | (d, none) => d
    | (d, some _) =>
      let d := d.poke (out + 2) [(d.memBytes (out + 2) 1).headD 0 ||| 4]
      d.raise { d.kvEvent 0x0711 c [seq] with unit := smp.1, job := smp.2 }
  | .desc q n =>
    match d.desc q n with
    | none => d
    | some x =>
      let c := d.queueCtx q
      match x.body 0x00 1 with
      | 1 => Dev.kvAnswer q n (d.kvOpen c x)
      | 2 => Dev.kvAnswer q n (d.kvClose c (kvSeqNo x))
      | 3 => Dev.kvAnswer q n (d.kvPool c x)
      | 4 =>
        match d.kvAppendCheck c x with
        | (d, .inl (st, res)) => d.complete q n st res
        | (d, .inr (es, fs)) =>
          (d.updKvp (fun k => { k with running := some { q := q, n := n, ctx := c, entries := es, ue := none, reserved := fs } })).appendGo
            (es.length + 1)
      | 5 => Dev.kvAnswer q n (d.kvFork c x)
      | 6 => Dev.kvAnswer q n (d.kvTruncate c (kvSeqNo x) (kvCount x))
      | 7 =>
        match d.kvFetch c q x with
        | (d, some r) => Dev.kvAnswer q n (d, r)
        | (d, none) => d
      | _ =>
        match d.kvPush c q x with
        | (d, some r) => Dev.kvAnswer q n (d, r)
        | (d, none) => d

/-- The sequences whose pages accepted work touches. -/
def Dev.workSeqs (d : Dev) : KvWork → List Nat
  | .rollback _ _ seq _ _ => [seq]
  | .desc q n =>
    match d.desc q n with
    | none => []
    | some x =>
      match x.body 0x00 1 with
      | 3 => []
      | 4 => (appendList (d.memBytes (kvAddr x) (kvCount x * 16)) (kvCount x)).1.map (fun e => e.1)
      | 5 => [kvSeqNo x, x.body 0x0C 2]
      | _ => [kvSeqNo x]

/-- Whether work must wait for a transfer into one of its sequences: page operations on one page take effect in command order (R194). -/
def Dev.workHeld (d : Dev) (w : KvWork) : Bool :=
  d.kvp.fetches.any (fun f => f.kind ≠ .pushOut && (d.workSeqs w).contains f.seq)

/-- Begin accepted work in order while no APPEND runs and no transfer holds its sequences (DESIGN CHOICE, log entry 66). -/
def Dev.kvPump (d : Dev) : (fuel : Nat) → Dev
  | 0 => d.kvShow
  | k + 1 =>
    match d.kvp.running, d.kvp.work with
    | none, w :: r => if d.workHeld w then d.kvShow else ((d.updKvp (fun k => { k with work := r })).kvBegin w).kvPump k
    | _, _ => d.kvShow

/-- A transfer has ended: work that waited for it begins. -/
def Dev.kvNext (d : Dev) : Dev := d.kvPump (d.kvp.work.length + 1)

/-- The engine accepts work. -/
def Dev.kvAccept (d : Dev) (w : KvWork) : Dev :=
  let d := d.updKvp (fun k => { k with work := k.work ++ [w] })
  d.kvPump (d.kvp.work.length + 1)

/-- The fields of a page command that need no state (R189, R190): offset of the first bad one. -/
def kvFields (x : Desc) : Option Nat :=
  let op := x.body 0x00 1
  let open_ := op = 1
  let cs : List (Bool × Nat) :=
    [(decide (1 ≤ op) && decide (op ≤ 8), 0x00), (decide (x.body 0x01 1 < 8), 0x01), (decide (x.body 0x02 2 < 16384), 0x02),
     (decide (x.body 0x04 2 < 16384), 0x04), (x.body 0x12 2 = 0, 0x12),
     (if open_ then decide (kvNlayer x ≤ 256) && decide (1 ≤ kvNlayer x) else true, 0x10),
     (if open_ then decide (kvArg x % 4 < 3) && zeroBits (kvArg x) 7 2 && zeroBits (kvArg x) 31 19 && zeroBits (kvArg x) 63 48 &&
        kvWidthOk (kvArg x % 4) (bits (kvArg x) 18 8) && decide (1 ≤ bits (kvArg x) 47 32) else kvArg x = 0, 0x20),
     (zeroBits (kvRemote x) 63 45 && (open_ || !(kvRemote x).testBit 44), 0x28)]
  (cs.find? (fun c => !c.1)).map (fun c => c.2)
where
  /-- Bits `hi` to `lo` of a field are 0. -/
  zeroBits (v hi lo : Nat) : Bool := decide (bits v hi lo = 0)

/-- The first checks of a page command: the directory is present, its fields are in range (R185, R190). -/
def Dev.kvCheck (d : Dev) (q : Nat) (x : Desc) : Checked :=
  let bad : Nat → Checked := fun off =>
    (d.raise (d.kvEvent 0x0602 (d.queueCtx q) [kvSeqNo x]), .inl (stInvalid, invalidAt 0x0602 (0x10 + off)))
  if d.fld R.KVP_CFG F.KVP_CFG_AVAIL = 0 then bad 0
  else match kvFields x with
    | some off => bad off
    | none => (d, .inr [])

/-- The row of an OP; a reserved OP is refused by whichever of them runs. -/
def kvRow (q op : Nat) (s : State) : Out :=
  onUnit "queue" 4096 q s (fun d =>
    d.runHead q (fun x => x.typ = 15 && (x.body 0x00 1 = op || x.body 0x00 1 = 0 || decide (8 < x.body 0x00 1))) Dev.kvCheck
      (fun d q x => d.kvAccept (.desc q x.n)))

/-- SEQ_OPEN. -/
def execSeqOpen (q : Nat) (s : State) : Out := kvRow q 1 s

/-- SEQ_CLOSE. -/
def execSeqClose (q : Nat) (s : State) : Out := kvRow q 2 s

/-- POOL_ADD. -/
def execPoolAdd (q : Nat) (s : State) : Out := kvRow q 3 s

/-- APPEND. -/
def execAppend (q : Nat) (s : State) : Out := kvRow q 4 s

/-- FORK. -/
def execFork (q : Nat) (s : State) : Out := kvRow q 5 s

/-- TRUNCATE. -/
def execTruncate (q : Nat) (s : State) : Out := kvRow q 6 s

/-- FETCH. -/
def execFetch (q : Nat) (s : State) : Out := kvRow q 7 s

/-- PUSH. -/
def execPush (q : Nat) (s : State) : Out := kvRow q 8 s

/-- COPY_ON_WRITE: the copy of a shared page that an APPEND asked for is made; after the last of its entry, the APPEND goes on
(R195, R196). -/
def execCopyOnWrite (seq layer page : Nat) (s : State) : Out :=
  onDev s (fun d =>
    match d.kvp.copies.find? (fun c => c.seq = seq && c.layer = layer && c.page = page) with
    | none => d
    | some c =>
      let d := d.finishCopy c
      if d.kvp.copies.isEmpty then
        match d.kvp.running.bind (fun a => a.entries.head?.map (fun e => (e, a.entries.length))) with
        | some ((sq, ntok, _), k) =>
          ((d.entryDone sq ntok).appendGo (k + 1)).kvNext
        | none => d.kvShow
      else d.kvShow)

/-! ### Packets (R198, R199, R273) -/

/-- PAGE_READ: a remote page read is served, held behind a copy, or refused (R196, R198). -/
def execPageRead (pkt : BamatPkt) (s : State) : Out :=
  bamatRow pkt 8 s (fun d => d.pageRead pkt)

/-- A transfer ends without its pages: a FETCH completes, and work that waited begins. -/
def Dev.fetchFails (d : Dev) (f : KvFetch) (st res : Nat) : Dev :=
  let d := d.fetchDrop f
  (if f.kind = .pushIn then d else d.complete f.q f.n st res).kvNext

/-- A page of a transfer is complete: it is mapped with REMOTE set; with the last, LEN becomes COUNT (R199). -/
def Dev.pageLanded (d : Dev) (f : KvFetch) (r : KvRead) (fill : Nat) : Dev :=
  match look f.seq d.kvp.seqs with
  | none => d.fetchFails f stInvalid (invalidAt 0x0602 0x16)
  | some s =>
    let (d, i) := d.newEntry {
      frame := r.frame, refcnt := 1, busy := false, remote := true, fill := fill, owner := s.ctx, fmt := s.fmt }
    let d := d.mapSet s r.layer r.page r.frame i
    let g := { f with todo := f.todo.filter (fun y => y ≠ r), got := f.got ++ [(r.layer, r.page, i)] }
    if g.todo.isEmpty then
      let d := d.updKvp (fun k => { k with
        fetches := k.fetches.filter (fun y => y ≠ f)
        seqs := alter f.seq (fun s => { s with len := f.count }) k.seqs })
      let d := if f.kind = .fetch then d.complete f.q f.n stOk 0
        else d.bamatSend { BamatPkt.blank with
          op := 4, vc := 0, job := f.job, tag := f.seq, dstdev := f.peer, srcdev := d.selfDev, dstep := 321, srcep := 321 }
      d.kvNext
    else (d.updKvp (fun k => { k with fetches := k.fetches.map (fun y => if y = f then g else y) })).kvShow

/-- Data of a page that a transfer waits for: its chunks are written into its frame, and never the bytes past them (R178); the page is
complete once every part and the one with LAST have come. -/
def Dev.pageBytes (d : Dev) (f : KvFetch) (r : KvRead) (p : BamatPkt) : Dev :=
  match look f.seq d.kvp.seqs with
  | none => d.fetchFails f stInvalid (invalidAt 0x0602 0x16)
  | some s =>
    let off := p.addr % 2 ^ 15
    let (d, _) := d.memWriteRun { ctx := f.ctx } (r.frame + off) (p.payload.take (s.used - off))
    let g : KvRead := { r with
      parts := if r.parts.contains (off / 1024) then r.parts else off / 1024 :: r.parts
      fill := if p.arg.testBit 7 then some (p.arg % 128) else r.fill }
    let h := { f with todo := f.todo.map (fun y => if y = r then g else y) }
    let d := d.updKvp (fun k => { k with fetches := k.fetches.map (fun y => if y = f then h else y) })
    match g.fill with
    | some n => if (List.range (s.used / 1024)).all (fun i => g.parts.contains i) then d.pageLanded h g n else d
    | none => d

/-- The first data of a PUSH: the checks of a FETCH made on the pusher's behalf (R199). -/
def Dev.pushBegin (d : Dev) (p : BamatPkt) : Dev :=
  let seq := look p.tag d.kvp.seqs
  let count := p.arg / 256
  let fits : KvSeq → Bool := fun s => s.remoteOk && s.job = p.job && fetchShapeOk s p.total p.cnt count && s.shape = p.hb &&
    s.layers - 1 = bits p.addr 47 40
  match d.bamatStatus p.job (!seq.any fits) with
  | some st => if st = 3 then d.pageRefused p p.tag 0 else d.bamatRefuse p st
  | none =>
    match seq with
    | none => d.pageRefused p p.tag 0
    | some s =>
      let grid := pageGrid p.total p.cnt 0 (pagesOf count)
      if decide (d.framesFree s.ctx < grid.length) || decide (d.entriesFree < grid.length) then
        (d.kvShort s.ctx p.tag).1.bamatRefuse p 3
      else
        let (d, todo) := d.takeFrames s.ctx 0 grid
        let f : KvFetch := {
          kind := .pushIn, q := 0, n := 0, ctx := s.ctx, seq := p.tag, peer := p.srcdev, peerSeq := 0, job := p.job,
          count := count, todo := todo, got := [] }
        d.updKvp (fun k => { k with fetches := k.fetches ++ [f] })

/-- Whether page data comes from a sequence of the format, width and LAYERS of the one it fills (R199). -/
def Dev.shapeAgrees (d : Dev) (f : KvFetch) (p : BamatPkt) : Bool :=
  match look f.seq d.kvp.seqs with
  | some s => p.total = s.shape && p.cnt = s.layers - 1
  | none => false

/-- PAGE_DATA: part of a page arrives, for a FETCH of this device or by a peer's PUSH (R199) (DEDUCED, log entry 67). -/
def execPageData (pkt : BamatPkt) (s : State) : Out :=
  bamatRow pkt 9 s (fun d =>
    if pkt.arg / 256 = 0 then
      match d.kvp.fetches.find? (fun f => f.kind = .fetch && f.peer = pkt.srcdev && f.job = pkt.job && f.todo.any (fun r => r.tag = pkt.tag)) with
      | none => d
      | some f =>
        if d.shapeAgrees f pkt = false then
          (d.raise (d.kvEvent 0x0602 f.ctx [f.seq])).fetchFails f stInvalid (invalidAt 0x0602 0x38)
        else
        match f.todo.find? (fun r => r.tag = pkt.tag) with
        | some r => d.pageBytes f r pkt
        | none => d
    else
      let page := bits pkt.addr 38 23
      let mine : KvFetch → Bool := fun f => f.kind = .pushIn && f.peer = pkt.srcdev && f.seq = pkt.tag
      let d := if d.kvp.fetches.any mine then d else
        (if bits pkt.addr 22 15 = pkt.total && page = 0 && pkt.addr % 2 ^ 15 = 0 then d.pushBegin pkt else d)
      match d.kvp.fetches.find? mine with
      | none => d
      | some f =>
        match f.todo.find? (fun r => r.layer = bits pkt.addr 22 15 && r.page = page) with
        | some r => d.pageBytes f r pkt
        | none => d)

/-- The answer of a peer to a PUSH (R199). -/
def Dev.kvAcked (d : Dev) (p : BamatPkt) : Dev :=
  match d.kvp.fetches.find? (fun f => f.kind = .pushOut && f.peer = p.srcdev && f.peerSeq = p.tag && f.job = p.job) with
  | none => d
  | some f => (d.updKvp (fun k => { k with fetches := k.fetches.filter (fun y => y ≠ f) })).complete f.q f.n stOk 0

/-- A peer refuses a page read or a PUSH: UE for UE, REFUSED for every other status (R199, R280). -/
def Dev.kvRefused (d : Dev) (p : BamatPkt) : Dev :=
  let pick : KvFetch → Bool := fun f => f.peer = p.srcdev && f.job = p.job &&
    (if p.arg / 256 % 256 = 8 then f.kind = .fetch && f.todo.any (fun r => r.tag = p.tag) else f.kind = .pushOut && f.peerSeq = p.tag)
  match d.kvp.fetches.find? pick with
  | none => d
  | some f => d.fetchFails f (if p.arg % 256 = 7 then stUe else stRefused) (if p.arg % 256 = 7 then p.addr else 0)

/-! ### Resign (R196) and the end of a context (R187) -/

/-- A transfer, or work not begun, ends with a status. -/
def Dev.kvStop (d : Dev) (q n st res : Nat) : Dev :=
  let d := d.updKvp (fun k => { k with work := k.work.filter (fun w => w ≠ .desc q n) })
  match d.kvp.fetches.find? (fun f => f.kind ≠ .pushIn && f.q = q && f.n = n) with
  | some f => d.fetchFails f st res
  | none => (d.complete q n st res).kvNext

/-- The copies of the current entry that have not been made are given up: their pages are BUSY no more, their frames return. -/
def Dev.dropCopies (d : Dev) (a : KvAppend) : Dev :=
  let cs := d.kvp.copies
  let ws := d.kvp.copyWait
  let d := d.updKvp (fun k => { k with copies := [], copyWait := [] })
  let d := cs.foldl (fun d c =>
    ((d.updKvp (fun k => { k with dir := alter c.old (fun e => { e with busy := false }) k.dir })).serveWaiting c.old).reapPage c.old) d
  (cs ++ ws).foldl (fun d c => d.giveKvFrame a.ctx c.frame) d

/-- A resign covers a page command: an APPEND finishes the page copies in progress, a transfer gives its frames back,
work not begun completes (R196). -/
def Dev.kvResign (d : Dev) (q n : Nat) : Dev :=
  match d.kvp.running with
  | some a =>
    if a.q = q && a.n = n then
      let copies := d.kvp.copies
      let whole := d.kvp.copyWait.isEmpty && !copies.isEmpty
      let ws := d.kvp.copyWait
      let d := ws.foldl (fun d c => d.giveKvFrame a.ctx c.frame) (d.updKvp (fun k => { k with copyWait := [] }))
      let d := copies.foldl Dev.finishCopy d
      let d := match a.entries with
        | (sq, ntok, _) :: _ => if whole then d.entryDone sq ntok else d
        | [] => d
      (d.appendOver.complete q n stResigned 0).kvNext
    else d.kvStop q n stResigned 0
  | none => d.kvStop q n stResigned 0

/-- An uncorrectable error reaches a page command: an APPEND loses the entry in hand and goes on with the next, a transfer ends (R143,
R196). -/
def Dev.kvUe (d : Dev) (q n addr : Nat) : Dev :=
  match d.kvp.running with
  | some a =>
    if a.q = q && a.n = n then
      let d := d.dropCopies a
      let b := { (d.kvp.running.getD a) with entries := a.entries.drop 1, ue := some (a.ue.getD addr) }
      ((d.updKvp (fun k => { k with running := some b })).appendGo (a.entries.length + 1)).kvNext
    else d.kvStop q n stUe addr
  | none => d.kvStop q n stUe addr

/-- A context ends: its sequences close, its frames and pages are released (R187). -/
def Dev.kvDestroy (d : Dev) (c : Nat) : Dev :=
  let d := (d.kvp.fetches.filter (fun f => f.ctx = c)).foldl Dev.fetchDrop d
  let d := d.updKvp (fun k => { k with
    seqs := k.seqs.filter (fun e => e.2.ctx ≠ c)
    dir := k.dir.filter (fun e => e.2.owner ≠ c)
    free := k.free.filter (fun f => f.1 ≠ c)
    pooled := k.pooled.filter (fun f => f.1 ≠ c) })
  (((d.kvp.waiting.map (fun w => w.2)).filter (fun i => (look i d.kvp.dir).isNone)).foldl Dev.serveWaiting d).kvShow

end Sys2Proof.Machine
end

