-- ==== Sys2Proof/Machine/Stream.lean ====
section
/-! DEFINITION. Streams (R90 to R94): the stream slot of a bundle, credits, and the stream timeout. A message in flight
arrives by the row STREAM, in Sampler.lean beside the samplers that may take it. -/

namespace Sys2Proof.Machine

/-- PORT of a stream slot (R82). -/
def tPort (w : Nat) : Nat := bits w 6 3
/-- VREG of a stream slot. -/
def tVreg (w : Nat) : Nat := bits w 11 7
/-- OPD of a stream slot. -/
def tOpd (w : Nat) : Nat := bits w 14 7

/-- The stream joined to a port of a tile. -/
def Tile.portStream (x : Tile) (num : Nat) (out : Bool) : Option Nat :=
  (x.ports.find? (fun p => p.num = num && p.out = out)).bind (fun p => p.sid)

/-- Whether a consumer has halted: its buffers are gone and its credit counts as unlimited (R94). -/
def Dev.consGone (d : Dev) (st : Stream) (c : Nat) : Bool :=
  st.sampler.isNone &&
    (match (d.tile c).seq with
     | .halted => true
     | .done => true
     | .idle => true
     | _ => false)

/-- The consumers of a producer's messages: tile i to tile i, or every consumer (R91). -/
def Stream.consumersOf (st : Stream) (index : Nat) : List Nat :=
  if st.broadcast || st.sampler.isSome then st.conss else [st.conss.getD index 0]

/-- The credit a producer holds at a consumer. -/
def Stream.credit (st : Stream) (p c : Nat) : Nat := (look (p, c) st.credits).getD 0

/-- Whether a producer holds `lines` credits at each of its consumers (R92, R94), none of which is being castled (R394). -/
def Dev.canSend (d : Dev) (st : Stream) (t index lines : Nat) : Bool :=
  (st.sampler.isSome || (st.consumersOf index).all (fun c => !d.castling c)) &&
  (st.consumersOf index).all (fun c => d.consGone st c || decide (lines ≤ st.credit t c))

/-- A message leaves for each of its consumers and spends its credits (R91, R92). -/
def Stream.post (st : Stream) (t index : Nat) (bytes : List Byte) : Stream :=
  let cs := st.consumersOf index
  { st with
    credits := cs.foldl (fun l c => put (t, c) (st.credit t c - lineCount bytes.length) l) st.credits
    flight := st.flight ++ cs.map (fun c => ⟨t, c, bytes⟩) }

/-- The stream timeout of a tile's pipeline in ns (R93, R99). -/
def Dev.streamTimeout (d : Dev) (t : Nat) : Nat :=
  match d.tilePipe t with
  | some (_, p) => p.timeout
  | none => 0

/-- A WAIT_BEGIN or WAIT_END record of the trace for a stream wait, which names the port (R341). -/
def Dev.tracePort (d : Dev) (kind t port : Nat) : Dev :=
  let (c, j) := match d.tilePipe t with
    | some (_, p) => (p.ctx, p.job)
    | none => (0xFFFF, 0xFFFF)
  d.traceAt (tracePoint 0x02 kind) t c j port 0

/-- A tile waits at its stream slot (R93); one that is to halt does not wait, and its bundle ends there (R102). -/
def Dev.waitPort (d : Dev) (t port : Nat) : Dev :=
  if (d.tile t).halting then d.haltNow t
  else
  let deadline := d.now + d.streamTimeout t
  (d.tracePort 3 t port).updTile t (fun x => { x with seq := .waitStream port deadline })

/-- Send one message, or wait for credit. -/
def Dev.sendMessage (d : Dev) (t port : Nat) (x : Tile) (bytes : List Byte) : Dev :=
  match x.portStream port true with
  | none => d.opDone t id
  | some sid =>
    match look sid d.streams with
    | none => d.opDone t id
    | some st =>
      if d.canSend st t x.index (lineCount bytes.length) then
        (d.updStream sid (fun st => st.post t x.index bytes)).opDone t id
      else d.waitPort t port

/-- The producer whose message a port takes next: any under POINT, round by round under BROADCAST (R91). -/
def Tile.nextProducer (x : Tile) (st : Stream) (port : Nat) : Option Nat :=
  if st.broadcast then some ((look port x.rounds).getD 0) else none

/-- The message a port would take now. -/
def Tile.nextMessage (x : Tile) (st : Stream) (port : Nat) : Option Inbox :=
  match x.nextProducer st port with
  | some p => x.inbox.find? (fun m => m.port = port && m.prod = p)
  | none => x.inbox.find? (fun m => m.port = port)

/-- Remove the first message of a producer from a port buffer. -/
def dropMessage (port prod : Nat) : List Inbox → List Inbox
  | [] => []
  | m :: r => if m.port = port && m.prod = prod then r else m :: dropMessage port prod r

/-- The message has been taken: the round moves on, and its credits go back to its producer (R91, R92). -/
def Dev.messageTaken (d : Dev) (t port sid : Nat) (st : Stream) (m : Inbox) : Dev :=
  let p := st.prods.getD m.prod 0
  let d := d.updTile t (fun x => { x with
    inbox := dropMessage port m.prod x.inbox
    rounds := if st.broadcast then put port ((m.prod + 1) % st.prods.length) x.rounds else x.rounds })
  d.updStream sid (fun s => { s with
    returning := put (p, t) ((look (p, t) s.returning).getD 0 + lineCount m.bytes.length) s.returning })

/-- Receive one message of a given size, or wait; a size that differs stops the receiver (R90, R93). -/
def Dev.recvMessage (d : Dev) (t port size : Nat) (x : Tile) (take : Dev → List Byte → Dev × Option Stop) : Dev :=
  match x.portStream port false with
  | none => d.waitPort t port
  | some sid =>
    match look sid d.streams with
    | none => d.waitPort t port
    | some st =>
      match x.nextMessage st port with
      | none => d.waitPort t port
      | some m =>
        if m.bytes.length ≠ size then d.tileStop t (.fault 0x0205)
        else
          match take d m.bytes with
          | (d, some e) => d.tileStop t e
          | (d, none) => (d.messageTaken t port sid st m).opDone t id

/-- SENDV: V[VREG] as one 512-byte message. -/
def execSendv (t : Nat) (s : State) : Out :=
  tileRow t 4 1 s (fun d x w =>
    let v := (look (tVreg w) x.v).getD (List.replicate 128 0)
    d.sendMessage t (tPort w) x (v.flatMap (fun a => leBytes 4 a.toNat)))

/-- The 32-bit words of a run of bytes. -/
def wordsOf : (fuel : Nat) → List Byte → List F32
  | 0, _ => []
  | k + 1, bs => BitVec.ofNat 32 (natAt bs 0 4) :: wordsOf k (bs.drop 4)

/-- RECVV: one 512-byte message into V[VREG]. -/
def execRecvv (t : Nat) (s : State) : Out :=
  tileRow t 4 2 s (fun d x w =>
    d.recvMessage t (tPort w) 512 x (fun d bs =>
      (d.updTile t (fun z => { z with v := put (tVreg w) (wordsOf 128 bs) z.v }), none)))

/-- SEND: the operand's ROWS × ROWBYTES bytes as one message. -/
def execSend (t : Nat) (err : Upsets) (s : State) : Out :=
  tileRow t 4 3 s (fun d x w =>
    let d := d.upsets t err
    let o := x.opd (tOpd w)
    match o.codeFault.or (d.runsOk t o.mem o.rowBytes (x.rowAddrs o o.rows)) with
    | some e => d.tileStop t e
    | none =>
      match d.runsRead t o.mem o.rowBytes (x.rowAddrs o o.rows) with
      | (d, .inl e) => d.tileStop t e
      | (d, .inr rows) => d.sendMessage t (tPort w) x rows.flatten)

/-- Cut a message into rows of n bytes. -/
def rowsOf (n : Nat) : (fuel : Nat) → List Byte → List (List Byte)
  | 0, _ => []
  | k + 1, bs => bs.take n :: rowsOf n k (bs.drop n)

/-- RECV: one message into the operand's ROWS × ROWBYTES bytes. -/
def execRecv (t : Nat) (s : State) : Out :=
  tileRow t 4 4 s (fun d x w =>
    let o := x.opd (tOpd w)
    match o.codeFault.or (d.runsOk t o.mem o.rowBytes (x.rowAddrs o o.rows)) with
    | some e => d.tileStop t e
    | none =>
      d.recvMessage t (tPort w) (o.rows * o.rowBytes) x (fun d bs =>
        d.runsWrite t o.mem ((x.rowAddrs o o.rows).zip (rowsOf o.rowBytes o.rows bs))))

/-- The size of the message at a tile's stream slot. -/
def Tile.slotBytes (x : Tile) : Nat :=
  let w := slotWord x.bundle 4
  if w % 8 = 1 || w % 8 = 2 then 512 else (x.opd (tOpd w)).rows * (x.opd (tOpd w)).rowBytes

/-- A producer whose send waits for credit goes on once it holds enough (R92, R93). -/
def Dev.sendAgain (d : Dev) (sid : Nat) (st : Stream) (prod : Nat) : Dev :=
  let x := d.tile prod
  match x.seq with
  | .waitStream port _ =>
    if x.portStream port true = some sid && d.canSend st prod x.index (lineCount x.slotBytes) then
      (d.tracePort 4 prod port).updTile prod (fun x => { x with seq := .run })
    else d
  | _ => d

/-- A consumer tile halts: its port buffers are discarded, and its producers' credit counts as unlimited (R94). -/
def Dev.consumerEnds (d : Dev) (t : Nat) : Dev :=
  let x := d.tile t
  match x.pipe with
  | none => d
  | some _ =>
    let d := d.dropInbox t
    (x.ports.filter (fun p => !p.out)).foldl (fun d p =>
      match p.sid with
      | none => d
      | some sid =>
        match look sid d.streams with
        | none => d
        | some st => st.prods.foldl (fun d pr => d.sendAgain sid st pr) d) d

/-- Whether a failed link bars the way between a producer and a consumer: its routers have stopped it (R125). -/
def Dev.streamBarred (d : Dev) (st : Stream) (a b : Nat) : Bool :=
  !d.wayOpen (routersTo a (if st.sampler.isSome then servicePoint a else b))

/-- CREDIT: the credits that a consumer has returned reach the producer, and release its send once they suffice (R92);
those of a job being purged are lost (R123), and none crosses a failed link (R125). -/
def execCredit (sid prod cons : Nat) (s : State) : Out :=
  onUnits [("stream", 4096, sid), ("tile", 256, prod)] s (fun d =>
    match look sid d.streams with
    | none => d
    | some st =>
      if d.streamBarred st cons prod then d
      else if d.jobPurged prod then { d with streams := put sid { st with returning := drop1 (prod, cons) st.returning } d.streams }
      else
      let n := (look (prod, cons) st.returning).getD 0
      let st := { st with
        returning := drop1 (prod, cons) st.returning
        credits := put (prod, cons) (st.credit prod cons + n) st.credits }
      let d := { d with streams := put sid st d.streams }
      d.sendAgain sid st prod)

/-- STREAM_TIMEOUT: a send or receive that has waited for the whole of its window stops the program, naming the port (R93). -/
def execStreamTimeout (t : Nat) (s : State) : Out :=
  onUnit "tile" 256 t s (fun d =>
    match (d.tile t).seq with
    | .waitStream port deadline => if deadline ≤ d.now then d.tileStop t (.fault 0x0204) [port] else d
    | _ => d)

end Sys2Proof.Machine
end

