-- ==== Sys2Proof/Machine/Update.lean ====
section
/-! DEFINITION. The update engines (chapter 10): tensors, update commands, the unit an engine updates, block hashes and replica
audits. -/

namespace Sys2Proof.Machine

/-! ### Tensors (R218 to R223) -/

/-- A tensor-table entry. -/
structure Tensor where
  raw : List Byte
  deriving DecidableEq, Repr

/-- N. -/
def Tensor.elems (x : Tensor) : Nat := natAt x.raw 0x00 8
/-- WORK. -/
def Tensor.work (x : Tensor) : Nat := natAt x.raw 0x08 8
/-- MASTER. -/
def Tensor.master (x : Tensor) : Nat := natAt x.raw 0x10 8
/-- M1. -/
def Tensor.m1 (x : Tensor) : Nat := natAt x.raw 0x18 8
/-- M2. -/
def Tensor.m2 (x : Tensor) : Nat := natAt x.raw 0x20 8
/-- GRAD. -/
def Tensor.grad (x : Tensor) : Nat := natAt x.raw 0x28 8
/-- UREC. -/
def Tensor.urec (x : Tensor) : Nat := natAt x.raw 0x30 8
/-- TIDX. -/
def Tensor.tidx (x : Tensor) : Nat := natAt x.raw 0x38 2
/-- REPS. -/
def Tensor.reps (x : Tensor) : Nat := natAt x.raw 0x3A 2
/-- REP. -/
def Tensor.rep (x : Tensor) : Nat := natAt x.raw 0x3C 2
/-- WFMT. -/
def Tensor.wfmt (x : Tensor) : Nat := natAt x.raw 0x3E 1
/-- The working copy is FP8. -/
def Tensor.fp8 (x : Tensor) : Bool := x.wfmt % 16 = 3
/-- GRAD is BF16. -/
def Tensor.gradBf16 (x : Tensor) : Bool := x.wfmt.testBit 4
/-- WSR. -/
def Tensor.wsr (x : Tensor) : Bool := x.wfmt.testBit 5

/-- Entry i of a tensor table. -/
def tensorOf (table : List Byte) (i : Nat) : Tensor := ⟨bytesAt table (64 * i) 64⟩

/-- The entries of a tensor table. -/
def tensorsOf (table : List Byte) : List Tensor := (List.range (table.length / 64)).map (tensorOf table)

/-- Elements of a shard unit. -/
def unitSize : Nat := 2 ^ 20

/-- U: the units of N elements. -/
def unitsOf (n : Nat) : Nat := (n + unitSize - 1) / unitSize

/-- The replica that unit u belongs to (R220). -/
def unitOwner (n reps tidx u : Nat) : Nat := (u * reps / unitsOf n + tidx) % reps

/-- The units of a replica: first, and one past the last (R220). -/
def unitRange (n reps tidx rep : Nat) : Nat × Nat :=
  let u := unitsOf n
  let s := (rep + reps - tidx % reps) % reps
  ((s * u + reps - 1) / reps, ((s + 1) * u + reps - 1) / reps)

/-- The owned units of a tensor at this device. -/
def Tensor.units (x : Tensor) : Nat × Nat := unitRange x.elems x.reps x.tidx x.rep

/-- Elements of unit u. -/
def Tensor.unitElems (x : Tensor) (u : Nat) : Nat := min unitSize (x.elems - u * unitSize)

/-- Owned elements. -/
def Tensor.owned (x : Tensor) : Nat :=
  let r := x.units
  if r.2 ≤ r.1 then 0 else min x.elems (r.2 * unitSize) - r.1 * unitSize

/-- Bytes of the elements of the working copy. -/
def Tensor.elemBytes (x : Tensor) : Nat := if x.fp8 then x.elems else 2 * x.elems

/-- The place of the scales of an FP8 working copy (R223). -/
def Tensor.scalesAt (x : Tensor) : Nat := x.work + roundUp x.elems 64

/-- Bytes of the working copy with its scales. -/
def Tensor.workBytes (x : Tensor) : Nat := if x.fp8 then roundUp x.elems 64 + (x.elems + 31) / 32 else 2 * x.elems

/-- Bytes of the reduced gradient. -/
def Tensor.gradBytes (x : Tensor) : Nat := x.owned * (if x.gradBf16 then 2 else 4)

/-- An array address: aligned and owned (R225). -/
def Dev.updAddr (d : Dev) (c a len : Nat) : Bool := a % 64 = 0 && d.owns c a len

/-- A run lies in PROTECTED far memory of stack k. -/
def Dev.inStack (d : Dev) (k a len : Nat) : Bool :=
  !isNear a && stackOf a = k && stackOf (a + len - 1) = k && decide (a + len ≤ memSize) && d.regionKind a = 1 && d.regionKind (a + len - 1) = 1

/-- A tensor entry is in range (R223, R225). -/
def Dev.tensorOk (d : Dev) (c : Nat) (x : Tensor) : Bool :=
  let n := x.owned * 4
  decide (1 ≤ x.elems) && decide (x.elems ≤ 2 ^ 36) && decide (1 ≤ x.reps) && decide (x.reps ≤ 32768) && decide (x.rep < x.reps) &&
    (x.wfmt % 16 = 1 || x.wfmt % 16 = 3) && decide (x.wfmt < 64) && natAt x.raw 0x3F 1 = 0 &&
    d.updAddr c x.work x.workBytes && d.updAddr c x.master n && (x.m1 = 0 || d.updAddr c x.m1 n) && (x.m2 = 0 || d.updAddr c x.m2 n) &&
    d.updAddr c x.grad x.gradBytes && d.updAddr c x.urec (32 * (x.units.2 - x.units.1)) &&
    (n = 0 || (d.inStack (stackOf x.master) x.master n && (x.m1 = 0 || d.inStack (stackOf x.master) x.m1 n) &&
      (x.m2 = 0 || d.inStack (stackOf x.master) x.m2 n)))

/-! ### Block hashes (R237) -/

/-- The mixing step. -/
def hashMix (x0 : Word) : Word :=
  let x := (x0 ^^^ (x0 >>> 30)) * 0xBF58476D1CE4E5B9
  let x := (x ^^^ (x >>> 27)) * 0x94D049BB133111EB
  x ^^^ (x >>> 31)

/-- The hash over the words that are left, from word j. -/
def hashFrom : (fuel : Nat) → Word → Word → List Byte → Word
  | 0, _, h, _ => h
  | k + 1, jm, h, bs =>
    if bs.isEmpty then h
    else hashFrom k (jm + 0x9E3779B97F4A7C15) (h + hashMix (BitVec.ofNat 64 (leNat (bs.take 8)) ^^^ jm)) (bs.drop 8)

/-- The hash of a run of bytes, filled with zeros to the next word. -/
def hashBytes (bs : List Byte) : Word := hashFrom (bs.length / 8 + 1) 0 0 bs

/-- Audit blocks of N elements in a working format. -/
def blockCount (fp8 : Bool) (n : Nat) : Nat := ((if fp8 then n else 2 * n) + 2 ^ 20 - 1) / 2 ^ 20

/-- The runs of audit block b: its element bytes, and the scales of an FP8 block. -/
def Tensor.blockRuns (x : Tensor) (b : Nat) : List (Nat × Nat) :=
  let e := (x.work + b * 2 ^ 20, min (2 ^ 20) (x.elemBytes - b * 2 ^ 20))
  if x.fp8 then [e, (x.scalesAt + b * 32768, min 32768 ((x.elems + 31) / 32 - b * 32768))] else [e]

/-- The hash of an audit block as stored. -/
def Dev.blockHash (d : Dev) (x : Tensor) (b : Nat) : Word := hashBytes ((x.blockRuns b).flatMap (fun r => d.memBytes r.1 r.2))

/-- The unit of an audit block. -/
def Tensor.unitOfBlock (x : Tensor) (b : Nat) : Nat := if x.fp8 then b else b / 2

/-- The audit blocks of a unit. -/
def Tensor.blocksOfUnit (x : Tensor) (u : Nat) : List Nat :=
  (if x.fp8 then [u] else [2 * u, 2 * u + 1]).filter (fun b => decide (b < blockCount x.fp8 x.elems))

/-- The place of a unit's record. -/
def Tensor.recordAt (x : Tensor) (u : Nat) : Nat := x.urec + 32 * (u - x.units.1)

/-- The place of a block's hash in its unit record (R223, R238). -/
def Tensor.hashAt (x : Tensor) (b : Nat) : Nat := x.recordAt (x.unitOfBlock b) + 8 + (if x.fp8 then 0 else 8 * (b % 2))

/-! ### The working copy (R235) -/

/-- Derive the working values of elements from `e0` on from their masters: the runs to write, and the flags. -/
def Tensor.derive (x : Tensor) (r : StoreRule) (e0 : Nat) (masters : List F32) : List (Nat × List Byte) × Nat :=
  let vs := masters.map ofF32
  if x.fp8 then
    let (ss, cs, f) := blockStoreAll 3 r ((vs.length + 31) / 32) e0 vs
    ([(x.work + e0, packCodes 3 cs), (x.scalesAt + e0 / 32, ss.map (BitVec.ofNat 8))], f)
  else
    let (cs, f) := convertAll 1 r e0 vs
    ([(x.work + 2 * e0, packCodes 1 cs)], f)

/-- The rounding of a tensor's working copy at a step (R235). -/
def Dev.workRule (d : Dev) (c : Nat) (x : Tensor) (step : Nat) : StoreRule :=
  { sat := d.ctxSat c, sr := x.wsr, seed := (d.ctxMode c).2, tag := (step * 40503 + x.tidx) % 65536 }

/-- Write runs for a context one after another until one fails. -/
def Dev.putRuns (d : Dev) (c : Nat) : List (Nat × List Byte) → Dev × Option Nat
  | [] => (d, none)
  | (a, bs) :: r =>
    match d.memWriteRun { ctx := c } a bs with
    | (d, some g) => (d, some g)
    | (d, none) => d.putRuns c r

/-! ### Engines at work (R227, R229, R232) -/

/-- What engine n has still to do before any later command: the place of its command among the commands, its command and the
first of its entries; none behind an audit (R227) (DESIGN CHOICE, log entry 74). -/
def engineWork (n : Nat) : (i : Nat) → List UpdCmd → Option (Nat × UpdCmd × (Nat × Nat × Nat))
  | _, [] => none
  | i, c :: r =>
    if c.audit then none
    else match c.todo.find? (fun e => e.1 = n) with
      | some e => some (i, c, e)
      | none => engineWork n (i + 1) r

/-- UPD_ENG_STAT follows the engines' work (R242). -/
def Dev.updShow (d : Dev) : Dev :=
  let auditing := match d.upd.audit with | some a => some a.ctx | none => none
  (List.range 16).foldl (fun d n =>
    let (st, ctx, tidx) := match engineWork n 0 d.upd.cmds with
      | some (_, c, e) => (1, c.ctx, (tensorOf c.table e.2.1).tidx)
      | none => match auditing with
        | some c => (2, c, 0)
        | none => (0, 0, 0)
    let d := d.setFld (R.UPD_ENG_STAT n) F.UPD_ENG_STAT_STATE st
    let d := d.setFld (R.UPD_ENG_STAT n) F.UPD_ENG_STAT_CTX ctx
    d.setFld (R.UPD_ENG_STAT n) F.UPD_ENG_STAT_TIDX tidx) d

/-- Change the update commands. -/
def Dev.updCmds (d : Dev) (f : List UpdCmd → List UpdCmd) : Dev := { d with upd := { d.upd with cmds := f d.upd.cmds } }

/-- Change the audit in progress. -/
def Dev.updAudit (d : Dev) (f : Audit → Audit) : Dev := { d with upd := { d.upd with audit := d.upd.audit.map f } }

/-- The event of a command: its context (R243). -/
def Dev.updEvent (d : Dev) (code c : Nat) (args : List Nat) : Ev := { code := code, fn := d.ctxFn c, ctx := c, args := args }

/-- One FP32 array of an owned run, zeros for an absent array (R232). -/
def Dev.stateArray (d : Dev) (base off n : Nat) : List F32 :=
  if base = 0 then List.replicate n 0 else wordsOf n (d.memBytes (base + 4 * off) (4 * n))

/-- The gradients of an owned run, widened. -/
def Dev.gradArray (d : Dev) (x : Tensor) (off n : Nat) : List F32 :=
  if x.gradBf16 then unpackCodes 1 n (d.memBytes (x.grad + 2 * off) (2 * n)) |>.map (fun c => BitVec.ofNat 32 (c * 65536))
  else wordsOf n (d.memBytes (x.grad + 4 * off) (4 * n))

/-- The registers of one element at the start (R232). -/
def startFile (master m1 m2 g flag : F32) (params : List F32) : List F32 :=
  [master, m1, m2, g, 0, 0, 0, 0] ++ (params.take 11 ++ List.replicate (11 - params.length) (0 : F32)) ++ [flag] ++
    List.replicate 12 (0 : F32)

/-- The runs of state that a program reads for `n` owned elements from `off`. -/
def Tensor.stateRuns (x : Tensor) (prog : List Nat) (off n : Nat) : List (Nat × Nat) :=
  [(x.master + 4 * off, 4 * n)] ++ (if x.m1 ≠ 0 && kUses prog 1 then [(x.m1 + 4 * off, 4 * n)] else []) ++
    (if x.m2 ≠ 0 && kUses prog 2 then [(x.m2 + 4 * off, 4 * n)] else []) ++
    (if kUses prog 3 then [(x.grad + (if x.gradBf16 then 2 else 4) * off, (if x.gradBf16 then 2 else 4) * n)] else [])

/-- The flags of FP32 values written (R54). -/
def stateFlags (vs : List F32) : Nat := vs.foldl (fun f v => f ||| (convert 0 false none (ofF32 v)).2) 0

/-- Masters or moments that engine `n` has written: their flags, and EVT 0x0812 once a command when one is not finite (R54, R243). -/
def Dev.stateWritten (d : Dev) (c : UpdCmd) (n tidx : Nat) (vs : List F32) : Dev :=
  let d := d.descFlags c.q c.n (stateFlags vs)
  if vs.any f32NonFinite && !(d.upd.cmds.any (fun y => y.q = c.q && y.n = c.n && y.nonfinite)) then
    let d := d.updCmds (fun l => l.map (fun y => if y.q = c.q && y.n = c.n then { y with nonfinite := true } else y))
    (d.satFld R.UPD_STAT F.UPD_STAT_NONFINITE 1).raise (d.updEvent 0x0812 c.ctx [n, tidx])
  else d

/-- Write back runs of masters and moments one after another until one fails. -/
def Dev.putState (d : Dev) (c : UpdCmd) (n tidx : Nat) : List (Nat × List F32) → Dev × Option Nat
  | [] => (d, none)
  | (a, vs) :: r =>
    match d.memWriteRun { ctx := c.ctx } a (vs.flatMap (fun v => leBytes 4 v.toNat)) with
    | (d, some g) => (d.stateWritten c n tidx (vs.take ((g - a) / 4)), some g)
    | (d, none) => (d.stateWritten c n tidx vs).putState c n tidx r

/-- Up to 4,096 owned elements from `off` (element `e0` of the tensor) are updated by engine `n`: the program runs, F0 to F2 go
back, the working copy is derived (R227, R232, R233, R235); the address of the first granule that cannot be written. -/
def Dev.updateChunk (d : Dev) (n : Nat) (c : UpdCmd) (x : Tensor) (off e0 cnt : Nat) : Dev × Option Nat :=
  let ms := d.stateArray x.master off cnt
  let m1 := d.stateArray x.m1 off cnt
  let m2 := d.stateArray x.m2 off cnt
  let gs := d.gradArray x off cnt
  let start := (List.range cnt).zipWith (fun _ e => startFile e.1 e.2.1 e.2.2.1 e.2.2.2 c.flag c.params) (ms.zip (m1.zip (m2.zip gs)))
  let e := runProgram c.prog start
  let d := d.updEngine n (fun _ => e)
  let out : Nat → List F32 := fun r => e.files.map (fun f => f.getD r 0)
  let back : List (Nat × Nat) := ([(0, x.master), (1, x.m1), (2, x.m2)] : List (Nat × Nat)).filter (fun p => p.2 ≠ 0 && kStores c.block c.prog p.1)
  match d.putState c n x.tidx (back.map (fun p => (p.2 + 4 * off, out p.1))) with
  | (d, some g) => (d, some g)
  | (d, none) =>
    let (runs, f) := x.derive (d.workRule c.ctx x c.step) e0 (if kStores c.block c.prog 0 then out 0 else ms)
    match d.putRuns c.ctx runs with
    | (d, some g) => (d, some g)
    | (d, none) => (d.descFlags c.q c.n f, none)

/-- The chunks of a unit of `cnt` elements: offset in the unit and length. -/
def chunksOf (cnt : Nat) : List (Nat × Nat) :=
  (List.range ((cnt + 4095) / 4096)).map (fun i => (i * 4096, min 4096 (cnt - i * 4096)))

/-- The first granule that fails among the state of the chunks, with the number of chunks before it (DEDUCED, log entry 75). -/
def Dev.chunksFail (d : Dev) (c : UpdCmd) (x : Tensor) (base : Nat) : Nat → List (Nat × Nat) → Dev × Option (Nat × Nat)
  | _, [] => (d, none)
  | i, (o, n) :: r =>
    match d.runsFail c.ctx (x.stateRuns c.prog (base + o) n) with
    | (d, some g) => (d, some (i, g))
    | (d, none) => d.chunksFail c x base (i + 1) r

/-- Update chunks of a unit one after another until a granule cannot be written (R143, R227). -/
def Dev.updateChunks (d : Dev) (n : Nat) (c : UpdCmd) (x : Tensor) (u : Nat) : List (Nat × Nat) → Dev × Option Nat
  | [] => (d, none)
  | (o, cnt) :: r =>
    match d.updateChunk n c x ((u - x.units.1) * unitSize + o) (u * unitSize + o) cnt with
    | (d, some g) => (d, some g)
    | (d, none) => d.updateChunks n c x u r

/-- Write the hashes of a unit and then STEP into its record (R227, R238). -/
def Dev.writeUnitRecord (d : Dev) (c : Nat) (x : Tensor) (u step : Nat) : Dev × Option Nat :=
  let hs := (x.blocksOfUnit u).map (d.blockHash x)
  d.putRuns c [(x.recordAt u + 8, leBytes 8 ((hs.getD 0 0)).toNat ++ leBytes 8 ((hs.getD 1 0)).toNat), (x.recordAt u, leBytes 4 step)]

/-- What a command finishes with. -/
def Dev.updFinish (d : Dev) (c : UpdCmd) : Dev := d.complete c.q c.n c.status c.result

/-! ### Audits (R239 to R241) -/

/-- The hashes of one packet (DESIGN CHOICE, log entry 23). -/
def hashesPerPacket : Nat := 64

/-- The packets that carry an owner's hashes of one tensor to one replica (R240, DESIGN CHOICE, log entry 23). -/
def Dev.sendHashes (d : Dev) (job dst : Nat) (x : Tensor) : (fuel : Nat) → List (Nat × Word) → Dev
  | 0, _ => d
  | k + 1, hs =>
    if hs.isEmpty then d
    else
      let d := d.bamatSend { BamatPkt.blank with
        op := 1, vc := 1, job := job, tag := x.tidx, dstdev := dst, srcdev := d.selfDev, dstep := 324, srcep := 324, addr := x.elems,
        arg := x.wfmt, payload := (hs.take hashesPerPacket).flatMap (fun h => leBytes 8 h.1 ++ leBytes 8 h.2.toNat) }
      d.sendHashes job dst x k (hs.drop hashesPerPacket)

/-- A done message (R240, R273). -/
def Dev.sendAuditDone (d : Dev) (job dst : Nat) : Dev :=
  d.bamatSend { BamatPkt.blank with op := 10, vc := 0, job := job, dstdev := dst, srcdev := d.selfDev, dstep := 324, srcep := 324, arg := 4 }

/-- The owner of a block of a tensor. -/
def Tensor.blockOwner (x : Tensor) (b : Nat) : Nat := unitOwner x.elems x.reps x.tidx (x.unitOfBlock b)

/-- An audit ends: it leaves the commands and completes (R240). -/
def Dev.auditEnd (d : Dev) (status result : Nat) : Dev :=
  match d.upd.audit with
  | none => d
  | some a =>
    let d := { d with upd := { d.upd with
      audit := none
      cmds := d.upd.cmds.filter (fun c => !(c.q = a.q && c.n = a.n))
      dones := d.upd.dones.filter (fun e => e.1 ≠ a.job) } }
    d.complete a.q a.n status result

/-- The audit writes memory; a granule that cannot be written ends it with UE (R143). -/
def Dev.auditPut (d : Dev) (at_ : Nat) (bs : List Byte) : Dev :=
  match d.upd.audit with
  | none => d
  | some a =>
    match d.memWriteRun { ctx := a.ctx } at_ bs with
    | (d, none) => d
    | (d, some g) => d.auditEnd stUe g

/-- One entry of the report: a differing block (R241). -/
def Dev.reportBlock (d : Dev) (a : Audit) (x : Tensor) (b owner flags : Nat) : Dev :=
  let n := (d.upd.audit.map (·.entries)).getD 0
  let bs := leBytes 2 x.tidx ++ leBytes 2 0 ++ leBytes 4 b ++ leBytes 2 (a.peers.getD owner 0) ++ leBytes 2 d.selfDev ++ leBytes 1 flags ++
    leBytes 3 0
  let d := if n < 4096 then d.auditPut (a.report + 8 + 16 * n) bs else d
  (d.auditPut a.report (leBytes 8 (n + 1))).updAudit (fun a => { a with entries := n + 1 })

/-- Every block of every tensor: (place, block). -/
def auditBlocks (table : List Byte) : List (Nat × Nat) :=
  let ts := tensorsOf table
  ((List.range ts.length).zip ts).flatMap (fun e => (List.range (blockCount e.2.fp8 e.2.elems)).map (fun b => (e.1, b)))

/-- A replica's own comparisons are finished: every block of another owner has been handled and none is being fetched. -/
def Audit.settled (a : Audit) : Bool :=
  a.refetch.isEmpty && (auditBlocks a.table).all (fun e => (tensorOf a.table e.1).blockOwner e.2 = a.rep || a.seen.contains e)

/-- Replicas other than this one. -/
def Audit.others (a : Audit) : List Nat := (List.range a.peers.length).filter (fun r => r ≠ a.rep)

/-- Send the done messages once the own comparisons are finished, and complete once every other replica's has come (R240). -/
def Dev.auditCheck (d : Dev) : Dev :=
  match d.upd.audit with
  | none => d
  | some a =>
    if a.settled = false then d
    else
      let d := if a.told then d
        else (a.others.foldl (fun d r => d.sendAuditDone a.job (a.peers.getD r 0)) d).updAudit (fun a => { a with told := true })
      if a.others.all (fun r => a.done.contains r) then
        let d := (d.wrapFld R.UPD_AUDIT F.UPD_AUDIT_AUDITS 1).raise { d.updEvent 0x0820 a.ctx [] with job := a.job }
        d.auditEnd (if a.failed then stAuditFailed else stOk) 0
      else d

/-- The reads that fetch a block from its owner: every run in reads of at most 1,024 bytes, at the place of the same working
copy (R241, DEDUCED, log entry 24). -/
def Tensor.blockReads (x : Tensor) (b : Nat) : List (Nat × Nat) :=
  (x.blockRuns b).flatMap (fun r => (List.range ((r.2 + 1023) / 1024)).map (fun i => (r.1 + 1024 * i, roundUp (min 1024 (r.2 - 1024 * i)) 8)))

/-- Fetch a block from its owner. -/
def Dev.fetchBlock (d : Dev) (a : Audit) (f : Refetch) : Dev :=
  let x := tensorOf a.table f.place
  let rs := x.blockReads f.block
  let d := d.updAudit (fun y => { y with refetch := y.refetch ++ [{ f with tries := f.tries + 1, reads := rs.map (·.1) }] })
  rs.foldl (fun d r =>
    let p : BamatPkt := { BamatPkt.blank with
      op := 2, vc := 1, job := a.job, tag := x.tidx, dstdev := a.peers.getD f.owner 0, srcdev := d.selfDev, dstep := endpointOf r.1,
      srcep := 324, addr := r.1, arg := r.2 }
    ({ d with lnk := { d.lnk with outstanding := d.lnk.outstanding ++ [({ pkt := p, tile := none } : Outstanding)] } } : Dev).bamatSend p) d

/-- The audit's event of a differing block (R241). -/
def Dev.mismatchEvent (d : Dev) (a : Audit) (x : Tensor) (b owner : Nat) : Dev :=
  d.raise { d.updEvent 0x0821 a.ctx [x.tidx, b, a.peers.getD owner 0, d.selfDev] with job := a.job }

/-- An owner's hash of one block is compared with the local one (R240, R241). -/
def Dev.compareBlock (d : Dev) (place owner b : Nat) (want : Word) : Dev :=
  match d.upd.audit with
  | none => d
  | some a =>
    let x := tensorOf a.table place
    if a.seen.contains (place, b) || x.blockOwner b ≠ owner || decide (blockCount x.fp8 x.elems ≤ b) then d
    else
      let d := d.updAudit (fun a => { a with seen := (place, b) :: a.seen })
      if (look (place, b) a.hashes).getD 0 = want then d
      else (d.mismatchEvent a x b owner).fetchBlock a { owner := owner, place := place, block := b, want := want, tries := 0, reads := [] }

/-- Hashes of an owner arrive during an audit: a disagreeing TIDX, N or WFMT ends it (R240). -/
def Dev.auditHashes (d : Dev) (m : HashMail) : Dev :=
  match d.upd.audit with
  | none => d
  | some a =>
    let ts := tensorsOf a.table
    match a.peers.findIdx? (fun p => p = m.owner) with
    | none => d
    | some owner =>
      match ts.findIdx? (fun x => x.tidx = m.tidx && x.elems = m.elems && x.wfmt = m.wfmt) with
      | none =>
        let d := d.raise { d.updEvent 0x0824 a.ctx [m.tidx, m.owner] with job := a.job }
        d.auditEnd stInvalid (invalidTable 0x0824)
      | some place => (m.hashes.foldl (fun d h => d.compareBlock place owner h.1 h.2) d).auditCheck

/-- Elements of an audit block. -/
def Tensor.blockElems (x : Tensor) : Nat := if x.fp8 then 2 ^ 20 else 2 ^ 19

/-- The masters of an owned audit block: their address and how many. -/
def Tensor.blockMasters (x : Tensor) (b : Nat) : Nat × Nat :=
  let e0 := b * x.blockElems
  (x.master + 4 * (e0 - x.units.1 * unitSize), min x.blockElems (x.elems - e0))

/-- An owned block whose hash differs from its unit record is derived again from the master (R240). -/
def Dev.rederive (d : Dev) (a : Audit) (place b : Nat) : Dev :=
  let x := tensorOf a.table place
  let e0 := b * x.blockElems
  let m := x.blockMasters b
  let ms := wordsOf m.2 (d.memBytes m.1 (4 * m.2))
  let step := d.memNat (x.recordAt (x.unitOfBlock b)) 4
  let (runs, f) := x.derive (d.workRule a.ctx x step) e0 ms
  let d := runs.foldl (fun d r => d.auditPut r.1 r.2) d
  let h := d.blockHash x b
  let d := d.auditPut (x.hashAt b) (leBytes 8 h.toNat)
  if d.upd.audit.isNone then d
  else
    let d := (d.descFlags a.q a.n f).satFld R.UPD_AUDIT F.UPD_AUDIT_REDERIVED 1
    let d := d.raise { d.updEvent 0x0822 a.ctx [x.tidx, b] with job := a.job }
    (d.updAudit (fun y => { y with hashes := put (place, b) h y.hashes })).reportBlock a x b a.rep 2

/-- An owned block is compared with its unit record (R240): one that differs is derived again, for which its masters are read. -/
def Dev.auditOwned (d : Dev) (e : Nat × Nat) : Dev :=
  match d.upd.audit with
  | none => d
  | some a =>
    let x := tensorOf a.table e.1
    if BitVec.ofNat 64 (d.memNat (x.hashAt e.2) 8) = d.blockHash x e.2 then d
    else
      let m := x.blockMasters e.2
      match d.memCheckRead { ctx := a.ctx } m.1 (4 * m.2) with
      | (d, some g) => d.auditEnd stUe g
      | (d, none) => d.rederive a e.1 e.2

/-- The runs that hashing and comparing read: the working copies and the owned unit records. -/
def Dev.auditReads (d : Dev) (a : Audit) : Dev × Option Nat :=
  d.runsFail a.ctx ((tensorsOf a.table).flatMap (fun x =>
    [(x.work, x.workBytes), (x.urec, 32 * (x.units.2 - x.units.1))]))

/-- A due audit begins: hash, compare the owned blocks with their records, send the hashes, handle what came early (R240). -/
def Dev.auditBegin (d : Dev) (c : UpdCmd) : Dev :=
  match d.desc c.q c.n with
  | none => d
  | some y =>
    let x0 := tensorOf c.table 0
    let peers := (List.range x0.reps).map (fun i => d.memNat (y.body 0x10 8 + 2 * i) 2)
    let a : Audit := {
      q := c.q, n := c.n, ctx := c.ctx, table := c.table, peers := peers, rep := x0.rep, step := c.step, report := y.body 0x20 8,
      job := y.body 0x28 2 % 4096, start := d.now, hashes := [], seen := [], done := [], refetch := [], entries := 0, failed := false,
      told := false }
    let d := { d with upd := { d.upd with audit := some a } }
    match d.auditReads a with
    | (d, some g) => d.auditEnd stUe g
    | (d, none) =>
      let blocks := auditBlocks c.table
      let d := d.updAudit (fun a => { a with hashes := blocks.map (fun e => (e, d.blockHash (tensorOf c.table e.1) e.2)) })
      let d := d.auditPut a.report (leBytes 8 0)
      let d := (blocks.filter (fun e => (tensorOf c.table e.1).blockOwner e.2 = a.rep)).foldl Dev.auditOwned d
      if d.upd.audit.isNone then d
      else
      let d := a.others.foldl (fun d r =>
        ((List.range (c.table.length / 64)).foldl (fun d i =>
          let x := tensorOf c.table i
          let hs := ((d.upd.audit.map (·.hashes)).getD []).filter (fun h => h.1.1 = i && x.blockOwner h.1.2 = a.rep)
          d.sendHashes a.job (peers.getD r 0) x (hs.length + 1) (hs.map (fun h => (h.1.2, h.2)))) d)) d
      let early := d.upd.mail.filter (fun m => m.job = a.job)
      let came := (d.upd.dones.filter (fun e => e.1 = a.job)).filterMap (fun e => peers.findIdx? (fun p => p = e.2))
      let d := { d with upd := { d.upd with mail := d.upd.mail.filter (fun m => m.job ≠ a.job) } }
      let d := d.updAudit (fun a => { a with done := came })
      (early.foldl Dev.auditHashes d).auditCheck

/-- Commands complete in the order of their acceptance; an audit begins once every earlier command is complete (R227). -/
def Dev.updPump (d : Dev) : (fuel : Nat) → Dev
  | 0 => d.updShow
  | k + 1 =>
    match d.upd.cmds with
    | [] => d.updShow
    | c :: r =>
      if c.audit then
        if d.upd.audit.isSome then d.updShow
        else
          let d := d.auditBegin c
          if d.upd.audit.isSome then d.updShow else d.updPump k
      else if c.todo.isEmpty then (({ d with upd := { d.upd with cmds := r } } : Dev).updFinish c).updPump k
      else d.updShow

/-- Go on with the commands. -/
def Dev.updGo (d : Dev) : Dev := d.updPump (d.upd.cmds.length + 2)

/-! ### Update commands (R224 to R226) -/

/-- The body of an update descriptor in order: the offset of the first field that fails. -/
def Dev.updateBody (d : Dev) (c : Nat) (x : Desc) : Option Nat :=
  let cs : List (Bool × Nat) :=
    [(decide (x.body 0 1 < 8), 0), (x.body 1 1 = 0, 1), (decide (x.body 2 2 < 16384), 2), (decide (x.body 4 2 < 16384), 4),
     (decide (1 ≤ x.body 6 2) && decide (x.body 6 2 ≤ 4096), 6), (d.updAddr c (x.body 8 8) (64 * x.body 6 2), 8),
     (d.updAddr c (x.body 0x10 8) 16, 0x10), (d.updAddr c (x.body 0x18 8) 44, 0x18),
     (x.body 0x20 8 = 0 || d.updAddr c (x.body 0x20 8) 8, 0x20), (decide (1 ≤ x.body 0x28 4), 0x28)]
  (cs.find? (fun e => !e.1)).map (·.2)

/-- A program from memory: its block flag and its instructions; none where its header fails (R230). -/
def parseProgram (b : List Byte) : Option (Bool × List Nat) :=
  let n := natAt b 6 1
  if natAt b 0 4 = 0x434F4E4B && natAt b 4 2 = 1 && decide (1 ≤ n) && decide (n ≤ 64) && decide (natAt b 7 1 < 2) && zeroAt b 8 8 then
    some (natAt b 7 1 = 1, (List.range n).map (fun i => natAt b (16 + 4 * i) 4))
  else none

/-- A program fits a tensor: it does not touch a moment that the tensor lacks (R225). -/
def programFits (prog : List Nat) (x : Tensor) : Bool :=
  let touches : Nat → Bool := fun r => prog.any (fun w => (kReads w).contains r || (kWrites w).contains r)
  (x.m1 ≠ 0 || !touches 1) && (x.m2 ≠ 0 || !touches 2)

/-- A failed check of an update or audit descriptor. -/
def Dev.updBad (d : Dev) (q n evt res : Nat) : Checked := d.badDesc q n evt res

/-- The tensor table is read and checked. -/
def Dev.readTensors (d : Dev) (q : Nat) (x : Desc) : Checked :=
  let c := d.queueCtx q
  let n := x.body 6 2
  match d.memCheckRead { ctx := c } (x.body 8 8) (64 * n) with
  | (d, some g) => (d, .inl (stUe, g))
  | (d, none) =>
    let table := d.memBytes (x.body 8 8) (64 * n)
    match (List.range n).find? (fun i => !d.tensorOk c (tensorOf table i)) with
    | some i => d.updBad q x.n 0x0801 (invalidEntry 0x0801 i)
    | none => (d, .inr table)

/-- The checks of an update descriptor (R225): its table is the tensor table, PARAMS and the program. -/
def Dev.updateCheck (d : Dev) (q : Nat) (x : Desc) : Checked :=
  let c := d.queueCtx q
  match d.updateBody c x with
  | some off => d.updBad q x.n 0x0801 (invalidAt 0x0801 (0x10 + off))
  | none =>
    match d.readTensors q x with
    | (d, .inl e) => (d, .inl e)
    | (d, .inr table) =>
      let pa := x.body 0x10 8
      let len := 16 + 4 * min 64 (d.memNat (pa + 6) 1)
      if d.owns c pa len = false then d.updBad q x.n 0x0801 (invalidAt 0x0801 0x20)
      else
        match d.runsFail c [(pa, len), (x.body 0x18 8, 44)] with
        | (d, some g) => (d, .inl (stUe, g))
        | (d, none) =>
          match parseProgram (d.memBytes pa len) with
          | none => d.updBad q x.n 0x0802 (invalidTable 0x0802)
          | some (block, prog) =>
            if kProgramOk block prog = false then d.updBad q x.n 0x0802 (invalidTable 0x0802)
            else
              match (tensorsOf table).findIdx? (fun t => !programFits prog t) with
              | some i => d.updBad q x.n 0x0801 (invalidEntry 0x0801 i)
              | none => (d, .inr (table ++ d.memBytes (x.body 0x18 8) 44 ++ d.memBytes pa len))

/-- What the engines have to do: the owned units of each tensor whose master lies in their stack, in table order (R227). -/
def updateTodo (ts : List Tensor) : List (Nat × Nat × Nat) :=
  ((List.range ts.length).zip ts).flatMap (fun e =>
    let r := e.2.units
    (List.range (r.2 - r.1)).map (fun i => (stackOf e.2.master, e.1, r.1 + i)))

/-- An update command starts: the step-status word decides whether it runs (R226). -/
def Dev.updateStart (d : Dev) (q : Nat) (x : Desc) : Dev :=
  let c := d.queueCtx q
  let n := x.body 6 2
  let table := x.table.take (64 * n)
  let rest := x.table.drop (64 * n)
  let (block, prog) := (parseProgram (rest.drop 44)).getD (false, [])
  let sa := x.body 0x20 8
  let (d, ue) := if sa = 0 then (d, none) else d.memCheckRead { ctx := c } sa 8
  let flagged := decide (sa ≠ 0) && decide (d.memNat sa 1 ≠ 0)
  let run := !flagged || (x.body 0 1).testBit 2
  let (st, res, todo) := match ue with
    | some g => (stUe, g, [])
    | none => if run then (stOk, 0, updateTodo (tensorsOf table)) else (stSkipped, 0, [])
  let cmd : UpdCmd := {
    audit := false, q := q, n := x.n, ctx := c, table := table, prog := prog, block := block, params := wordsOf 11 rest,
    flag := if flagged then f32One else 0, step := x.body 0x28 4, todo := todo, nonfinite := false, status := st, result := res }
  let d := d.updCmds (fun l => l ++ [cmd])
  let d := if st = stSkipped then (d.satFld R.UPD_STAT F.UPD_STAT_SKIPPED 1).raise (d.updEvent 0x0810 c [x.body 0x28 4]) else d
  d.updGo

/-- UPDATE: the update descriptor at the head of queue q is checked and given to the engines (R224 to R226). -/
def execUpdate (q : Nat) (s : State) : Out :=
  onUnit "queue" 4096 q s (fun d => d.runHead q (fun x => x.typ = 18) Dev.updateCheck Dev.updateStart)

/-- Change a command. -/
def Dev.updCmd (d : Dev) (c : UpdCmd) (f : UpdCmd → UpdCmd) : Dev :=
  d.updCmds (fun l => l.map (fun y => if y.q = c.q && y.n = c.n then f y else y))

/-- A unit that cannot be read or written ends its command with UE at that granule, and EVT 0x0811 (R229). -/
def Dev.unitStops (d : Dev) (n : Nat) (c : UpdCmd) (x : Tensor) (g : Nat) : Dev :=
  ((d.raise (d.updEvent 0x0811 c.ctx [n, x.tidx, g])).updCmd c (fun y => { y with todo := [], status := stUe, result := g })).updGo

/-- A unit once its record has been written: its elements are counted (R227). -/
def unitDone (n : Nat) (c : UpdCmd) (x : Tensor) (u : Nat) : Dev × Option Nat → Dev
  | (d, some g) => d.unitStops n c x g
  | (d, none) => (d.wrapFld (R.UPD_ENG_CNT n) F.UPD_ENG_CNT_ELEMENTS (x.unitElems u)).updGo

/-- A unit once its chunks have been written: its record is written with the step (R227). -/
def unitRecord (n : Nat) (c : UpdCmd) (x : Tensor) (u : Nat) : Dev × Option Nat → Dev
  | (d, some g) => d.unitStops n c x g
  | (d, none) => unitDone n c x u (d.writeUnitRecord c.ctx x u c.step)

/-- All of a unit whose state can be read: its chunks, then its record, then the count of its elements (R227). -/
def Dev.unitWhole (d : Dev) (n : Nat) (c : UpdCmd) (x : Tensor) (u : Nat) (cs : List (Nat × Nat)) : Dev :=
  unitRecord n c x u (d.updateChunks n c x u cs)

/-- The part of a unit that was written before the state of its chunk i could not be read: which of the chunks before it is open (R143). -/
def Dev.unitPart (d : Dev) (n : Nat) (c : UpdCmd) (x : Tensor) (u : Nat) (cs : List (Nat × Nat)) (i g : Nat) : Dev :=
  match d.drew.updateChunks n c x u
      ((((List.range i).zip cs).filter (fun e => Config.partlyWritten d.fresh e.1)).map (·.2)) with
  | (d, bad) => d.unitStops n c x (bad.getD g)

/-- A unit whose record does not show the step, in the chunks `cs`, its first element at `base` of the replica's state (R227, R229). -/
def Dev.unitChunks (d : Dev) (n : Nat) (c : UpdCmd) (x : Tensor) (u base : Nat) (cs : List (Nat × Nat)) : Dev :=
  match d.chunksFail c x base 0 cs with
  | (d, some (i, g)) => d.unitPart n c x u cs i g
  | (d, none) => d.unitWhole n c x u cs

/-- A unit once its record has been read: it is passed over where the record shows the step (R227). -/
def unitGo (n : Nat) (c : UpdCmd) (x : Tensor) (u : Nat) : Dev × Option Nat → Dev
  | (d, some g) => d.unitStops n c x g
  | (d, none) =>
    if d.memNat (x.recordAt u) 4 = c.step then d.updGo
    else d.unitChunks n c x u ((u - x.units.1) * unitSize) (chunksOf (x.unitElems u))

/-- A unit from the reading of its record on (R227). -/
def Dev.unitRun (d : Dev) (n : Nat) (c : UpdCmd) (x : Tensor) (u : Nat) : Dev :=
  unitGo n c x u (d.memCheckRead { ctx := c.ctx } (x.recordAt u) 32)

/-- UPDATE_UNIT: engine n does the next unit that a command leaves it, unless its record shows the step already (R227); an
uncorrectable error while reading state, or a granule that cannot be written, ends the command, with the unit partly written and
its record not (R143, R229). -/
def execUpdateUnit (n : Nat) (s : State) : Out :=
  onUnit "engine" 16 n s (fun d =>
    match engineWork n 0 d.upd.cmds with
    | none => d
    | some (_, c, (_, place, u)) =>
      (d.updCmd c (fun y => { y with todo := y.todo.erase (n, place, u) })).unitRun n c (tensorOf c.table place) u)

/-! ### Audit descriptors and messages (R239 to R241) -/

/-- The body of an audit descriptor in order. -/
def Dev.auditBody (d : Dev) (c : Nat) (x : Desc) : Option Nat :=
  let cs : List (Bool × Nat) :=
    [(decide (x.body 0 1 < 8), 0), (x.body 1 1 = 0, 1), (decide (x.body 2 2 < 16384), 2), (decide (x.body 4 2 < 16384), 4),
     (decide (1 ≤ x.body 6 2) && decide (x.body 6 2 ≤ 4096), 6), (d.updAddr c (x.body 8 8) (64 * x.body 6 2), 8),
     (d.updAddr c (x.body 0x20 8) 65544, 0x20), (decide (x.body 0x28 2 < 4096), 0x28), (zeroAt x.raw 0x3A 6, 0x2A)]
  (cs.find? (fun e => !e.1)).map (·.2)

/-- Whether an audit is due (R239). -/
def Dev.auditDue (d : Dev) (x : Desc) : Bool :=
  (x.body 0 1).testBit 2 || x.body 0x18 4 % d.fld R.UPD_CFG F.UPD_CFG_AUDIT_N = 0

/-- The checks of an audit descriptor; one that is not due completes at once without reading anything (R239). -/
def Dev.auditDescCheck (d : Dev) (q : Nat) (x : Desc) : Checked :=
  let c := d.queueCtx q
  if d.auditDue x = false then (d.markStart q x.n, .inl (stOk, 0))
  else
    match d.auditBody c x with
    | some off => d.updBad q x.n 0x0801 (invalidAt 0x0801 (0x10 + off))
    | none =>
      match d.readTensors q x with
      | (d, .inl e) => (d, .inl e)
      | (d, .inr table) =>
        let x0 := tensorOf table 0
        if (tensorsOf table).any (fun t => t.reps ≠ x0.reps || t.rep ≠ x0.rep) then d.updBad q x.n 0x0801 (invalidTable 0x0801)
        else if d.updAddr c (x.body 0x10 8) (2 * x0.reps) = false then d.updBad q x.n 0x0801 (invalidAt 0x0801 0x20)
        else
          match d.memCheckRead { ctx := c } (x.body 0x10 8) (2 * x0.reps) with
          | (d, some g) => (d, .inl (stUe, g))
          | (d, none) =>
            if d.memNat (x.body 0x10 8 + 2 * x0.rep) 2 ≠ d.selfDev then d.updBad q x.n 0x0801 (invalidTable 0x0801)
            else (d, .inr table)

/-- An audit is accepted. -/
def Dev.auditStart (d : Dev) (q : Nat) (x : Desc) : Dev :=
  let cmd : UpdCmd := {
    audit := true, q := q, n := x.n, ctx := d.queueCtx q, table := x.table, prog := [], block := false, params := [], flag := 0,
    step := x.body 0x18 4, todo := [], nonfinite := false, status := stOk, result := 0 }
  (d.updCmds (fun l => l ++ [cmd])).updGo

/-- AUDIT: the audit descriptor at the head of queue q is checked, and audits the replica once earlier commands are complete
(R239, R240). -/
def execAudit (q : Nat) (s : State) : Out :=
  onUnit "queue" 4096 q s (fun d => d.runHead q (fun x => x.typ = 19) Dev.auditDescCheck Dev.auditStart)

/-- OWNER_HASHES: an owner's block hashes arrive: compared in an audit, kept for one that has not begun (R240, R241). -/
def execOwnerHashes (job owner tidx nElems wfmt : Nat) (hashes : List (Nat × Word)) (s : State) : Out :=
  onDev s (fun d =>
    let m : HashMail := ⟨job, owner, tidx, nElems, wfmt, hashes⟩
    match d.upd.audit with
    | some a => if a.job = job then (d.auditHashes m).updGo else { d with upd := { d.upd with mail := d.upd.mail ++ [m] } }
    | none => { d with upd := { d.upd with mail := d.upd.mail ++ [m] } })

/-- NOTICE_AUDIT_DONE: a replica's done message arrives (R240). -/
def execNoticeAuditDone (job dev : Nat) (s : State) : Out :=
  onDev s (fun d =>
    let keep : Dev := { d with upd := { d.upd with dones := d.upd.dones ++ [(job, dev)] } }
    match d.upd.audit with
    | none => keep
    | some a =>
      if a.job ≠ job then keep
      else
        match a.peers.findIdx? (fun p => p = dev) with
        | none => d
        | some r => ((d.updAudit (fun a => { a with done := r :: a.done })).auditCheck).updGo)

/-- The replicas an audit still misses: their hashes, their data or their done message. -/
def Audit.missing (a : Audit) : List Nat :=
  a.others.filter (fun r => !a.done.contains r || a.refetch.any (fun f => f.owner = r) ||
    (auditBlocks a.table).any (fun e => (tensorOf a.table e.1).blockOwner e.2 = r && !a.seen.contains e))

/-- The audit ends with TIMEOUT, naming the replicas that it misses (R240, R280). -/
def Dev.auditLate (d : Dev) (a : Audit) (missing : List Nat) : Dev :=
  let d := d.raise { d.updEvent 0x0823 a.ctx (missing.map (fun r => a.peers.getD r 0)) with job := a.job }
  (d.auditEnd stTimeout 0).updGo

/-- AUDIT_TIMEOUT: an audit that is not complete AUDIT_TIMEOUT after its start completes with TIMEOUT (R240). -/
def execAuditTimeout (job : Nat) (s : State) : Out :=
  onDev s (fun d =>
    match d.upd.audit with
    | none => d
    | some a =>
      if a.job = job && decide (a.start + d.fld R.UPD_CFG F.UPD_CFG_AUDIT_TIMEOUT * 1000000 ≤ d.now) then d.auditLate a a.missing else d)

/-- A block that was fetched again has landed: hashed again; a difference fetches it once more, a third leaves it unrepaired
(R241). -/
def Dev.refetched (d : Dev) (a : Audit) (f : Refetch) : Dev :=
  let x := tensorOf a.table f.place
  let d := d.updAudit (fun y => { y with refetch := y.refetch.filter (fun g => !(g.place = f.place && g.block = f.block)) })
  let d := if f.tries = 1 then d.satFld R.UPD_AUDIT F.UPD_AUDIT_MISMATCH 1 else d
  if d.blockHash x f.block = f.want then (d.reportBlock a x f.block f.owner 1).auditCheck
  else if f.tries < 2 then d.fetchBlock a { f with reads := [] }
  else
    let d := d.updAudit (fun y => { y with failed := true })
    (d.reportBlock a x f.block f.owner 0).auditCheck

/-- Read data of the audit arrive (R241): written into the working copy; the last of a block ends its fetch. -/
def Dev.auditData (d : Dev) (p : BamatPkt) : Dev :=
  match d.upd.audit with
  | none => d
  | some a =>
    match a.refetch.find? (fun f => f.reads.contains p.addr && a.peers.getD f.owner 0 = p.srcdev) with
    | none => d
    | some f =>
      let x := tensorOf a.table f.place
      let len := ((x.blockRuns f.block).filterMap (fun r =>
        if decide (r.1 ≤ p.addr) && decide (p.addr < r.1 + r.2) then some (r.1 + r.2 - p.addr) else none)).headD 0
      let d := d.auditPut p.addr (p.payload.take len)
      let g := { f with reads := f.reads.erase p.addr }
      let d := d.updAudit (fun y => { y with refetch := y.refetch.map (fun h => if h = f then g else h) })
      if g.reads.isEmpty then (d.refetched a g).updGo else d

/-- A replica refuses an operation of the audit: it is treated as missing, the audit completes at once with TIMEOUT (R280). -/
def Dev.auditRefused (d : Dev) (p : BamatPkt) : Dev :=
  match d.upd.audit with
  | none => d
  | some a => if a.job = p.job && a.peers.contains p.srcdev then
      d.auditLate a ((a.peers.findIdx? (fun x => x = p.srcdev)).toList) else d

/-- A resign covers an update or audit command: the engines start no other unit, the command completes with RESIGNED (R229). -/
def Dev.updResign (d : Dev) (q n : Nat) : Dev :=
  match d.upd.audit with
  | some a => if a.q = q && a.n = n then (d.auditEnd stResigned 0).updGo else others d
  | none => others d
where
  /-- Commands other than the audit in progress. -/
  others (d : Dev) : Dev :=
    match d.upd.cmds.find? (fun c => c.q = q && c.n = n) with
    | none => d
    | some c =>
      if c.audit then ((d.updCmds (fun l => l.filter (fun y => !(y.q = q && y.n = n)))).complete q n stResigned 0).updGo
      else if c.todo.isEmpty then d.updGo
      else (d.updCmd c (fun y => { y with todo := [], status := stResigned })).updGo

end Sys2Proof.Machine
end

