-- ==== Sys2Proof/Machine/Collective.lean ====
section
/-! DEFINITION. Collectives (chapter 11): descriptors and shares, contributions, the owner's accumulation, deadlines and backups,
step status, the sampled second reduction, all-gather, plain accumulates. -/

namespace Sys2Proof.Machine

/-! ### Descriptors (R245 to R247) -/

/-- A collective's body and member table. -/
structure CollDesc where
  body : List Byte
  table : List Byte
  deriving DecidableEq, Repr

/-- OP. -/
def CollDesc.op (x : CollDesc) : Nat := natAt x.body 0 1
/-- Input format. -/
def CollDesc.fmt (x : CollDesc) : Nat := natAt x.body 1 1 % 16
/-- Output format. -/
def CollDesc.ofmt (x : CollDesc) : Nat := natAt x.body 1 1 / 16
/-- GROUP. -/
def CollDesc.group (x : CollDesc) : Nat := natAt x.body 2 1 % 4
/-- HFMT. -/
def CollDesc.hfmt (x : CollDesc) : Nat := bits (natAt x.body 2 1) 3 2
/-- FLAGS. -/
def CollDesc.flag (x : CollDesc) (i : Nat) : Bool := (natAt x.body 3 1).testBit i
/-- CHECK. -/
def CollDesc.checkSel (x : CollDesc) : Nat := bits (natAt x.body 3 1) 3 2
/-- SRC. -/
def CollDesc.src (x : CollDesc) : Nat := natAt x.body 8 8
/-- DST. -/
def CollDesc.dst (x : CollDesc) : Nat := natAt x.body 0x10 8
/-- TABLE. -/
def CollDesc.tableAt (x : CollDesc) : Nat := natAt x.body 0x18 8
/-- N. -/
def CollDesc.elems (x : CollDesc) : Nat := natAt x.body 0x20 5
/-- NMEMB. -/
def CollDesc.nmemb (x : CollDesc) : Nat := natAt x.body 0x28 2
/-- SELF. -/
def CollDesc.self (x : CollDesc) : Nat := natAt x.body 0x2A 2
/-- STEP. -/
def CollDesc.step (x : CollDesc) : Nat := natAt x.body 0x2C 4
/-- JOB. -/
def CollDesc.job (x : CollDesc) : Nat := natAt x.table 0 2
/-- ROOT. -/
def CollDesc.root (x : CollDesc) : Nat := natAt x.table 2 2
/-- DLINE in ns. -/
def CollDesc.dline (x : CollDesc) : Nat := (if natAt x.table 4 1 = 0 then 4 else natAt x.table 4 1) * 500000
/-- LEVEL. -/
def CollDesc.level (x : CollDesc) : Nat := natAt x.table 5 1
/-- TIDX. -/
def CollDesc.tidx (x : CollDesc) : Nat := natAt x.table 6 2
/-- TIMEOUT_MS in ns. -/
def CollDesc.timeout (x : CollDesc) : Nat := (if natAt x.table 0xC 4 = 0 then 1000 else natAt x.table 0xC 4) * 1000000
/-- STATUS. -/
def CollDesc.status (x : CollDesc) : Nat := natAt x.table 0x10 8
/-- HASHES. -/
def CollDesc.hashesAt (x : CollDesc) : Nat := natAt x.table 0x28 8
/-- PRIMARY of member c. -/
def CollDesc.primary (x : CollDesc) (c : Nat) : Nat := natAt x.table (64 + 16 * c) 2
/-- BACKUP of member c. -/
def CollDesc.backup (x : CollDesc) (c : Nat) : Nat := natAt x.table (66 + 16 * c) 2
/-- SEND of member c. -/
def CollDesc.send (x : CollDesc) (c : Nat) : Nat := natAt x.table (72 + 16 * c) 4
/-- RECV of member c. -/
def CollDesc.recv (x : CollDesc) (c : Nat) : Nat := natAt x.table (76 + 16 * c) 4
/-- Whether it is a reduction. -/
def CollDesc.reduces (x : CollDesc) : Bool := x.op = 1 || x.op = 3
/-- Whether this device serves as a backup. -/
def CollDesc.isBackup (x : CollDesc) : Bool := x.flag 5
/-- Whether a member has a backup. -/
def CollDesc.hasBackup (x : CollDesc) (c : Nat) : Bool := x.backup c ≠ 0xFFFF
/-- The members. -/
def CollDesc.members (x : CollDesc) : List Nat := List.range x.nmemb

/-- A collective's descriptor. -/
def Collective.desc (c : Collective) : CollDesc := ⟨c.body, c.table⟩

/-- The share of member j: its first element and its length (R247). -/
def CollDesc.share (x : CollDesc) (j : Nat) : Nat × Nat :=
  if x.flag 6 then
    let r := unitRange x.elems x.nmemb x.tidx j
    (min x.elems (r.1 * unitSize), min x.elems (r.2 * unitSize) - min x.elems (r.1 * unitSize))
  else (j * x.elems / x.nmemb, (j + 1) * x.elems / x.nmemb - j * x.elems / x.nmemb)

/-- Ranges of a share. -/
def CollDesc.ranges (x : CollDesc) (j : Nat) : Nat := ((x.share j).2 + 255) / 256

/-- Elements of range r of share j. -/
def CollDesc.rangeLen (x : CollDesc) (j r : Nat) : Nat := min 256 ((x.share j).2 - 256 * r)

/-- Bytes of an output element. -/
def CollDesc.outBytes (x : CollDesc) : Nat := if x.ofmt = 1 then 2 else 4

/-- The place of a member's share in its DST: the whole of DST in a reduce-scatter, its part in an all-reduce (R245). -/
def CollDesc.shareAt (x : CollDesc) (j : Nat) : Nat := x.dst + (if x.op = 3 then (x.share j).1 * x.outBytes else 0)

/-- Bytes of n elements in a format without their scales. -/
def elemBytesOf (fmt n : Nat) : Nat := packedBytes fmt n

/-- Bytes of n elements with the scales of formats 3 to 8 (R245). -/
def scaledBytes (fmt n : Nat) : Nat :=
  if decide (3 ≤ fmt) && decide (fmt ≤ 8) then roundUp (elemBytesOf fmt n) 64 + (n + 31) / 32 else elemBytesOf fmt n

/-- Bytes of the work area (R248). -/
def workNeed (x : CollDesc) (red det check : Bool) : Nat :=
  let s := x.ranges x.self
  if x.reduces = false then 0
  else 64 * x.nmemb + (if red then s else (x.nmemb * s + 7) / 8) + (if det then 1024 * s * (x.nmemb - 1) else 0) +
    (if check then (s + 3) / 4 * 6 * x.nmemb else 0)

/-- Bytes of n elements' hashes at HASHES (R259): as far as the last block's. -/
def CollDesc.hashLen (x : CollDesc) : Nat :=
  let blocks := (elemBytesOf x.fmt (x.share x.self).2 + 2 ^ 20 - 1) / 2 ^ 20
  if x.op ≠ 2 || x.hfmt = 0 || blocks = 0 then 0
  else
    let b := blocks - 1
    match x.hfmt with
    | 1 => b / 2 * 32 + 16 + b % 2 * 8
    | 2 => b * 32 + 16
    | _ => b * 8 + 8

/-- Elements that SRC and DST hold at this device. -/
def CollDesc.srcLen (x : CollDesc) : Nat :=
  match x.op with
  | 2 => scaledBytes x.fmt (x.share x.self).2
  | 5 => elemBytesOf x.fmt ((x.members.map x.send).foldl (· + ·) 0)
  | 4 => if x.root = x.self then scaledBytes x.fmt x.elems else 0
  | _ => scaledBytes x.fmt x.elems

/-- Bytes of DST at this device: with its output, the accumulators of its share, which live there in FP32 (R251). -/
def CollDesc.dstLen (x : CollDesc) : Nat :=
  let acc := x.shareAt x.self - x.dst + 4 * (x.share x.self).2
  match x.op with
  | 1 => max ((x.share x.self).2 * x.outBytes) acc
  | 3 => max (x.elems * x.outBytes) acc
  | 5 => elemBytesOf x.fmt ((x.members.map x.recv).foldl (· + ·) 0)
  | _ => scaledBytes x.fmt x.elems

/-! ### Checks (R248, R250, R263) -/

/-- Whether the dual-path check is on (R245, R258, R263). -/
def Dev.checkOn (d : Dev) (x : CollDesc) : Bool :=
  x.reduces && (x.checkSel = 1 || (x.checkSel = 0 && d.fld R.COL_CFG F.COL_CFG_CHECK_DEF = 1 && decide (2 ≤ x.level)))

/-- Whether packets travel reducible (R250). -/
def CollDesc.redOn (x : CollDesc) (det check : Bool) : Bool :=
  x.reduces && x.flag 4 && (x.fmt = 0 || x.fmt = 1) && decide (x.nmemb ≤ 255) && !det && x.members.all (fun c => !x.hasBackup c) && !check

/-- The fields of the body that need no table: the offset of the first that fails. -/
def CollDesc.bodyBad (x : CollDesc) : Option Nat :=
  let scaled := decide (x.elems ≠ 0) && decide (x.elems ≤ 2 ^ 36)
  let cs : List (Bool × Nat) :=
    [(decide (1 ≤ x.op) && decide (x.op ≤ 5), 0),
     (if x.reduces then (x.fmt = 0 || x.fmt = 1 || x.fmt = 4) && decide (x.ofmt ≤ 1) else fmtOk x.fmt && x.ofmt = 0, 1),
     (decide (natAt x.body 2 1 < 16), 2), (decide (natAt x.body 3 1 < 128) && x.checkSel ≠ 3, 3),
     (decide (natAt x.body 4 2 < 16384), 4), (decide (natAt x.body 6 2 < 16384), 6), (scaled && zeroAt x.body 0x25 3, 0x20),
     (decide (1 ≤ x.nmemb) && decide (x.nmemb ≤ 4096), 0x28), (decide (x.self < x.nmemb), 0x2A), (decide (1 ≤ x.step), 0x2C)]
  (cs.find? (fun e => !e.1)).map (·.2)

/-- The header and the entries of the member table in themselves (R246, R247). -/
def CollDesc.tableOk (x : CollDesc) : Bool :=
  decide (x.job < 4096) && decide (natAt x.table 0xC 4 ≤ 60000) && zeroAt x.table 0x30 16 && (x.op ≠ 4 || decide (x.root < x.nmemb)) &&
    x.members.all (fun c => zeroAt x.table (68 + 16 * c) 4 && decide (x.primary c < 32768) &&
      (decide (x.backup c < 32768) || x.backup c = 0xFFFF)) &&
    (x.flag 6 || x.op = 4 || x.op = 5 || x.elems % (x.nmemb * 256) = 0) &&
    (x.op ≠ 5 || (decide ((x.members.map x.send).foldl (· + ·) 0 * fmtBits x.fmt % 8 = 0) &&
      x.members.all (fun c => x.send c * fmtBits x.fmt % 8 = 0 && x.recv c * fmtBits x.fmt % 8 = 0)))

/-- A level uses nothing that it lacks (R263). -/
def CollDesc.levelFits (x : CollDesc) : Bool :=
  decide (2 ≤ x.level) || (x.members.all (fun c => !x.hasBackup c) && x.checkSel ≠ 1 && x.hfmt = 0 && !(x.reduces && x.fmt = 4))

/-- The places of a collective (R248). -/
def Dev.collPlaces (d : Dev) (c : Nat) (x : CollDesc) (red det check : Bool) : Bool :=
  let ok : Nat → Nat → Bool := fun a len => d.updAddr c a len
  (x.srcLen = 0 || ok x.src x.srcLen) && (x.dstLen = 0 || ok x.dst x.dstLen) && (x.status = 0 || ok x.status (0x40 + (x.nmemb + 7) / 8)) &&
    (workNeed x red det check = 0 ||
      (!isNear (natAt x.table 0x18 8) && ok (natAt x.table 0x18 8) (natAt x.table 0x20 8) &&
        decide (workNeed x red det check ≤ natAt x.table 0x20 8))) &&
    (x.hashLen = 0 || ok x.hashesAt x.hashLen) &&
    (!x.reduces || x.dstLen = 0 ||
      (!isNear x.dst && decide (x.dst + x.dstLen ≤ memSize) && stackOf x.dst = stackOf (x.dst + x.dstLen - 1)))

/-- No open collective of the job overlaps the DST range at this device. -/
def Dev.collApart (d : Dev) (x : CollDesc) : Bool :=
  d.col.open_.all (fun e =>
    let y := e.2.desc
    e.2.job ≠ x.job || decide (y.dst + y.dstLen ≤ x.dst) || decide (x.dst + x.dstLen ≤ y.dst))

/-- The event of a collective descriptor that is refused: it names the job and the step (R265). -/
def Dev.collDescEvent (d : Dev) (code q n job step : Nat) : Ev :=
  let e := d.descEvent code q n
  { e with job := job, args := step :: e.args }

/-- The checks of a collective descriptor (R248, R263). -/
def Dev.collCheck (d : Dev) (q : Nat) (x : Desc) : Checked :=
  let c := d.queueCtx q
  let b : CollDesc := ⟨x.raw.drop 16, []⟩
  let bad : Dev → Nat → Nat → Checked := fun d job res =>
    (d.raise (d.collDescEvent 0x0901 q x.n job b.step), .inl (stInvalid, res))
  match b.bodyBad with
  | some off => bad d 0xFFFF (invalidAt 0x0901 (0x10 + off))
  | none =>
    let len := 64 + 16 * b.nmemb
    if d.updAddr c b.tableAt len = false then bad d 0xFFFF (invalidAt 0x0901 0x28)
    else
      match d.memCheckRead { ctx := c } b.tableAt len with
      | (d, some g) => (d, .inl (stUe, g))
      | (d, none) =>
        let y : CollDesc := ⟨b.body, d.memBytes b.tableAt len⟩
        let badTable : Dev → Checked := fun d => bad d y.job (invalidTable 0x0901)
        match look y.job d.jobs with
        | none => badTable d
        | some j =>
          let check := d.checkOn y
          let red := y.redOn j.det check
          if y.tableOk = false || j.ctx ≠ c then badTable d
          else if decide (d.fld R.COL_CFG F.COL_CFG_LEVEL_MAX < y.level) || y.level ≠ j.level then
            (d.raise (d.collDescEvent 0x0903 q x.n y.job y.step), .inl (stLevel, 0))
          else if y.levelFits = false || (if y.isBackup then y.backup y.self else y.primary y.self) ≠ d.selfDev then
            badTable d
          else if !(d.collPlaces c y red j.det check) || !(d.collApart y) then badTable d
          else if 256 ≤ d.col.open_.length then (d, .inl (stBusy, 0))
          else (d, .inr y.table)

/-! ### The open collective -/

/-- Change an open collective. -/
def Dev.updColl (d : Dev) (id : Nat) (f : Collective → Collective) : Dev :=
  { d with col := { d.col with open_ := alter id f d.col.open_ } }

/-- An open collective. -/
def Dev.coll (d : Dev) (id : Nat) : Option Collective := look id d.col.open_

/-- Change what is known of a contributor. -/
def Dev.updContrib (d : Dev) (id c : Nat) (f : Contrib → Contrib) : Dev :=
  d.updColl id (fun x => { x with contribs := alter c f x.contribs })

/-- What is known of a contributor. -/
def Collective.contrib (x : Collective) (c : Nat) : Contrib :=
  (look c x.contribs).getD { complete := none, excluded := false, abandoned := false, asked := false }

/-- COL_STAT.OPEN follows the open collectives. -/
def Dev.collShow (d : Dev) : Dev := d.setFld R.COL_STAT F.COL_STAT_OPEN d.col.open_.length

/-- A collective ends. -/
def Dev.collEnd (d : Dev) (id status result : Nat) : Dev :=
  match d.coll id with
  | none => d
  | some x =>
    let word := ((look x.desc.self x.sums).map (fun s => s.word.toNat)).getD x.flags
    let d := { d with col := { d.col with open_ := drop1 id d.col.open_ } }
    let d := match x.mcast with
      | some g => ({ d with noc := { d.noc with groups := d.noc.groups.filter (fun e => e.1 ≠ g) } } : Dev).setReg (R.NOC_MCAST g) 0
      | none => d
    let d := (d.collShow).wrapFld R.COL_CNT F.COL_CNT_COMPLETED 1
    let d := if word.testBit 1 || x.flags.testBit 1 then d.satFld R.COL_STAT F.COL_STAT_PARTIAL 1 else d
    let d := if word.testBit 0 || x.flags.testBit 0 then d.satFld R.COL_STRAY F.COL_STRAY_NONFINITE 1 else d
    d.complete x.q x.n status result

/-- The event of a collective (R265): job and step. -/
def Dev.collEvent (d : Dev) (x : Collective) (code : Nat) (more : List Nat) : Ev :=
  { code := code, fn := d.ctxFn x.ctx, ctx := x.ctx, job := x.job, args := x.desc.step :: more }

/-! ### Sending (R249, R250, R257, R258; DESIGN CHOICE, log entry 23 for what the spec leaves open of the wire form) -/

/-- The virtual channel of a collective. -/
def CollDesc.vc (x : CollDesc) : Nat := 1 + x.group

/-- A packet of a collective goes to a device: contributions to this device itself through the mesh. -/
def Dev.collQueue (d : Dev) (p : BamatPkt) : Dev :=
  if p.dstdev = d.selfDev && p.op = 5 then d.sendMesh (meshIn p.srcep p) (some p) else d.bamatQueue none p.srcep p

/-- Packets of a collective go to their devices, end to end in the flits of each channel (R249, R270). -/
def Dev.collSend (d : Dev) (ps : List BamatPkt) : Dev := (ps.foldl Dev.collQueue d).pumpAll

/-- The bytes of a range of share j in SRC: element bytes, then the scale bytes of FP8 (R247). -/
def Dev.rangeBytes (d : Dev) (x : CollDesc) (j r : Nat) : List Byte :=
  let e := (x.share j).1 + 256 * r
  let n := x.rangeLen j r
  match x.fmt with
  | 0 => d.memBytes (x.src + 4 * e) (4 * n)
  | 1 => d.memBytes (x.src + 2 * e) (2 * n)
  | _ => d.memBytes (x.src + e) n ++ d.memBytes (x.src + roundUp x.elems 64 + e / 32) ((n + 31) / 32)

/-- The TAG of a collective packet (R249). -/
def CollDesc.tag (x : CollDesc) (red chk bkp : Bool) : Nat :=
  (if red then 0 else x.self) + 4096 * b2n chk + 8192 * b2n bkp + x.step % 4 * 16384

/-- The place of range r's accumulator in the DST of share j (R251) (DEDUCED, log entry 155). -/
def CollDesc.accAt (x : CollDesc) (j r : Nat) : Nat := x.shareAt j + 1024 * r

/-- One ACC packet. -/
def Dev.accPacket (d : Dev) (x : CollDesc) (red bkp : Bool) (j r : Nat) : BamatPkt :=
  { BamatPkt.blank with
    op := 5, vc := x.vc, red := red, rfmt := if red then x.fmt else 0, job := x.job, tag := x.tag red false bkp, dstdev := x.primary j,
    srcdev := d.selfDev, dstep := 256 + stackOf x.dst, srcep := 322, addr := x.accAt j r, cnt := b2n red,
    total := if red then x.nmemb else 0, hb := if red then d.fld R.NOC_CFG F.NOC_CFG_EP_HOLD / 2 else 0, payload := d.rangeBytes x j r }

/-- A notice (R273): code 1 DONE, 2 ABANDON, 3 BACKUP_REQ, which names the contributor. -/
def Dev.collNotice (d : Dev) (x : CollDesc) (code con dst : Nat) (payload : List Byte) : BamatPkt :=
  { BamatPkt.blank with
    op := 10, vc := 0, job := x.job, tag := x.self, dstdev := dst, srcdev := d.selfDev, dstep := 322, srcep := 322, addr := x.step,
    arg := code + 256 * con, payload := payload }

/-- The sampled offset in block k (R258). -/
def sampledOffset (job step k : Nat) : Nat :=
  (splitMix (splitMix ((BitVec.ofNat 64 job <<< 32) ^^^ BitVec.ofNat 64 step) ^^^ BitVec.ofNat 64 k)).toNat % 1024

/-- Whether a global element is sampled. -/
def CollDesc.sampled (x : CollDesc) (e : Nat) : Bool := e % 1024 = sampledOffset x.job x.step (e / 1024)

/-- The sampled elements of a share, ascending. -/
def CollDesc.samplesOf (x : CollDesc) (j : Nat) : List Nat :=
  let (e0, n) := x.share j
  if n = 0 then []
  else ((List.range ((e0 + n - 1) / 1024 + 1 - e0 / 1024)).map (fun i =>
    (e0 / 1024 + i) * 1024 + sampledOffset x.job x.step (e0 / 1024 + i))).filter (fun e => decide (e0 ≤ e) && decide (e < e0 + n))

/-- An element of SRC widened to FP32. -/
def Dev.srcElem (d : Dev) (x : CollDesc) (e : Nat) : F32 :=
  match x.fmt with
  | 0 => BitVec.ofNat 32 (d.memNat (x.src + 4 * e) 4)
  | 1 => BitVec.ofNat 32 (d.memNat (x.src + 2 * e) 2 * 65536)
  | f => toF32 (blockDecode f (d.memNat (x.src + e) 1) (d.memNat (x.src + roundUp x.elems 64 + e / 32) 1))

/-- The check packets of one owner, 256 samples each (R258). -/
def Dev.checkPackets (d : Dev) (x : CollDesc) (bkp : Bool) (j : Nat) : (fuel : Nat) → List Nat → List BamatPkt
  | 0, _ => []
  | k + 1, es =>
    if es.isEmpty then []
    else
      { BamatPkt.blank with
        op := 5, vc := x.vc, job := x.job, tag := x.tag false true bkp, dstdev := x.primary j, srcdev := d.selfDev, dstep := 322, srcep := 322,
        addr := es.headD 0, payload := (es.take 256).flatMap (fun e => leBytes 4 (d.srcElem x e).toNat) } ::
        d.checkPackets x bkp j k (es.drop 256)

/-- Everything that a contributor sends to one owner: the samples first (DEDUCED, log entry 25), then the ranges. -/
def Dev.sharePackets (d : Dev) (x : CollDesc) (red check : Bool) (j : Nat) : List BamatPkt :=
  (if check then d.checkPackets x false j (x.elems / 1024 + 2) (x.samplesOf j) else []) ++
    (List.range (x.ranges j)).map (fun r => d.accPacket x red false j r) ++
    (if red then [d.collNotice x 1 0 (x.primary j) []] else [])

/-! ### All-gather and its like (R245, R259) -/

/-- What member i sends to member j outside a reduction, as runs of bytes: a block's runs are cut at 1 MiB of elements. For each
run: the sender's place, the receiver's place, the length. -/
def CollDesc.gatherRuns (x : CollDesc) (i j : Nat) : List (Nat × Nat × Nat) :=
  let scales : Nat → Nat → Nat → List (Nat × Nat × Nat) := fun src dst n =>
    if decide (3 ≤ x.fmt) && decide (x.fmt ≤ 8) then [(src, dst, (n + 31) / 32)] else []
  match x.op with
  | 2 =>
    let (e, n) := x.share i
    (x.src, x.dst + elemBytesOf x.fmt e, elemBytesOf x.fmt n) ::
      scales (x.src + roundUp (elemBytesOf x.fmt n) 64) (x.dst + roundUp (elemBytesOf x.fmt x.elems) 64 + e / 32) n
  | 3 =>
    let (_, n) := x.share i
    [(x.shareAt i, x.shareAt i, n * x.outBytes)]
  | 4 =>
    if i = x.root then
      (x.src, x.dst, elemBytesOf x.fmt x.elems) ::
        scales (x.src + roundUp (elemBytesOf x.fmt x.elems) 64) (x.dst + roundUp (elemBytesOf x.fmt x.elems) 64) x.elems
    else []
  | _ =>
    let before := ((List.range j).map x.send).foldl (· + ·) 0
    let into := ((List.range i).map x.recv).foldl (· + ·) 0
    [(x.src + elemBytesOf x.fmt before, x.dst + elemBytesOf x.fmt into, elemBytesOf x.fmt (if i = x.self then x.send j else x.recv i))]

/-- The runs of block b: 1 MiB of element bytes, and the 32 KiB of scales that go with them. -/
def CollDesc.gatherBlock (x : CollDesc) (i j b : Nat) : List (Nat × Nat × Nat) :=
  match x.gatherRuns i j with
  | [] => []
  | (s, t, n) :: r =>
    let per := if fmtBits x.fmt = 8 then 32768 else 2 ^ 20 * 8 / fmtBits x.fmt / 32
    (s + b * 2 ^ 20, t + b * 2 ^ 20, min (2 ^ 20) (n - b * 2 ^ 20)) ::
      r.map (fun e => (e.1 + b * per, e.2.1 + b * per, min per (e.2.2 - b * per)))

/-- Blocks that member i sends to member j. -/
def CollDesc.gatherCount (x : CollDesc) (i j : Nat) : Nat :=
  match x.gatherRuns i j with
  | [] => 0
  | (_, _, n) :: _ => (n + 2 ^ 20 - 1) / 2 ^ 20

/-- The hash that goes with block b of this device's share (R259). -/
def Dev.gatherHash (d : Dev) (x : CollDesc) (b : Nat) : Nat :=
  let a := x.hashesAt + (match x.hfmt with | 1 => b / 2 * 32 + 8 + b % 2 * 8 | 2 => b * 32 + 8 | _ => b * 8)
  if x.op = 2 && x.hfmt ≠ 0 then d.memNat a 8 else 0

/-- One block for a member in packets of at most 1,024 bytes; each carries the block's hash. -/
def Dev.blockPackets (d : Dev) (x : CollDesc) (j b : Nat) : List BamatPkt :=
  let bs := (x.gatherBlock x.self j b).flatMap (fun r => d.memBytes r.1 r.2.2)
  let h := leBytes 8 (d.gatherHash x b)
  (List.range ((bs.length + 1015) / 1016)).map (fun i =>
    { BamatPkt.blank with
      op := 1, vc := x.vc, job := x.job, tag := x.self, dstdev := x.primary j, srcdev := d.selfDev, dstep := 322, srcep := 322,
      addr := 1016 * i, arg := 2 + 256 * b, payload := h ++ bytesAt bs (1016 * i) 1016 })

/-- The gather phase of this device: its own part of DST, and its blocks to every other member. -/
def Dev.sendGather (d : Dev) (x : CollDesc) : Dev :=
  let d := if x.op = 3 then d
    else (x.gatherRuns x.self x.self).foldl (fun d r => (d.memWriteRun {} r.2.1 (d.memBytes r.1 r.2.2)).1) d
  (x.members.filter (fun j => j ≠ x.self)).foldl (fun d j =>
    (List.range (x.gatherCount x.self j)).foldl (fun d b => d.collSend (d.blockPackets x j b)) d) d

/-- Blocks that this device waits for. -/
def CollDesc.gatherWaits (x : CollDesc) (gone : List Nat) : List (Nat × Nat) :=
  (x.members.filter (fun i => i ≠ x.self && !gone.contains i)).flatMap (fun i => (List.range (x.gatherCount i x.self)).map (fun b => (i, b)))

/-- The status a collective completes with when nothing else names one (R257, R262). -/
def Collective.endStatus (x : Collective) (word : Nat) : Nat × Nat :=
  match x.ue with
  | some g => (stUe, g)
  | none => (if word.testBit 1 then stPartial else stOk, 0)

/-- The combined word that a member wrote. -/
def Collective.word (x : Collective) : Nat := x.sums.foldl (fun f s => f ||| s.2.word.toNat % 512) x.flags

/-- A collective whose every block has landed completes. -/
def Dev.gatherCheck (d : Dev) (id : Nat) : Dev :=
  match d.coll id with
  | none => d
  | some x => if x.gather.isEmpty && x.refetch.isEmpty then let e := x.endStatus x.word; d.collEnd id e.1 e.2 else d

/-- The gather phase begins. -/
def Dev.gatherBegin (d : Dev) (id : Nat) : Dev :=
  match d.coll id with
  | none => d
  | some x =>
    let d := d.sendGather x.desc
    (d.updColl id (fun y => { y with gather := x.desc.gatherWaits y.gone })).gatherCheck id

/-! ### Step status (R256, R257) -/

/-- A detail record. -/
def detailRecord (nf : Option (Nat × Nat × Nat)) (short : Nat) (check : Option Nat) : List Byte :=
  let (dev, con, el) := match nf with
    | some (e, c, v) => (v, c, e)
    | none => (0xFFFF, 0xFFFF, 2 ^ 64 - 1)
  leBytes 2 dev ++ leBytes 2 con ++ leBytes 4 (if short = 0 then 2 ^ 32 - 1 else short) ++ leBytes 8 el ++ leBytes 8 (check.getD (2 ^ 64 - 1)) ++ List.replicate 32 (0 : Byte)

/-- A missing bitmap as bytes. -/
def missingBytes (nmemb : Nat) (ms : List Nat) : List Byte :=
  (List.range ((nmemb + 7) / 8)).map (fun i => BitVec.ofNat 8 ((List.range 8).foldl (fun a k => a + (if ms.contains (8 * i + k) then 2 ^ k else 0)) 0))

/-- A step-status word. -/
def statusWord (flags : Nat) (backup : Bool) (policy missing step : Nat) : Word :=
  BitVec.ofNat 64 (flags % 32 + 2 ^ 8 * b2n backup + 2 ^ 9 * policy + 2 ^ 16 * missing + 2 ^ 32 * step)

/-- SHORT_RANGES of a detail record; all ones reports nothing. -/
def shortOf (detail : List Byte) : Nat := let n := natAt detail 4 4; if n = 2 ^ 32 - 1 then 0 else n

/-- The lower of two optional numbers read from a record, where all ones means none. -/
def lowerField (off : Nat) (a b : List Byte) : List Byte := if natAt b off 8 < natAt a off 8 then b else a

/-- Combine the summaries of all members (R257) (DESIGN CHOICE, log entry 77). -/
def combineSums (x : Collective) : Summary :=
  let ss := x.sums.map (·.2)
  let flags := ss.foldl (fun f s => f ||| s.word.toNat % 512) x.flags
  let missing := (List.range x.desc.nmemb).filter (fun c => x.marked.contains c || ss.any (fun s => s.missing.contains c))
  let nf := ss.foldl (fun a s => lowerField 8 a s.detail) (detailRecord none 0 none)
  let ck := ss.foldl (fun a s => lowerField 16 a s.detail) (detailRecord none 0 none)
  let sum := min (2 ^ 32 - 1) ((ss.map (fun s => shortOf s.detail)).foldl (· + ·) 0)
  let short : Nat := if sum = 0 then 2 ^ 32 - 1 else sum
  { word := statusWord (flags % 32) (x.backupUsed || flags.testBit 8) x.policy missing.length x.desc.step
    detail := bytesAt nf 0 4 ++ leBytes 4 short ++ bytesAt nf 8 8 ++ bytesAt ck 16 8 ++ List.replicate 32 (0 : Byte)
    missing := missing }

/-- Write the step-status area (R256). -/
def Dev.writeStatus (d : Dev) (x : Collective) (s : Summary) : Dev :=
  if x.desc.status = 0 || x.desc.isBackup then d
  else
    (d.memWriteRun { ctx := x.ctx } x.desc.status (leBytes 8 s.word.toNat ++ s.detail ++ missingBytes x.desc.nmemb s.missing)).1

/-- A contributor that the final word marks missing stops sending: what it has not sent yet of its contributions is dropped (R253). -/
def Dev.stopSending (d : Dev) (y : CollDesc) : Dev :=
  let mine : BamatPkt → Bool := fun p =>
    p.op = 5 && p.srcdev = d.selfDev && p.srcep = 322 && p.job = y.job && p.tag % 4096 = y.self && p.tag / 16384 % 4 = y.step % 4
  { d with
    noc := { d.noc with flight := d.noc.flight.filter (fun m => !(m.hdr.any mine)) }
    lnk := { d.lnk with ports := d.lnk.ports.map (fun (e : Nat × PortSt) =>
      (e.1, { e.2 with txq := e.2.txq.filter (fun x => x.begun || !mine x.pkt) })) } }

/-- The members whose summaries are awaited. -/
def Collective.silent (x : Collective) : List Nat := (List.range x.desc.nmemb).filter (fun m => !x.gone.contains m && (look m x.sums).isNone)

/-- Once every summary is there, STATUS is written; a reduce-scatter completes, an all-reduce goes on to its gather phase unless
its job's policy is FLAG_STEP and the step is flagged (R254, R257). -/
def Dev.statusCheck (d : Dev) (id : Nat) : Dev :=
  match d.coll id with
  | none => d
  | some x =>
    if x.statusDone || !x.silent.isEmpty then d
    else
      let s := combineSums x
      let d := (d.writeStatus x s).updColl id (fun y => { y with statusDone := true, flags := y.flags ||| s.word.toNat % 32 })
      let d := if s.missing.contains x.desc.self && !x.red && !x.desc.isBackup then d.stopSending x.desc else d
      if x.desc.op = 3 && !x.desc.isBackup && x.ue.isNone && !(x.policy = 0 && decide (s.word.toNat % 256 ≠ 0)) then d.gatherBegin id
      else let e := x.endStatus s.word.toNat; d.collEnd id e.1 e.2

/-- Send this device's summary to every primary member and to the backups, which complete with the exchange (R253, R257). -/
def Dev.sendSummary (d : Dev) (x : Collective) (s : Summary) : Dev :=
  let y := x.desc
  let devs := ((y.members.map y.primary) ++ (y.members.map y.backup).filter (fun v => v ≠ 0xFFFF)).eraseDups
  d.collSend ((devs.filter (fun v => v ≠ d.selfDev)).map (fun v =>
    { BamatPkt.blank with
      op := 1, vc := y.vc, job := y.job, tag := y.self, dstdev := v, srcdev := d.selfDev, dstep := 322, srcep := 322, addr := y.step,
      arg := 1 + 256 * y.level, payload := leBytes 8 s.word.toNat ++ s.detail ++ missingBytes y.nmemb s.missing }))

/-! ### The owner's accumulation (R251, R252, R254, R255) -/

/-- The accumulator of a range as it lies in DST, and the granules of it that cannot be read (R251, R262). -/
def Dev.accRead (d : Dev) (x : Collective) (r : Nat) : Dev × List Nat × List F32 :=
  let n := x.desc.rangeLen x.desc.self r
  let a := x.desc.accAt x.desc.self r
  let (d, bad) := d.memFails { ctx := x.ctx } a (4 * n)
  (d, bad, wordsOf n (d.memBytes a (4 * n)))

/-- Set the accumulator of a range, but for the granules `bad`. -/
def Dev.accWrite (d : Dev) (id : Nat) (x : Collective) (r : Nat) (bad : List Nat) (v : List F32) : Dev :=
  let d := d.updColl id (fun y => { y with has := if y.has.contains r then y.has else r :: y.has })
  let a := x.desc.accAt x.desc.self r
  let bs := v.flatMap (fun w => leBytes 4 w.toNat)
  if bad.isEmpty then (d.memWriteRun { ctx := x.ctx } a bs).1
  else
    (List.range ((bs.length + 63) / 64)).foldl (fun d i =>
      if bad.contains (a + 64 * i) then d else (d.memWriteRun { ctx := x.ctx } (a + 64 * i) (bytesAt bs (64 * i) 64)).1) d

/-- Granules of an accumulator have lost their data: UE_LOST, and the owner's collective will complete with UE and the first address
(R262). -/
def Dev.accLost (d : Dev) (id : Nat) (bad : List Nat) : Dev :=
  match bad with
  | [] => d
  | g :: _ => d.updColl id (fun y => { y with flags := y.flags ||| 16, ue := some (y.ue.getD g) })

/-- Record a flagged element: the lowest, ties to the lower contributor; EVT 0x0920 once (R255). -/
def Dev.flagElement (d : Dev) (id e con dev : Nat) : Dev :=
  match d.coll id with
  | none => d
  | some x =>
    let first := x.nf.isNone
    let better := match x.nf with
      | none => true
      | some (e0, c0, _) => decide (e < e0) || (e = e0 && decide (con < c0))
    let d := d.updColl id (fun y => { y with flags := y.flags ||| 1, nf := if better then some (e, con, dev) else y.nf })
    if first then d.raise (d.collEvent x 0x0920 [con, dev, e]) else d

/-- One contribution, with its non-finite elements treated under the policy (R254). -/
def Dev.applyPolicy (d : Dev) (id : Nat) (x : Collective) (r con dev : Nat) (v : List F32) : Dev × List F32 :=
  let e0 := (x.desc.share x.desc.self).1 + 256 * r
  let d := ((List.range v.length).zip v).foldl (fun d e => if f32NonFinite e.2 then d.flagElement id (e0 + e.1) con dev else d) d
  (d, if x.policy = 2 then v.map (fun a => if f32NonFinite a then 0 else a) else v)

/-- Add one contribution into its range; a finite sum that overflows flags the step (R251, R254). -/
def Dev.addRange (d : Dev) (id r con dev : Nat) (v : List F32) : Dev :=
  match d.coll id with
  | none => d
  | some x =>
    let (d, v) := d.applyPolicy id x r con dev v
    if x.has.contains r = false then d.accWrite id x r [] v
    else
      let (d, lost, a) := d.accRead x r
      let s := List.zipWith f32Add a v
      let e0 := (x.desc.share x.desc.self).1 + 256 * r
      let bad := ((List.range s.length).zip (s.zip (a.zip v))).filter (fun e =>
        f32NonFinite e.2.1 && !f32NonFinite e.2.2.1 && !f32NonFinite e.2.2.2 &&
          !lost.contains ((x.desc.accAt x.desc.self r + 4 * e.1) / 64 * 64))
      let d := bad.foldl (fun d e => d.flagElement id (e0 + e.1) 0xFFFF 0xFFFF) d
      (d.accWrite id x r lost s).accLost id lost

/-- The device of a contributor's copy. -/
def CollDesc.sourceDev (x : CollDesc) (c : Nat) (bkp : Bool) : Nat := if bkp then x.backup c else x.primary c

/-- Log a contribution added to a range that holds a sampled element (R251, R258). -/
def Dev.logOrder (d : Dev) (id r con : Nat) (bkp : Bool) : Dev :=
  d.updColl id (fun y => if y.check then { y with order := put r ((look r y.order).getD [] ++ [(con, bkp)]) y.order } else y)

/-- In a DETERMINISTIC job the chain of a range goes on in ascending contributor index over what has arrived, past excluded
contributors that have not delivered it (R252). -/
def Dev.chainOn (d : Dev) (id r : Nat) : (fuel : Nat) → Dev
  | 0 => d
  | k + 1 =>
    match d.coll id with
    | none => d
    | some x =>
      let c := (look r x.next).getD 0
      if x.desc.nmemb ≤ c then d
      else
        let step : Dev → Dev := fun d => d.updColl id (fun y => { y with next := put r (c + 1) y.next })
        match look (r, c) x.staged with
        | some (bkp, v) =>
          let d := d.updColl id (fun y => { y with staged := drop1 (r, c) y.staged })
          (step ((d.addRange id r c (x.desc.sourceDev c bkp) v).logOrder id r c bkp)).chainOn id r k
        | none => if (x.contrib c).excluded then (step d).chainOn id r k else d

/-- Widen a range's payload to FP32 (R251). -/
def decodeRange (fmt n : Nat) (b : List Byte) : List F32 :=
  match fmt with
  | 0 => wordsOf n b
  | 1 => bf16s n b
  | f => (List.range n).zipWith (fun i c => toF32 (blockDecode f c (natAt b (n + i / 32) 1))) (unpackCodes f n (b.take n))
where
  /-- BF16 elements. -/
  bf16s : (n : Nat) → List Byte → List F32
    | 0, _ => []
    | k + 1, b => BitVec.ofNat 32 (natAt b 0 2 * 65536) :: bf16s k (b.drop 2)

/-- The payload length of a range. -/
def CollDesc.payloadLen (x : CollDesc) (r : Nat) : Nat :=
  let n := x.rangeLen x.self r
  match x.fmt with
  | 0 => 4 * n
  | 1 => 2 * n
  | _ => n + (n + 31) / 32

/-! ### The sampled second reduction (R258) -/

/-- The sampled elements of a range of this device's share. -/
def CollDesc.rangeSamples (x : CollDesc) (r : Nat) : List Nat :=
  let e0 := (x.share x.self).1 + 256 * r
  ((List.range (x.rangeLen x.self r)).map (e0 + ·)).filter x.sampled

/-- Whether a range has all it will get: every contributor has been taken or is excluded. -/
def Collective.rangeComplete (x : Collective) (r : Nat) : Bool :=
  (List.range x.desc.nmemb).all (fun c => x.taken.contains (c, r) || (x.contrib c).excluded)

/-- The samples of a range in its order, once every logged contributor's has come. -/
def Collective.samplesIn (x : Collective) (r e : Nat) : Option (List (Nat × Bool × F32)) :=
  ((look r x.order).getD []).mapM (fun o => (((look o x.checks).getD []).find? (fun s => s.1 = e)).map (fun s => (o.1, o.2, s.2)))

/-- The second sum of a sampled element (R258). -/
def checkSum (policy : Nat) (vs : List F32) : F32 :=
  match vs.map (fun v => if policy = 2 && f32NonFinite v then 0 else v) with
  | [] => 0
  | v :: r => r.foldl f32Add v

/-- Compare the sampled elements of a range that can be compared. -/
def Dev.compareRange (d : Dev) (id r : Nat) : Dev :=
  match d.coll id with
  | none => d
  | some x =>
    if x.check = false || x.rangeComplete r = false then d
    else
      (x.desc.rangeSamples r).foldl (fun d e =>
        match d.coll id with
        | none => d
        | some x =>
          if x.compared.contains e then d
          else match x.samplesIn r e with
            | none => d
            | some [] => d.updColl id (fun y => { y with compared := e :: y.compared })
            | some vs =>
              let d := d.updColl id (fun y => { y with compared := e :: y.compared })
              let i := (e - (x.desc.share x.desc.self).1) % 256
              match d.accRead x r with
              | (d, lost, a) =>
                if lost.contains ((x.desc.accAt x.desc.self r + 4 * i) / 64 * 64) then d.accLost id lost
                else if checkSum x.policy (vs.map (fun v => v.2.2)) = a.getD i 0 then d
                else
                  let d := (d.satFld R.COL_STAT F.COL_STAT_CHECK_FAILED 1).updColl id (fun y =>
                    { y with flags := y.flags ||| 4, checkElem := some (min e (y.checkElem.getD e)) })
                  d.raise (d.collEvent x 0x0921 [e])) d

/-! ### Finishing the share (R251, R253, R257) -/

/-- The output rule: RNE, the context's INF_MODE. -/
def Dev.outRule (d : Dev) (c : Nat) : StoreRule := { sat := d.ctxSat c, sr := false, seed := 0, tag := 0 }

/-- Write the share in its output format: +0 where no contribution came (R251). A granule of an accumulator that cannot be read
drops its elements: nothing is written for them (R262). -/
def Dev.writeShare (d : Dev) (id : Nat) (x : Collective) : Dev :=
  let y := x.desc
  let fmt := if y.ofmt = 1 then 1 else 0
  (List.range (y.ranges y.self)).foldl (fun d r =>
    let n := y.rangeLen y.self r
    let a := y.shareAt y.self + 256 * r * y.outBytes
    let (d, bad, v) := if x.has.contains r then d.accRead x r else (d, [], List.replicate n 0)
    let d := d.accLost id bad
    let (cs, f) := convertAll fmt (d.outRule x.ctx) 0 (v.map ofF32)
    if bad.isEmpty then ((d.memWriteRun { ctx := x.ctx } a (packCodes fmt cs)).1).descFlags x.q x.n f
    else
      (((List.range n).zip cs).filter (fun e => !bad.contains ((y.accAt y.self r + 4 * e.1) / 64 * 64))).foldl (fun d e =>
        (d.memWriteRun { ctx := x.ctx } (a + e.1 * y.outBytes) (packCodes fmt [e.2])).1) d) d

/-- Ranges whose count stayed short (R253). -/
def Collective.shortRanges (x : Collective) : Nat :=
  if x.red then ((List.range (x.desc.ranges x.desc.self)).filter (fun r => decide ((look r x.counts).getD 0 < x.desc.nmemb))).length else 0

/-- This device's summary. -/
def Collective.summary (x : Collective) : Summary :=
  let missing := (List.range x.desc.nmemb).filter (fun c => (x.contrib c).excluded || x.marked.contains c)
  { word := statusWord x.flags x.backupUsed x.policy missing.length x.desc.step
    detail := detailRecord x.nf x.shortRanges x.checkElem, missing := missing }

/-- Finish the share: convert it, send the summary, look at the exchange (R257). -/
def Dev.finishShare (d : Dev) (id : Nat) : Dev :=
  match d.coll id with
  | none => d
  | some x =>
    if x.finished then d
    else
      let d := d.writeShare id x
      match d.coll id with
      | none => d
      | some x =>
        let s := x.summary
        let d := d.updColl id (fun y => { y with finished := true, sums := put y.desc.self s y.sums })
        (d.sendSummary x s).statusCheck id

/-- Finish the share once every contributor is complete or excluded (R253). -/
def Dev.shareCheck (d : Dev) (id : Nat) : Dev :=
  match d.coll id with
  | none => d
  | some x =>
    if x.finished || !x.desc.reduces || x.desc.isBackup then d
    else if (List.range x.desc.nmemb).all (fun c => (x.contrib c).complete.isSome || (x.contrib c).excluded) then d.finishShare id
    else d

/-- A contributor has become complete: T_m with the ceil(NMEMB / 2)-th (R253). -/
def Dev.contribDone (d : Dev) (id c : Nat) : Dev :=
  let now := d.now
  let d := d.updContrib id c (fun x => { x with complete := some (x.complete.getD now) })
  d.updColl id (fun y =>
    let n := (y.contribs.filter (fun e => e.2.complete.isSome)).length
    if y.tm.isNone && decide ((y.desc.nmemb + 1) / 2 ≤ n) then { y with tm := some now } else y)

/-- Whether every range of the share has been taken from a contributor. -/
def Collective.allTaken (x : Collective) (c : Nat) : Bool := (x.taken.filter (fun e => e.1 = c)).length = x.desc.ranges x.desc.self

/-- After something was taken: completion, chains, comparisons, the finish. -/
def Dev.afterTake (d : Dev) (id c r : Nat) : Dev :=
  match d.coll id with
  | none => d
  | some x =>
    let d := if x.allTaken c && (x.contrib c).complete.isNone then d.contribDone id c else d
    (d.compareRange id r).shareCheck id

/-- A packet discarded as stray (R251). -/
def Dev.stray (d : Dev) : Dev := d.satFld R.COL_STRAY F.COL_STRAY_STRAY 1

/-- The open collective in whose destination range a packet of a job falls. -/
def Dev.collAt (d : Dev) (job addr : Nat) : Option (Nat × Collective) :=
  d.col.open_.find? (fun e =>
    let y := e.2.desc
    e.2.job = job && y.reduces && !y.isBackup && decide (y.accAt y.self 0 ≤ addr) &&
      decide (addr < y.accAt y.self 0 + 4 * (y.share y.self).2))

/-- A contribution that is not reducible is taken (R251, R252) (DESIGN CHOICE, log entry 76). -/
def Dev.takeAcc (d : Dev) (id : Nat) (x : Collective) (p : NocPkt) : Dev :=
  let y := x.desc
  let c := p.tag % 4096
  let bkp := p.tag.testBit 13
  let k := x.contrib c
  let r := (p.addr - y.accAt y.self 0) / 1024
  if decide (y.nmemb ≤ c) || decide (p.tag / 16384 % 4 ≠ y.step % 4) || k.excluded || k.abandoned ||
      x.goneDevs.contains (y.sourceDev c bkp) || (bkp && !k.asked) then d.stray
  else if x.taken.contains (c, r) then d
  else if p.payload.length ≠ y.payloadLen r then d.stray
  else
    let v := decodeRange y.fmt (y.rangeLen y.self r) p.payload
    let d := d.updColl id (fun z => { z with taken := (c, r) :: z.taken, backupUsed := z.backupUsed || bkp })
    let d := if x.det then (d.updColl id (fun z => { z with staged := put (r, c) (bkp, v) z.staged })).chainOn id r (y.nmemb + 1)
      else (d.addRange id r c (y.sourceDev c bkp) v).logOrder id r c bkp
    d.afterTake id c r

/-- A reducible contribution is added, and its count (R251). -/
def Dev.takeRed (d : Dev) (id : Nat) (x : Collective) (p : NocPkt) : Dev :=
  let y := x.desc
  let r := (p.addr - y.accAt y.self 0) / 1024
  if decide (p.tag / 16384 % 4 ≠ y.step % 4) || decide (p.payload.length ≠ y.payloadLen r) then d.stray
  else
    let d := d.addRange id r 0xFFFF 0xFFFF (decodeRange y.fmt (y.rangeLen y.self r) p.payload)
    (d.updColl id (fun z => { z with counts := put r ((look r z.counts).getD 0 + p.cnt) z.counts })).shareCheck id

/-- An ACC packet in the quiet period of its job is discarded: counted, EVT 0x0B23 once (R315) (DEDUCED, log entry 78). -/
def Dev.quietDiscard (d : Dev) (job : Nat) : Dev :=
  let d := d.stray
  match look job d.quiet with
  | some (t, told) => if told then d
    else ({ d with quiet := put job (t, true) d.quiet } : Dev).raise
      (match look job d.jobs with
      | some j => { code := 0x0B23, fn := d.ctxFn j.ctx, ctx := j.ctx, job := job }
      | none => { code := 0x0B23, job := job })
  | none => d

/-- The packet in flight that an ACC packet at a controller is. -/
def accIs (p : NocPkt) (m : MeshPkt) : Bool :=
  m.pkt.typ = 5 && m.pkt.job = p.job && m.pkt.tag = p.tag && m.pkt.addr = p.addr && m.pkt.cnt = p.cnt && m.pkt.payload = p.payload &&
    m.pkt.dst = p.dst

/-- An ACC packet reaches a controller in its turn (R115), or not yet. -/
def Dev.accArrives (d : Dev) (p : NocPkt) (f : Dev → Dev) : Dev :=
  if d.meshMay (accIs p) = false then d else f (d.meshTaken (accIs p))

/-- COLLECTIVE_ACC: the owner's controller takes one copy of a contributor's range, or adds a reducible packet (R251, R252,
R254); one of a job in its quiet period is discarded (R315). -/
def execCollectiveAcc (pkt : NocPkt) (s : State) : Out :=
  onDev s (fun d => d.accArrives pkt (fun d =>
    if d.quietNow pkt.job then d.quietDiscard pkt.job
    else if d.purgingNow pkt.job then d
    else
      match d.collAt pkt.job pkt.addr with
      | none => d
      | some (id, x) => if pkt.red then d.takeRed id x pkt else d.takeAcc id x pkt))

/-- CHECK_PACKET: sampled elements arrive at the collective engine and are compared once their range is complete (R258). They travel in
ACC packets: one of a job in its quiet period, or from a device that has abandoned, is discarded (R261, R315). -/
def execCheckPacket (id contrib : Nat) (bkp : Bool) (samples : List (Nat × F32)) (s : State) : Out :=
  onDev s (fun d =>
    match d.coll id with
    | none => d
    | some x =>
      let y := x.desc
      let tag := contrib + 4096 + 8192 * b2n bkp + y.step % 4 * 16384
      let f : MeshPkt → Bool := fun m => m.pkt.dst = 322 && m.pkt.job = x.job && m.pkt.tag = tag
      if d.meshMay f = false then d
      else
        let d := d.meshTaken f
        if d.quietNow x.job then d.quietDiscard x.job
        else if (x.contrib contrib).excluded || x.goneDevs.contains (y.sourceDev contrib bkp) then d.stray
        else
          let d := d.updColl id (fun z => { z with checks := put (contrib, bkp) ((look (contrib, bkp) z.checks).getD [] ++ samples) z.checks })
          let rs := (samples.map (fun e => (e.1 - (y.share y.self).1) / 256)).eraseDups
          if x.finished then d else rs.foldl (fun d r => d.compareRange id r) d)

/-- A packet that arrived over Bamat for the collective engine has been handled. -/
def Dev.arrivedTaken (d : Dev) (f : BamatPkt → Bool) : Dev := { d with lnk := { d.lnk with arrived := dropFirst f d.lnk.arrived } }

/-! ### Late and missing contributors (R253, R261) -/

/-- Ranges not yet taken from a contributor. -/
def Collective.missingRanges (x : Collective) (c : Nat) : List Nat :=
  (List.range (x.desc.ranges x.desc.self)).filter (fun r => !x.taken.contains (c, r))

/-- A backup is asked for what is missing (R253). -/
def Dev.askBackup (d : Dev) (id c : Nat) : Dev :=
  match d.coll id with
  | none => d
  | some x =>
    let rs := x.missingRanges c
    let d := d.updContrib id c (fun k => { k with asked := true })
    let d := d.collSend ((List.range ((rs.length + 255) / 256)).map (fun i =>
      d.collNotice x.desc 3 c (x.desc.backup c) ((rs.drop (256 * i)).take 256 |>.flatMap (leBytes 4))))
    (d.satFld R.COL_STAT F.COL_STAT_BACKUPS 1).raise (d.collEvent x 0x0910 [c, x.desc.backup c])

/-- A contributor is excluded (R253): its turn in every chain is passed over. -/
def Dev.exclude (d : Dev) (id c : Nat) : Dev :=
  match d.coll id with
  | none => d
  | some x =>
    let d := d.updContrib id c (fun k => { k with excluded := true })
    let d := d.updColl id (fun y => { y with flags := y.flags ||| 2 })
    let d := d.raise (d.collEvent x 0x0911 [c, x.desc.primary c])
    let rs := List.range (x.desc.ranges x.desc.self)
    let d := if x.det then rs.foldl (fun d r => d.chainOn id r (x.desc.nmemb + 1)) d else d
    if x.check then rs.foldl (fun d r => d.compareRange id r) d else d

/-- Contributors neither complete nor excluded. -/
def Collective.incomplete (x : Collective) : List Nat :=
  (List.range x.desc.nmemb).filter (fun c => (x.contrib c).complete.isNone && !(x.contrib c).excluded)

/-- An owner that still waits for contributors. -/
def Collective.owning (x : Collective) : Bool := x.desc.reduces && !x.desc.isBackup && !x.finished

/-- DEADLINE_D1: late contributors are asked of their backups, or excluded (R253). -/
def execDeadlineD1 (id : Nat) (s : State) : Out :=
  onDev s (fun d =>
    match d.coll id with
    | none => d
    | some x =>
      match x.tm with
      | none => d
      | some t =>
        let d1 := t + x.desc.dline
        if x.owning && x.d2.isNone && decide (d1 ≤ d.now) then
          let d := d.updColl id (fun y => { y with d2 := some (d1 + y.desc.dline) })
          let d := x.incomplete.foldl (fun d c =>
            if x.desc.hasBackup c then (if (x.contrib c).asked then d else d.askBackup id c) else d.exclude id c) d
          d.shareCheck id
        else d)

/-- DEADLINE_D2: contributors still incomplete are excluded (R253). -/
def execDeadlineD2 (id : Nat) (s : State) : Out :=
  onDev s (fun d =>
    match d.coll id with
    | none => d
    | some x =>
      match x.d2 with
      | none => d
      | some t =>
        if x.owning && decide (t ≤ d.now) then (x.incomplete.foldl (fun d c => d.exclude id c) d).shareCheck id else d)

/-- COLL_TIMEOUT: TIMEOUT_MS after the start, an owner whose T_m has not come excludes every incomplete contributor and finishes; a
member that misses a summary, its own among them, writes its area with PARTIAL and the silent members marked and completes with
TIMEOUT (R253, R257). Blocks of a gather phase have no bound of their own. -/
def execCollTimeout (id : Nat) (s : State) : Out :=
  onDev s (fun d =>
    match d.coll id with
    | none => d
    | some x =>
      if decide (d.now < x.start + x.desc.timeout) || x.statusDone || !x.desc.reduces then d
      else
        let d := if x.owning && x.tm.isNone then (x.incomplete.foldl (fun d c => d.exclude id c) d).shareCheck id else d
        match d.coll id with
        | none => d
        | some x =>
          if x.statusDone || x.silent.isEmpty then d
          else
            let x := { x with flags := x.flags ||| 2, marked := x.marked ++ x.silent }
            let d := d.writeStatus x (combineSums x)
            let d := d.updColl id (fun y => { y with flags := y.flags ||| 2 })
            (d.raise (d.collEvent x 0x0941 (x.silent ++ x.silent.map x.desc.primary))).collEnd id stTimeout 0)

/-- LOCAL_SUMMARY: a member's summary arrives (R257, R263). -/
def execLocalSummary (id member level : Nat) (word : Word) (detail : List Byte) (missing : List Nat) (s : State) : Out :=
  onDev s (fun d =>
    match d.coll id with
    | none => d
    | some x =>
      let d := d.arrivedTaken (fun p => p.op = 1 && p.dstep = 322 && p.job = x.job && p.tag = member && p.arg % 256 = 1)
      if x.gone.contains member || decide (x.desc.nmemb ≤ member) || x.desc.reduces = false || x.statusDone then d
      else if level ≠ x.desc.level then d.collEnd id stInvalid 0
      else (d.updColl id (fun y => { y with sums := put member { word := word, detail := detail, missing := missing } y.sums })).statusCheck id)

/-- A notice has been handled. -/
def Dev.noticeTaken (d : Dev) (job code : Nat) (from_ : BamatPkt → Bool) : Dev :=
  d.arrivedTaken (fun p => p.op = 10 && p.job = job && p.arg % 256 = code && from_ p)

/-- NOTICE_DONE: a contributor of a reducible collective has sent its last packet (R250, R251). -/
def execNoticeDone (id member : Nat) (s : State) : Out :=
  onDev s (fun d =>
    match d.coll id with
    | none => d
    | some x =>
      let d := d.noticeTaken x.job 1 (fun p => p.tag = member)
      if x.red && decide (member < x.desc.nmemb) && !(x.contrib member).excluded then (d.contribDone id member).shareCheck id else d)

/-- Abandon notices to every member and backup of a collective (R260). -/
def Dev.collAbandon (d : Dev) (x : Collective) : Dev :=
  let y := x.desc
  let devs := ((y.members.map y.primary) ++ (y.members.map y.backup).filter (fun v => v ≠ 0xFFFF)).eraseDups
  d.collSend ((devs.filter (fun v => v ≠ d.selfDev)).map (fun v => d.collNotice y 2 0 v []))

/-- An uncorrectable error in SRC ends a contribution as an abandonment: notices and a purge, and the collective completes with UE and
the address (R262). -/
def Dev.collLost (d : Dev) (id : Nat) (x : Collective) (g : Nat) : Dev := ((d.collAbandon x).purge x.job false).collEnd id stUe g

/-- NOTICE_BACKUP_REQ: this device, as the backup of a contributor in a step's collective, sends an owner the ranges it asks for (R253). -/
def execNoticeBackupReq (job owner : Nat) (ask : BackupAsk) (s : State) : Out :=
  onDev s (fun d =>
    let d := d.noticeTaken job 3 (fun p => p.srcdev = owner && p.addr = ask.step && p.arg / 256 = ask.contrib)
    match d.col.open_.find? (fun e => e.2.job = job && e.2.desc.isBackup && e.2.desc.step = ask.step && e.2.desc.self = ask.contrib) with
    | none => d
    | some (id, x) =>
      let y := x.desc
      match y.members.find? (fun m => y.primary m = owner) with
      | none => d
      | some j =>
        match d.memCheckRead { ctx := x.ctx } y.src y.srcLen with
        | (d, some g) => d.collLost id x g
        | (d, none) =>
          let rs := ask.ranges.filter (fun r => decide (r < y.ranges j))
          let es := (y.samplesOf j).filter (fun e => rs.contains ((e - (y.share j).1) / 256))
          d.collSend ((if x.check then d.checkPackets y true j (es.length + 1) es else []) ++
            rs.map (fun r => d.accPacket y false true j r)))

/-- One open collective after a device has abandoned it (R261): as the device of a member, or only as a backup, whose later packets are
discarded (DESIGN CHOICE, log entry 76). -/
def Dev.abandonedBy (d : Dev) (id dev : Nat) : Dev :=
  match d.coll id with
  | none => d
  | some x =>
    let y := x.desc
    let ms := y.members.filter (fun c => y.primary c = dev)
    let bs := y.members.filter (fun c => y.backup c = dev)
    if (ms ++ bs).isEmpty || x.goneDevs.contains dev then d
    else
      let owned := ms.filter (fun c => (y.op ≠ 4 && y.op ≠ 5 && decide ((y.share c).2 ≠ 0)))
      let lost : List Nat := dev :: x.goneDevs
      let d := d.raise (d.collEvent x 0x0912 [dev])
      let d := d.updColl id (fun z => { z with
        gone := z.gone ++ ms
        goneDevs := lost
        marked := z.marked ++ owned
        flags := if owned.isEmpty then z.flags else z.flags ||| 8
        gather := z.gather.filter (fun e => !ms.contains e.1)
        refetch := z.refetch.filter (fun f => !ms.contains f.owner) })
      let d := (ms ++ bs).eraseDups.foldl (fun d c =>
        let none_ := lost.contains (y.primary c) && (!(y.hasBackup c) || lost.contains (y.backup c))
        let d := if none_ then d.updContrib id c (fun k => { k with abandoned := true }) else d
        if x.owning = false || (x.contrib c).excluded then d
        else if none_ && (!(y.hasBackup c) || (x.contrib c).complete.isNone) then d.exclude id c
        else if ms.contains c && (x.contrib c).complete.isNone && !(x.contrib c).asked then d.askBackup id c
        else d) d
      let d := d.shareCheck id
      match d.coll id with
      | none => d
      | some z => if z.finished && !z.statusDone then d.statusCheck id
        else if z.statusDone || !z.desc.reduces then d.gatherCheck id else d

/-- Every open collective of a job after a device has abandoned it. -/
def Dev.abandonedJob (d : Dev) (job dev : Nat) : Dev :=
  ((d.col.open_.filter (fun e => e.2.job = job)).map (·.1)).foldl (fun d id => d.abandonedBy id dev) d

/-- NOTICE_ABANDON: a device has abandoned the collectives of a job (R261). -/
def execNoticeAbandon (job dev : Nat) (s : State) : Out :=
  onDev s (fun d => (d.noticeTaken job 2 (fun p => p.srcdev = dev)).abandonedJob job dev)

/-- Write a block where it belongs. -/
def Dev.landBlock (d : Dev) (x : Collective) (member block : Nat) (data : List Byte) : Dev :=
  ((x.desc.gatherBlock member x.desc.self block).foldl (fun (acc : Dev × Nat) r =>
    (((acc.1.memWriteRun { ctx := x.ctx } r.2.1 (bytesAt data acc.2 r.2.2)).1), acc.2 + r.2.2)) (d, 0)).1

/-- The hash of a block as landed. -/
def Dev.landedHash (d : Dev) (x : Collective) (member block : Nat) : Word :=
  hashBytes ((x.desc.gatherBlock member x.desc.self block).flatMap (fun r => d.memBytes r.2.1 r.2.2))

/-- Read a block from its sender again (R259). -/
def Dev.gatherAgain (d : Dev) (id : Nat) (x : Collective) (f : Refetch) : Dev :=
  let rs := (x.desc.gatherBlock f.owner x.desc.self f.block).flatMap (fun r =>
    (List.range ((r.2.2 + 1023) / 1024)).map (fun i => (r.1 + 1024 * i, roundUp (min 1024 (r.2.2 - 1024 * i)) 8)))
  let d := d.updColl id (fun y => { y with refetch := y.refetch ++ [{ f with tries := f.tries + 1, reads := rs.map (·.1) }] })
  let d := d.raise (d.collEvent x 0x0930 [f.owner, x.desc.primary f.owner, f.block])
  rs.foldl (fun d r =>
    let p : BamatPkt := { BamatPkt.blank with
      op := 2, vc := x.desc.vc, job := x.job, tag := f.owner, dstdev := x.desc.primary f.owner, srcdev := d.selfDev,
      dstep := endpointOf r.1, srcep := 322, addr := r.1, arg := r.2 }
    ({ d with lnk := { d.lnk with outstanding := d.lnk.outstanding ++ [({ pkt := p, tile := none } : Outstanding)] } } : Dev).bamatSend p) d

/-- A landed block is judged by its hash: read again up to twice, then the collective fails (R259). -/
def Dev.judgeBlock (d : Dev) (id : Nat) (x : Collective) (f : Refetch) : Dev :=
  let done : Dev → Dev := fun d =>
    (d.updColl id (fun y => { y with gather := y.gather.filter (fun e => e ≠ (f.owner, f.block)) })).gatherCheck id
  if x.desc.op ≠ 2 || x.desc.hfmt = 0 || d.landedHash x f.owner f.block = f.want then done d
  else if f.tries < 2 then d.gatherAgain id x f
  else (d.raise (d.collEvent x 0x0931 [f.owner, x.desc.primary f.owner, f.block])).collEnd id stHashFailed 0

/-- ALL_GATHER_BLOCK: a member's block lands and is hashed against its sender's hash (R259). -/
def execAllGatherBlock (id member block : Nat) (data : List Byte) (hash : Word) (s : State) : Out :=
  onDev s (fun d =>
    match d.coll id with
    | none => d
    | some x =>
      let d := { d with lnk := { d.lnk with arrived := d.lnk.arrived.filter (fun p =>
        !(p.op = 1 && p.dstep = 322 && p.job = x.job && p.tag = member && p.arg = 2 + 256 * block)) } }
      if x.gather.contains (member, block) && !(x.refetch.any (fun f => f.owner = member && f.block = block)) then
        (d.landBlock x member block data).judgeBlock id x
          { owner := member, place := 0, block := block, want := hash, tries := 0, reads := [] }
      else d)

/-- Read data of a gather arrive (R259): the last of a block has it judged again. -/
def Dev.gatherData (d : Dev) (p : BamatPkt) : Dev :=
  match d.col.open_.find? (fun e => e.2.job = p.job && e.2.refetch.any (fun f => e.2.desc.primary f.owner = p.srcdev && f.reads.contains p.addr)) with
  | none => d
  | some (id, x) =>
    match x.refetch.find? (fun f => x.desc.primary f.owner = p.srcdev && f.reads.contains p.addr) with
    | none => d
    | some f =>
      match (x.desc.gatherBlock f.owner x.desc.self f.block).find? (fun r => decide (r.1 ≤ p.addr) && decide (p.addr < r.1 + r.2.2)) with
      | none => d
      | some r =>
        let (d, _) := d.memWriteRun { ctx := x.ctx } (r.2.1 + (p.addr - r.1)) (p.payload.take (r.1 + r.2.2 - p.addr))
        let g := { f with reads := f.reads.erase p.addr }
        if g.reads.isEmpty then
          (d.updColl id (fun y => { y with refetch := y.refetch.filter (fun h => h ≠ f) })).judgeBlock id x g
        else d.updColl id (fun y => { y with refetch := y.refetch.map (fun h => if h = f then g else h) })

/-! ### Starting (R117, R245, R262, R315) -/

/-- The tiles in whose slices a broadcast within the device lands: the members of its multicast group (DESIGN CHOICE, log entry 139). -/
def CollDesc.mcastMembers (x : CollDesc) : List Nat :=
  if x.op ≠ 4 || x.dstLen = 0 || !isNear x.dst then []
  else (List.range 256).filter (fun t => decide (tileOf x.dst ≤ t) && decide (t ≤ tileOf (min (x.dst + x.dstLen) (256 * gib) - 1)))

/-- A broadcast takes a free multicast group until it ends (R117); it goes without where none is free. -/
def Dev.collGroup (d : Dev) (id : Nat) (y : CollDesc) : Dev :=
  let ms := y.mcastMembers
  match lowest 1024 (fun g => (look g d.noc.groups).isNone) with
  | none => d
  | some g =>
    if ms.isEmpty then d
    else
      let d := { d with noc := { d.noc with groups := put g ms d.noc.groups } }
      let w := fieldPut (fieldPut (fieldPut (fieldPut (fieldPut 0 F.NOC_MCAST_VALID 1) F.NOC_MCAST_KIND 1) F.NOC_MCAST_JOB y.job)
        F.NOC_MCAST_ID y.root) F.NOC_MCAST_MEMBERS ms.length
      (d.setReg (R.NOC_MCAST g) w).updColl id (fun z => { z with mcast := some g })

/-- An open collective begins: it sends what it contributes (R249, R250); an uncorrectable error in SRC ends it as an abandonment
(R262). -/
def Dev.collBegin (d : Dev) (id : Nat) : Dev :=
  match d.coll id with
  | none => d
  | some x =>
    let y := x.desc
    if y.isBackup then d
    else
      match d.memCheckRead { ctx := x.ctx } y.src y.srcLen with
      | (d, some g) => d.collLost id x g
      | (d, none) =>
        if y.reduces then
          let d := d.collSend (y.members.flatMap (fun j => d.sharePackets y x.red x.check j))
          let d := if y.ranges y.self = 0 && !x.red then y.members.foldl (fun d c => d.contribDone id c) d else d
          d.shareCheck id
        else (d.collGroup id y).gatherBegin id

/-- A collective descriptor opens its collective. Its DST and the number of open collectives are looked at again, as others may have
opened while it waited (R248). -/
def Dev.collStart (d : Dev) (q : Nat) (x : Desc) : Dev :=
  let y : CollDesc := ⟨x.raw.drop 16, x.table⟩
  if d.collApart y = false then
    (d.raise (d.collDescEvent 0x0901 q x.n y.job y.step)).complete q x.n stInvalid (invalidTable 0x0901)
  else if 256 ≤ d.col.open_.length then d.complete q x.n stBusy 0
  else
    let j := (look y.job d.jobs).getD { ctx := 0, level := 0, policy := 0, det := false, opened := 0 }
    let check := d.checkOn y
    let id := d.col.next
    let k : Contrib := { complete := none, excluded := false, abandoned := false, asked := false }
    let c : Collective := {
      q := q, n := x.n, ctx := d.queueCtx q, job := y.job, body := y.body, table := y.table, start := d.now,
      red := y.redOn j.det check, det := j.det, check := check, policy := j.policy, contribs := y.members.map (fun m => (m, k)), taken := [],
      has := [], counts := [], staged := [], next := [], order := [], checks := [], compared := [], nf := none,
      checkElem := none, flags := 0, backupUsed := false, tm := none, d2 := none, finished := false, ue := none, sums := [], gone := [],
      goneDevs := [], marked := [], statusDone := false, gather := [], refetch := [], mcast := none }
    let d := { d with col := { d.col with open_ := put id c d.col.open_, next := id + 1 } }
    (d.collShow).collBegin id

/-- The row of an operation of COLL; a reserved OP is refused by whichever of them runs. -/
def collRow (q op : Nat) (s : State) : Out :=
  onUnit "queue" 4096 q s (fun d =>
    d.runHead q (fun x => x.typ = 20 && (x.body 0 1 = op || x.body 0 1 = 0 || decide (5 < x.body 0 1))) Dev.collCheck Dev.collStart)

/-- REDUCE_SCATTER. -/
def execReduceScatter (q : Nat) (s : State) : Out := collRow q 1 s

/-- ALL_GATHER. -/
def execAllGather (q : Nat) (s : State) : Out := collRow q 2 s

/-- ALL_REDUCE. -/
def execAllReduce (q : Nat) (s : State) : Out := collRow q 3 s

/-- BROADCAST. -/
def execBroadcast (q : Nat) (s : State) : Out := collRow q 4 s

/-- ALL_TO_ALL. -/
def execAllToAll (q : Nat) (s : State) : Out := collRow q 5 s

/-- The queues whose head is a collective of a job that waits for its start. -/
def Dev.collHeads (d : Dev) (job : Nat) : List Nat :=
  (d.queues.filter (fun e => e.2.headDesc.any (fun x => x.typ = 20 && x.phase = .released && natAt x.table 0 2 = job))).map (·.1)

/-- QUIET_PERIOD_END: the quiet period of a job ends; its collectives that waited start (R315). -/
def execQuietPeriodEnd (job : Nat) (s : State) : Out :=
  onDev s (fun d =>
    match look job d.quiet with
    | none => d
    | some (t, _) =>
      if t ≤ d.now then
        let d := { d with quiet := drop1 job d.quiet }
        (d.collHeads job).foldl (fun d q => d.runHead q (fun x => x.typ = 20) Dev.collCheck Dev.collStart) d
      else d)

/-! ### Plain accumulates (R244) -/

/-- Add a payload element by element in its format, round to nearest even (R244, R52). -/
def addElems (fmt : Nat) (mem add : List Byte) : List Byte :=
  let n := add.length / (fmtBits fmt / 8)
  let s := List.zipWith (fun a b => (convert fmt false none ((fpDecode fmt a).add (fpDecode fmt b))).1) (unpackCodes fmt n mem) (unpackCodes fmt n add)
  packCodes fmt s

/-- The bytes of a run with the granules `bad` left as they are. -/
def keepGranules (bad : List Nat) (a : Nat) (old new : List Byte) : List Byte :=
  ((List.range new.length).zip (old.zip new)).map (fun e => if bad.contains ((a + e.1) / 64 * 64) then e.2.1 else e.2.2)

/-- Add a payload into far memory: each granule is read, added to and written back; one that cannot be read is dropped (R244). -/
def Dev.plainAdd (d : Dev) (fmt a : Nat) (bs : List Byte) : Dev :=
  let (d, bad) := d.memFails { scrub := true } a bs.length
  let old := d.memBytes a bs.length
  let new := keepGranules bad a old (addElems fmt old bs)
  (List.range (bs.length / 64 + 2)).foldl (fun d i =>
    let lo := max a (a / 64 * 64 + 64 * i)
    let hi := min (a + bs.length) (a / 64 * 64 + 64 * i + 64)
    if decide (lo < hi) && !bad.contains (lo / 64 * 64) then (d.memWriteRun { scrub := true } lo (bytesAt new (lo - a) (hi - lo))).1 else d) d

/-- Whether a plain accumulate is allowed (R244). -/
def Dev.plainOk (d : Dev) (p : NocPkt) : Bool :=
  match look p.job d.jobs with
  | none => false
  | some j =>
    decide (256 ≤ p.dst) && decide (p.dst < 272) && !isNear p.addr && decide (p.addr + p.payload.length ≤ memSize) &&
      stackOf p.addr = p.dst - 256 && stackOf (p.addr + p.payload.length - 1) = p.dst - 256 &&
      d.owns j.ctx p.addr p.payload.length

/-- A refused plain accumulate (R244). -/
def Dev.plainRefused (d : Dev) (p : NocPkt) : Dev :=
  let d := d.satFld R.COL_STRAY F.COL_STRAY_ACC_REFUSED 1
  let w := d.now / 1000000
  if look p.job d.col.refusedTold = some w then d
  else ({ d with col := { d.col with refusedTold := put p.job w d.col.refusedTold } } : Dev).raise { code := 0x0940, job := p.job, args := [p.addr] }

/-- PLAIN_ACCUMULATE: a controller adds an ACC packet that belongs to no open collective into far memory (R244). -/
def execPlainAccumulate (pkt : NocPkt) (s : State) : Out :=
  onDev s (fun d =>
    if (d.collAt pkt.job pkt.addr).isSome then d
    else d.accArrives pkt (fun d =>
      if d.quietNow pkt.job then d.quietDiscard pkt.job
      else if d.purgingNow pkt.job then d
      else if d.plainOk pkt = false then d.plainRefused pkt
      else d.plainAdd (if pkt.rfmt = 1 then 1 else 0) pkt.addr pkt.payload))

/-! ### Resign (R260) -/

/-- A resign covers a collective: abandon notices go out, the job is purged, it completes with RESIGNED. -/
def Dev.collResign (d : Dev) (q n : Nat) : Dev :=
  match d.col.open_.find? (fun e => e.2.q = q && e.2.n = n) with
  | none => d
  | some (id, x) => ((d.collAbandon x).purge x.job true).collEnd id stResigned 0

end Sys2Proof.Machine
end

