-- ==== Sys2Proof/Machine/MemRows.lean ====
section
/-! DEFINITION. Accesses as the memory controllers see them (R141 to R145, R167): the rows MEM_READ and MEM_WRITE, and what a
failed access does to its consumer (R143). -/

namespace Sys2Proof.Machine

/-- The access a consumer makes. -/
def Dev.accessOf (d : Dev) : Consumer → Access
  | .tile t => { ctx := d.tileCtx t }
  | .engine q _ => { ctx := d.queueCtx q }
  | .remote _ c => { ctx := c }
  | .scrubber => { scrub := true }

/-- A sampler's descriptor, the running one or one that waits, ends with UE and the address (R214). -/
def Dev.sampleUe (d : Dev) (q n a : Nat) : Dev :=
  let mine : SampleCmd → Bool := fun c => c.q = q && c.n = n
  match (List.range 16).find? (fun i => (d.sampler i).cmds.any mine) with
  | none => d.complete q n stUe a
  | some i =>
    if (d.sampler i).cmds.head?.any mine then d.smpEnd i stUe a
    else ((d.updSampler i (fun x => { x with cmds := x.cmds.filter (fun c => !mine c) })).complete q n stUe a).smpShow i

/-- The work of an engine on a descriptor ends with UE and the address, as the engine's chapter sets out (R143): an in-stack
command leaves its stack to the next (R163); a page-engine APPEND goes on with its other entries (R196); a sampler runs its next
descriptor (R214); an update's engines start no other unit (R229); an audit ends (R240); a collective is abandoned (R262). -/
def Dev.engineUe (d : Dev) (q n : Nat) (x : Desc) (a : Nat) : Dev :=
  let mine : Nat → Nat → Bool := fun q' n' => q' = q && n' = n
  match x.typ with
  | 14 => match (List.range 16).find? (fun k => (d.pimStack k).cmds.any (fun c => mine c.q c.n)) with
    | some k => match (d.pimStack k).cmds.find? (fun c => mine c.q c.n) with
      | some c => d.pimEnd k c stUe a
      | none => d.complete q n stUe a
    | none => d.complete q n stUe a
  | 15 => d.kvUe q n a
  | 16 => d.sampleUe q n a
  | 17 => d.sampleUe q n a
  | 18 =>
    match d.upd.cmds.find? (fun c => mine c.q c.n) with
    | none => d.complete q n stUe a
    | some c =>
      let d := d.raise (d.updEvent 0x0811 c.ctx [a])
      (d.updCmd c (fun y => { y with todo := [], status := stUe, result := a })).updGo
  | 19 => if d.upd.audit.any (fun c => mine c.q c.n) then (d.auditEnd stUe a).updGo
    else ((d.updCmds (fun l => l.filter (fun c => !mine c.q c.n))).complete q n stUe a).updGo
  | 20 => match d.col.open_.find? (fun e => mine e.2.q e.2.n) with
    | some (id, c) => d.collLost id c a
    | none => d.complete q n stUe a
  | _ => d.complete q n stUe a

/-- An uncorrectable error at address `a` reaches the consumer (R143): a tile's program stops, a command completes with UE; a
remote reader is answered by the row that serves it, the scrubber consumes nothing. -/
def Dev.consumerFails (d : Dev) (who : Consumer) (a : Nat) : Dev :=
  match who with
  | .tile t => d.tileStop t (.ue 0x0402 a)
  | .engine q n =>
    match d.desc q n with
    | some x => if x.phase = .running && x.typ ≠ 13 then d.engineUe q n x a else d
    | none => d
  | .remote _ _ => d
  | .scrubber => d

/-- The issuer of an access checks that the context holds the range before the access reaches its controller (R130): a tile
without a pipeline accesses nothing; the scrubber reads for no context. -/
def Dev.accessOwned (d : Dev) (who : Consumer) (a len : Nat) : Bool :=
  match who with
  | .tile t => (d.tilePipe t).isSome && d.owns (d.tileCtx t) a len
  | .engine q n => (match d.desc q n with | some x => x.phase == .running | none => false) && d.owns (d.queueCtx q) a len
  | .remote _ c => d.owns c a len
  | .scrubber => true

/-- An access that fails the check reaches no controller: a tile faults under R86; an engine's and a remote one is never sent, for
its descriptor or its request was refused (R130). -/
def Dev.accessRefused (d : Dev) (who : Consumer) : Dev :=
  match who with
  | .tile t => if (d.tilePipe t).isSome then d.tileStop t (.fault 0x0209) else d
  | _ => d

/-- A controller reads a granule for a consumer (R141, R143). An uncorrectable pattern that persists stays stored. -/
def Dev.serveRead (d : Dev) (a : Nat) (who : Consumer) (err retry : Wrong) : Dev :=
  match d.granuleRead (d.accessOf who) a err retry with
  | (d, .fail) =>
    let p := d.phys a
    let d := { d with mem := { d.mem with
      err := retry.foldl (fun l (e : Nat × Byte) => canonSet zeroByte l (p / 64 * 128 + e.1 % 128) e.2) d.mem.err } }
    d.consumerFails who (a / 64 * 64)
  | (d, _) => d

/-- A controller writes bytes for a consumer (R144). -/
def Dev.serveWrite (d : Dev) (a : Nat) (bs : List Byte) (who : Consumer) : Dev :=
  match d.memWriteRun (d.accessOf who) a bs with
  | (d, some g) => d.consumerFails who g
  | (d, none) => d

/-- Serve a request that was held (R166). -/
def Dev.serveHeld (d : Dev) (n : Nat) : HeldReq → Dev
  | .read a who err retry => d.serveRead a who err retry
  | .write a bs who => d.serveWrite a bs who
  | .scrub err retry => d.scrubOne (256 + n) err retry
  | .run => d

/-- SEQUENCE_END: a sequence ends; postponed refreshes and then held requests of its banks are served (R166, R167). -/
def execSequenceEnd (stack lane : Nat) (s : State) : Out :=
  onUnits [("stack", 16, stack), ("lane", 128, lane)] s (fun d =>
    let x := d.pimStack stack
    if x.seqs.all (fun e => e.lane ≠ lane) then d
    else
      let mine := x.held.filter (fun h => h.1 = lane)
      let worst := mine.foldl (fun m h => max m (d.now - h.2.1)) (d.fld (R.PIM_STK_HOLD stack) F.PIM_STK_HOLD_HOLD_MAX)
      let d := d.updPim stack (fun x => { x with
        seqs := x.seqs.filter (fun e => e.lane ≠ lane)
        postponed := x.postponed.filter (fun e => e.1 / 4 ≠ lane)
        held := x.held.filter (fun h => h.1 ≠ lane) })
      let d := d.wrapFld (R.PIM_STK_STAT stack) F.PIM_STK_STAT_SEQUENCES 1
      let d := d.setFld (R.PIM_STK_HOLD stack) F.PIM_STK_HOLD_HOLD_MAX (min worst 65535)
      (mine.foldl (fun d h => d.serveHeld stack h.2.2) d).pimActive stack)

/-- MEM_READ: a controller reads a granule, decodes its check code and returns, corrects or fails the data (R141 to R145); a
request for a bank in a sequence is held (R167); the issuer checks first that its context holds the granule (R130) (DEDUCED,
log entry 150). -/
def execMemRead (addr : Nat) (who : Consumer) (err retry : List (Nat × Byte)) (s : State) : Out :=
  onUnit "granule" memSize addr s (fun d =>
    if d.accessOwned who addr 1 = false then d.accessRefused who
    else if d.laneBusy addr then d.holdReq addr (.read addr who err retry) else d.serveRead addr who err retry)

/-- MEM_WRITE: a controller writes a whole granule, or a smaller write as a read-modify-write (R144); in a COMPUTE region it
writes exactly the bytes (R158); a request for a bank in a sequence is held (R167); the issuer checks first that its context holds
the bytes (R130). -/
def execMemWrite (addr : Nat) (data : List Byte) (who : Consumer) (s : State) : Out :=
  onUnits [("granule", memSize, addr), ("last byte", memSize + 1, addr + data.length)] s (fun d =>
    if d.accessOwned who addr data.length = false then d.accessRefused who
    else if d.laneBusy addr then d.holdReq addr (.write addr data who) else d.serveWrite addr data who)

end Sys2Proof.Machine
end

