-- ==== Sys2Proof/Machine/Rails.lean ====
section
/-! DEFINITION. The power rails as the other families use them: a cluster's operating point and ceiling (R351, R354, R363), stress
(R352), thinning (R361), waking and gating (R355, R357). -/

namespace Sys2Proof.Machine

/-- A cluster that nothing has happened to since reset. -/
def ClusterPwr.blank : ClusterPwr :=
  { bubbleAcc := 0, energyNj := 0, idleNj := 0, stressAcc := 0, stressMark := 0, stressBase := 0, wakeAt := none, stretchWindow := 0,
    stretchCount := 0, freqMax := 2000, everBound := false, boundNs := 0, boundMark := none, warm := [] }

/-- A cluster's own power data. -/
def Dev.clu (d : Dev) (c : Nat) : ClusterPwr := (look c d.pwr.clusters).getD ClusterPwr.blank

/-- Change a cluster's own power data. -/
def Dev.updClu (d : Dev) (c : Nat) (f : ClusterPwr → ClusterPwr) : Dev :=
  { d with pwr := { d.pwr with clusters := put c (f (d.clu c)) d.pwr.clusters } }

/-- The clusters. -/
def allClusters : List Nat := List.range 16

/-- The tiles of a cluster (R18). -/
def clusterTiles (c : Nat) : List Nat := (List.range 16).map (fun i => 16 * c + i)

/-- WAKE of a cluster: 0 OFF, 1 WAITING, 2 SOFTSTART, 3 ON, 4 FENCED (R374). -/
def Dev.cluWake (d : Dev) (c : Nat) : Nat := d.fld (R.CLU_PWR_STAT c) F.CLU_PWR_STAT_WAKE

/-- Whether a cluster is ungated. -/
def Dev.powered (d : Dev) (c : Nat) : Bool := d.cluWake c = 3

/-- The capping fraction F in units of 1/1,024 (R360). -/
def Dev.fCap (d : Dev) : Nat := d.fld R.PWR_CAP F.PWR_CAP_F

/-- Repeatable mode (R366). -/
def Dev.repeatable (d : Dev) : Bool := d.fld R.PWR_CFG F.PWR_CFG_MODE = 1

/-- A power event: the record gives the effective cap and the power of the last window in W, then what is its own (R375). -/
def Dev.raisePwr (d : Dev) (code unit : Nat) (own : List Nat) : Dev :=
  d.raise { code := code, unit := unit, args := d.fld R.PWR_CAP F.PWR_CAP_EFF_W :: d.fld R.PWR_CAP F.PWR_CAP_P_LAST_W :: own }

/-- The duty of keep-warm is held at 0 in a cluster while something suspends it (R392). -/
def Dev.warmPause (d : Dev) (c : Nat) : Dev := d.setFld (R.THM_CLU c) F.THM_CLU_KW_DUTY 0

/-- Keep-warm does not run in a cluster: no target, no duty (R392, R395). -/
def Dev.warmNone (d : Dev) (c : Nat) : Dev :=
  ((d.warmPause c).setFld (R.THM_CLU c) F.THM_CLU_KW_ACTIVE 0).setFld (R.THM_CLU c) F.THM_CLU_KW_TARGET 0

/-! ### Stress (R352) -/

/-- The 2 to the k/800 in units of 2^−40, for k below 800: the k-th power of 2^(1/800), rounded down at each step. -/
def pow2Frac : Nat → Nat
  | 0 => 2 ^ 40
  | k + 1 => pow2Frac k * 1100464694832 / 1099511627776

/-- The stress rate at a core voltage in mV and a temperature in 1/16 °C, in units of 2^−32:
2^((V − 0.75 V)/0.05 V) × 2^((T − 85 °C)/10 °C) (R352). The exponent is x/800 with x = 16 (V − 750) + 5 (T16 − 1360). -/
def stressRate (mv t16 : Nat) : Nat :=
  let x : Int := 16 * ((mv : Int) - 750) + 5 * ((t16 : Int) - 1360)
  let whole := x.fdiv 800
  let f := pow2Frac (x.fmod 800).toNat
  if 0 ≤ whole then f * 2 ^ whole.toNat / 2 ^ 8 else f / 2 ^ ((-whole).toNat + 8)

/-- The hottest valid tile value of a cluster in 1/16 °C; 0 before any sample. -/
def Dev.hottestTile (d : Dev) (c : Nat) : Nat :=
  (clusterTiles c).foldl (fun m t =>
    let v := d.fld (R.THM_TILE t) F.THM_TILE_VALUE
    if v = 0xFFF then m else max m v) 0

/-- Stress hours in units of 0.01 h that an accumulator holds: 36 s are 36 × 10^9 ns. -/
def stressHours (acc : Nat) : Nat := acc / (36000000000 * 2 ^ 32)

/-- A cluster's stress is charged up to now and CLU_STRESS shows it (R352) (DESIGN CHOICE, log entry 98). -/
def Dev.stressAccount (d : Dev) (c : Nat) : Dev :=
  let x := d.clu c
  let rate := if d.powered c then stressRate (d.fld (R.CLU_PWR_CFG c) F.CLU_PWR_CFG_VOLT_MV) (d.hottestTile c) else 0
  let acc := x.stressAcc + (d.now - x.stressMark) * rate
  let d := d.updClu c (fun y => { y with stressAcc := acc, stressMark := d.now })
  d.setFld (R.CLU_STRESS c) F.CLU_STRESS_EFF_HOURS (min (x.stressBase + stressHours acc) (2 ^ 32 - 1))

/-- The ageing margin of a number of stress hours (R352). -/
def ageMargin (hours100 : Nat) : Nat := min 25 (hours100 / 175000)

/-! ### Operating points (R351, R354, R363) -/

/-- The point of a frequency (R351). -/
def pointOf (mhz : Nat) : Option Nat := lowest 16 (fun i => Config.vfFreq i = mhz)

/-- The highest table point that a predicate holds for; point 0 when it holds for none. -/
def highestPoint (p : Nat → Bool) : Nat := ((List.range 16).reverse.find? p).getD 0

/-- Failed IVR phases of a cluster. -/
def Dev.ivrFailed (d : Dev) (c : Nat) : Nat := d.fld (R.CLU_IVR c) F.CLU_IVR_NFAILED

/-- The IVR ceiling: the highest point whose I_MAX the working phases carry at 4.5 A each (R354) (DEDUCED, log entry 99). -/
def Dev.ivrPoint (d : Dev) (c : Nat) : Nat :=
  highestPoint (fun i => decide (10 * Config.vfImax c i ≤ (32 - d.ivrFailed c) * 45))

/-- A cluster's ceiling in MHz: the lower of CLUSTER_FREQ_MAX and the IVR ceiling (R363). -/
def Dev.ceilMhz (d : Dev) (c : Nat) : Nat := min (d.clu c).freqMax (Config.vfFreq (d.ivrPoint c))

/-- CEIL_MHZ follows. -/
def Dev.showCeil (d : Dev) (c : Nat) : Dev := d.setFld (R.CLU_PWR_CFG c) F.CLU_PWR_CFG_CEIL_MHZ (d.ceilMhz c)

/-- A cluster runs at a point: the point's voltage plus the ageing margin, which takes its new value here (R351, R352). -/
def Dev.setPoint (d : Dev) (c i : Nat) : Dev :=
  let d := d.stressAccount c
  let off := R.CLU_PWR_CFG c
  let old := d.fld off F.CLU_PWR_CFG_AGE_MV
  let age := if d.pwr.stressRestored then max old (ageMargin (d.fld (R.CLU_STRESS c) F.CLU_STRESS_EFF_HOURS)) else 25
  let d := ((d.setFld off F.CLU_PWR_CFG_FREQ_MHZ (Config.vfFreq i)).setFld off F.CLU_PWR_CFG_POINT i).setFld off F.CLU_PWR_CFG_AGE_MV age
  let d := d.setFld off F.CLU_PWR_CFG_VOLT_MV ((Config.vfVolt c i).toNat + age)
  if old < age then d.raisePwr 0x0D31 c [age] else d

/-- REPEATABLE_OK: in repeatable mode, 1 while every ungated cluster runs at FREQ and no bubble has come since the mode was
entered; its fall raises EVT 0x0D05 (R366). -/
def Dev.repeatJudge (d : Dev) : Dev :=
  let freq := d.fld R.PWR_CFG F.PWR_CFG_FREQ_MHZ
  let ok := d.repeatable && !d.pwr.bubbled && allClusters.all (fun c => !d.powered c || d.fld (R.CLU_PWR_CFG c) F.CLU_PWR_CFG_FREQ_MHZ = freq)
  let was := d.fld R.PWR_CFG F.PWR_CFG_REPEATABLE_OK = 1
  let d := d.setFld R.PWR_CFG F.PWR_CFG_REPEATABLE_OK (b2n ok)
  if was && !ok && d.repeatable then d.raisePwr 0x0D05 0xFFFF [d.now / 10000] else d

/-- A cluster above its ceiling comes down to it (R354, R363); below FREQ in repeatable mode, REPEATABLE_OK falls. -/
def Dev.clampPoint (d : Dev) (c : Nat) : Dev :=
  let d := d.showCeil c
  let ceil := d.ceilMhz c
  if d.powered c && decide (ceil < d.fld (R.CLU_PWR_CFG c) F.CLU_PWR_CFG_FREQ_MHZ) then
    (d.setPoint c (highestPoint (fun i => decide (Config.vfFreq i ≤ ceil)))).repeatJudge
  else d

/-! ### Thinning (R361) -/

/-- A cluster applies the larger of F and its thermal fraction, gated clusters none; a change is a THROTTLE record (R341, R361). -/
def Dev.applyF (d : Dev) (c : Nat) : Dev :=
  let off := R.CLU_PWR_STAT c
  let ft := d.fld (R.THM_CLU c) F.THM_CLU_FT
  let old := d.fld off F.CLU_PWR_STAT_F_APPLIED
  let f := if d.powered c then max d.fCap ft else 0
  let d := (d.setFld off F.CLU_PWR_STAT_F_APPLIED f).setFld off F.CLU_PWR_STAT_THERMAL (b2n (d.powered c && decide (d.fCap < ft)))
  if f = old then d else d.traceAt (tracePoint 0x0D 5) c 0xFFFF 0xFFFF c (f * 100 / 1024)

/-- Every cluster applies its fraction. -/
def Dev.applyAllF (d : Dev) : Dev := allClusters.foldl Dev.applyF d

/-- An array takes the ramp in force, with an event that names its tile when that changes (R63, R77) (DEDUCED, log entry 141). -/
def Dev.rampPeriod (d : Dev) (t : Nat) : Dev :=
  let short := b2n d.pwr.shortRamp
  if d.fld (R.TIL_ARRAY_STAT t) F.TIL_ARRAY_STAT_RAMP_SHORT = short then d
  else
    (d.setFld (R.TIL_ARRAY_STAT t) F.TIL_ARRAY_STAT_RAMP_SHORT short).raise
      { code := if d.pwr.shortRamp then 0x0110 else 0x0111, unit := t }

/-! ### Gating and waking (R355, R357) -/

/-- A cluster's domain is gated: no frequency, no voltage, no thinning, its tiles OFF unless retired or fenced; what its tiles
held is lost, so that the next binding clears them (R72). -/
def Dev.gate (d : Dev) (c wake : Nat) : Dev :=
  let d := d.stressAccount c
  let off := R.CLU_PWR_CFG c
  let d := ((d.setFld off F.CLU_PWR_CFG_FREQ_MHZ 0).setFld off F.CLU_PWR_CFG_VOLT_MV 0).setFld off F.CLU_PWR_CFG_POINT 0
  let st := R.CLU_PWR_STAT c
  let d := ((d.setFld st F.CLU_PWR_STAT_WAKE wake).setFld st F.CLU_PWR_STAT_CURRENT 0).setFld st F.CLU_PWR_STAT_POWER_W 0
  let d := d.updClu c (fun x => { x with wakeAt := none })
  let d := (clusterTiles c).foldl (fun d t =>
    let d := if d.fld (R.TIL_STATE t) F.TIL_STATE_STATE = 1 then d.setFld (R.TIL_STATE t) F.TIL_STATE_STATE 0 else d
    let d := d.setFld (R.TIL_ARRAY_STAT t) F.TIL_ARRAY_STAT_LEVEL 0
    { d with tiles := alter t (fun x => { x with lastCtx := none, credits := 0, slots := 0 }) d.tiles }) d
  (d.repeatJudge.applyF c).warmNone c

/-- A cluster is up: at the lower of 2,000 MHz and its ceiling, or at FREQ in repeatable mode; its bubble accumulator at 0, the
thinning fraction in force taken, its tiles IDLE (R357) (DESIGN CHOICE, log entry 100). -/
def Dev.softStart (d : Dev) (c : Nat) : Dev :=
  let d := (d.stressAccount c).setFld (R.CLU_PWR_STAT c) F.CLU_PWR_STAT_WAKE 3
  let d := d.updClu c (fun x => { x with wakeAt := none, bubbleAcc := 0 })
  let d := d.showCeil c
  let top := if d.repeatable then d.fld R.PWR_CFG F.PWR_CFG_FREQ_MHZ else min 2000 (d.ceilMhz c)
  let d := d.setPoint c (highestPoint (fun i => decide (Config.vfFreq i ≤ min top (d.ceilMhz c))))
  let d := (clusterTiles c).foldl (fun d t =>
    if d.fld (R.TIL_STATE t) F.TIL_STATE_STATE = 0 then d.setFld (R.TIL_STATE t) F.TIL_STATE_STATE 1 else d) d
  d.repeatJudge.applyF c

/-- Whether a cluster is at peak: its measured current is at least 90% of I_MAX at its point (R357). -/
def Dev.atPeak (d : Dev) (c : Nat) : Bool :=
  d.powered c && decide (9 * Config.vfImax c (d.fld (R.CLU_PWR_CFG c) F.CLU_PWR_CFG_POINT) ≤ d.fld (R.CLU_PWR_STAT c) F.CLU_PWR_STAT_CURRENT)

/-- The edge-adjacent clusters in the cluster grid (R18). -/
def cluNeighbours (c : Nat) : List Nat :=
  (if c % 4 = 0 then [] else [c - 1]) ++ (if c % 4 = 3 then [] else [c + 1]) ++ (if c < 4 then [] else [c - 4]) ++
    (if 12 ≤ c then [] else [c + 4])

/-- The plane quadrant of a cluster: {0, 1, 4, 5}, {2, 3, 6, 7}, {8, 9, 12, 13}, {10, 11, 14, 15}. -/
def quadrant (c : Nat) : Nat := c / 8 * 2 + c % 4 / 2

/-- Whether a quadrant's slope token is there: spent, it returns after 12 µs (R357). -/
def Dev.tokenThere (d : Dev) (quad : Nat) : Bool := (look quad d.pwr.tokens).all (fun t => decide (t + 12000 ≤ d.now))

/-- After a start that found a trip record, no cluster is powered while a spot reads WATCH or above (R391). -/
def Dev.wakeBarred (d : Dev) : Bool := d.thm.tripFound && d.thm.spots.any (fun e => decide (1 ≤ e.2.level))

/-- The first waiting cluster of a quadrant takes the slope token if it is there, and soft-starts at half slope; a wait over 12 µs
raises EVT 0x0D21 (R357). -/
def Dev.takeToken (d : Dev) (quad : Nat) : Dev :=
  if d.tokenThere quad = false || d.wakeBarred then d
  else
    match allClusters.find? (fun c => quadrant c = quad && d.cluWake c = 1) with
    | none => d
    | some c =>
      let late := (d.clu c).wakeAt.any (fun t => decide (t + 12000 < d.now))
      let d := { d with pwr := { d.pwr with tokens := put quad d.now d.pwr.tokens } }
      let d := if late then d.raisePwr 0x0D21 c [] else d
      d.softStart c

/-- A gated cluster wakes: at once when no neighbour is at peak, else with its quadrant's slope token (R357). -/
def Dev.wakeCluster (d : Dev) (c : Nat) : Dev :=
  if d.cluWake c ≠ 0 then d
  else if (cluNeighbours c).any d.atPeak = false && !d.wakeBarred then d.softStart c
  else
    let d := (d.setFld (R.CLU_PWR_STAT c) F.CLU_PWR_STAT_WAKE 1).updClu c (fun x => { x with wakeAt := some d.now })
    d.takeToken (quadrant c)

/-- An orderly stop or a device-wide resign abandons a wake in progress and leaves the cluster gated (R357). -/
def Dev.abandonWakes (d : Dev) : Dev :=
  allClusters.foldl (fun d c => if d.cluWake c = 1 || d.cluWake c = 2 then d.gate c 0 else d) d

/-- A cluster is fenced: its tiles halt, its domain gates, its pipelines end with TILE_LOST, its tiles read FENCED and its bit in
ACTIVE_CLUSTERS 0 (R102, R355). -/
def Dev.fence (d : Dev) (c : Nat) : Dev :=
  let lost := d.pipes.filter (fun e => e.2.tiles.any (fun t => t / 16 = c))
  let d := lost.foldl (fun d e =>
    let t := (e.2.tiles.find? (fun t => t / 16 = c)).getD 0
    (d.raise { code := 0x0211, fault := true, fn := d.ctxFn e.2.ctx, ctx := e.2.ctx, job := e.2.job, unit := t }).haltPipe e.1 stTileLost t) d
  let d := d.setReg R.MGT_PERSONA (d.reg R.MGT_PERSONA &&& ~~~ ((1 : Word) <<< (32 + c)))
  let d := d.gate c 4
  (clusterTiles c).foldl (fun d t =>
    let st := d.fld (R.TIL_STATE t) F.TIL_STATE_STATE
    if st = 0 || st = 1 then d.setFld (R.TIL_STATE t) F.TIL_STATE_STATE 5 else d) d

/-- A tile of the cluster is bound: keep-warm ends (R392). -/
def Dev.clusterBound (d : Dev) (c : Nat) : Dev :=
  let d := d.updClu c (fun x => { x with everBound := true })
  d.warmNone c

end Sys2Proof.Machine
end

