-- ==== Sys2Proof/Machine/SyncRows.lean ====
section
/-! DEFINITION. The sync and control slot of a bundle (R82), and the sync fabric's rows (R95 to R97). -/

namespace Sys2Proof.Machine

/-- GD. -/
def cGd (w : Nat) : Nat := bits w 8 4
/-- GA. -/
def cGa (w : Nat) : Nat := bits w 13 9
/-- HND. -/
def cHnd (w : Nat) : Nat := bits w 21 14

/-- A signed immediate as a 64-bit word. -/
def immWord (w : Nat) : Word := BitVec.ofInt 64 (syncImm w)

/-- The place a branch goes: PC plus the offset in bundles (R82). -/
def Tile.target (x : Tile) (w : Nat) : Nat := ((x.pc : Int) + syncImm w).toNat

/-- GADDI: G[GD] = G[GA] + IMM. -/
def execGaddi (t : Nat) (s : State) : Out :=
  tileRow t 5 1 s (fun d x w => d.opDone t (fun z => z.later (cGd w) (x.reg (cGa w) + immWord w)))

/-- GADD: G[GD] = G[GA] + G[IMM[4:0]]. -/
def execGadd (t : Nat) (s : State) : Out :=
  tileRow t 5 2 s (fun d x w => d.opDone t (fun z => z.later (cGd w) (x.reg (cGa w) + x.reg (bits w 18 14))))

/-- GSHL: G[GD] = G[GA] << IMM[5:0]. -/
def execGshl (t : Nat) (s : State) : Out :=
  tileRow t 5 3 s (fun d x w => d.opDone t (fun z => z.later (cGd w) (x.reg (cGa w) <<< bits w 19 14)))

/-- LOOP: G[GA] = G[GA] − 1; if the result is not 0, PC = PC + IMM. -/
def execLoop (t : Nat) (s : State) : Out :=
  tileRow t 5 4 s (fun d x w =>
    let v := x.reg (cGa w) - 1
    d.opDone t (fun z =>
      let z := z.later (cGa w) v
      if v ≠ 0 then { z with branch := some (x.target w) } else z))

/-- BR: PC = PC + IMM. -/
def execBr (t : Nat) (s : State) : Out :=
  tileRow t 5 5 s (fun d x w => d.opDone t (fun z => { z with branch := some (x.target w) }))

/-- BNE: if G[GD] ≠ G[GA], PC = PC + IMM. -/
def execBne (t : Nat) (s : State) : Out :=
  tileRow t 5 6 s (fun d x w =>
    d.opDone t (fun z => if x.reg (cGd w) ≠ x.reg (cGa w) then { z with branch := some (x.target w) } else z))

/-- The information items of GINFO (R82); an item the table does not list is a free value. -/
def Dev.ginfo (d : Dev) (t : Nat) (x : Tile) (item : Nat) : Nat :=
  let stage := match d.tilePipe t with
    | some (_, p) => (p.stages.findIdx? (fun g => g.tiles.contains t)).getD 0
    | none => 0
  let count := match d.tilePipe t with
    | some (_, p) => (p.stages.getD stage ⟨[], false⟩).tiles.length
    | none => 0
  match item with
  | 0 => d.width t
  | 1 => x.index
  | 2 => count
  | 3 => stage
  | 4 => t
  | 5 => d.now
  | _ => Config.ginfoOther item

/-- GINFO: G[GD] = information item IMM. -/
def execGinfo (t : Nat) (s : State) : Out :=
  tileRow t 5 7 s (fun d x w => d.opDone t (fun z => z.later (cGd w) (BitVec.ofNat 64 (d.ginfo t x (bits w 23 14)))))

/-- The object and timeout in ns of a handle (R99). -/
def Tile.handle (x : Tile) (h : Nat) : Nat × Nat :=
  match x.handles.find? (fun e => e.1 = h) with
  | some (_, o, us) => (o, us * 1000)
  | none => (0, 0)

/-- A tile operation that the fabric refuses: counted, the context faults, EVT 0x0203 (R97). -/
def Dev.tileRefused (d : Dev) (t : Nat) : Dev := (d.syncRefused).tileStop t (.fault 0x0203)

/-- The 32-bit operand of SIGNAL or WAIT: GA = 0 gives 1 (R82). -/
def Tile.syncArg (x : Tile) (w : Nat) : Nat := if cGa w = 0 then 1 else (x.reg (cGa w)).toNat % 2 ^ 32

/-- Whether a tile's memory writes are acknowledged and its stream sends have arrived (R81, R277). -/
def Dev.tileSettled (d : Dev) (t : Nat) : Bool :=
  d.tileAcked t && d.streams.all (fun e => e.2.flight.all (fun m => m.prod ≠ t))

/-- SIGNAL: once its earlier writes and sends are visible, the tile adds to the object of its handle (R81, R82, R95); until
then it is held. -/
def execSignal (t : Nat) (s : State) : Out :=
  tileRow t 5 8 s (fun d x w =>
    let o := (x.handle (cHnd w)).1
    if d.syncOwned o (d.tileCtx t) = false then d.tileRefused t
    else if d.tileSettled t then (d.opDone t id).syncSignal o (x.syncArg w) (some t)
    else d)

/-- The WAIT at a tile's sync slot reaches the fabric (R81, R82, R95, R96); a tile that is to halt does not wait (R102). -/
def Dev.tileWait (d : Dev) (t : Nat) (x : Tile) (w : Nat) : Dev :=
  let (o, window) := x.handle (cHnd w)
  if d.syncOwned o (d.tileCtx t) = false || (d.proxyOf o).isSome then d.tileRefused t
  else if x.syncArg w ≤ d.syncValue o then d.opDone t id
  else if x.halting then d.haltNow t
  else
    (d.updTile t (fun z => { z with seq := .waitSync o (x.syncArg w) (d.now + window) })).syncWait o (x.syncArg w) window
      (.tile t)

/-- WAIT: later bundles are held until the object reaches the threshold. -/
def execWait (t : Nat) (s : State) : Out := tileRow t 5 9 s (fun d x w => d.tileWait t x w)

/-- SRESET: the object of the handle becomes 0. -/
def execSreset (t : Nat) (s : State) : Out :=
  tileRow t 5 10 s (fun d x w =>
    let o := (x.handle (cHnd w)).1
    if d.syncOwned o (d.tileCtx t) then (d.opDone t id).syncReset o (some t) else d.tileRefused t)

/-- HALT: the tile's program ends after this bundle, and its port buffers go (R94). -/
def execHalt (t : Nat) (s : State) : Out :=
  tileRow t 5 11 s (fun d _ _ =>
    let d := (d.updTile t (fun z => z.haltOp)).consumerEnds t
    match (d.tile t).pipe with
    | some pid => d.pipeCheck pid
    | none => d)

/-! ### The fabric (R95 to R97) -/

/-- Whether an agent may operate on an object (R97): tiles bound to its context, the context's queues, engine commands of
that context, Bamat packets that carry its job; the general timers signal the object their owner named (R345). -/
def Dev.agentMay (d : Dev) (a : SyncAgent) (o : Nat) (op : SyncOp) : Bool :=
  if op = .wait && (d.proxyOf o).isSome then false
  else match a with
  | .tile t => (d.tile t).pipe.isSome && d.syncOwned o (d.tileCtx t)
  | .host q => !isAdmin q && (d.queue q).isSome && d.syncOwned o (d.queueCtx q)
  | .timer _ => decide (o < 16384) && d.fld (R.SYN_OBJ o) F.SYN_OBJ_ALLOC = 1 && op = .signal
  | .page c => d.syncOwned o c
  | .sampler _ c => d.syncOwned o c
  | .controller _ c => d.syncOwned o c
  | .collective c => d.syncOwned o c
  | .port _ job =>
    decide (o < 16384) && d.fld (R.SYN_OBJ o) F.SYN_OBJ_ALLOC = 1 && d.syncJobs.contains o &&
      d.fld (R.SYN_OBJ o) F.SYN_OBJ_JOB = job && op ≠ .wait

/-- Whether a SYNC packet is lost with its job, which is being purged (R123). -/
def Dev.syncPurged (d : Dev) (a : SyncAgent) : Bool :=
  match a with
  | .tile t => d.jobPurged t
  | .port _ job => d.purgingNow job
  | _ => false

/-- SYNC_PACKET: an operation arrives at the fabric and is applied, or refused and counted (R95, R97). A WAIT that arrives
is that at the tile's sync slot; a descriptor's wait is made by its own row. -/
def execSyncPacket (agent : SyncAgent) (op : SyncOp) (obj val : Nat) (s : State) : Out :=
  onUnit "sync object" 16384 obj s (fun d =>
    if d.syncPurged agent then d
    else if d.agentMay agent obj op = false then
      match agent with
      | .tile t => if (d.tile t).pipe.isSome then d.tileRefused t else d.syncRefused
      | _ => d.syncRefused
    else
      match op, agent with
      | .signal, .tile t => d.syncSignal obj val (some t)
      | .sreset, .tile t => d.syncReset obj (some t)
      | .signal, _ => d.syncSignal obj val
      | .sreset, _ => d.syncReset obj
      | .wait, .tile t =>
        d.tileOp t 5 9 (fun d x w => if (x.handle (cHnd w)).1 = obj then d.tileWait t x w else d)
      | .wait, _ => d)

/-- SYNC_TIMEOUT: a wait not satisfied by the end of its window: counted, EVT 0x0201; a tile wait faults its context, a wait
made for a descriptor completes it with TIMEOUT (R96). -/
def execSyncTimeout (obj : Nat) (who : Waiter) (s : State) : Out :=
  onUnit "sync object" 16384 obj s (fun d =>
    match d.waits.find? (fun w => w.obj = obj && w.who = who && decide (w.deadline ≤ d.now)) with
    | none => d
    | some _ =>
      let d := { d with waits := d.waits.filter (fun w => !(w.obj = obj && w.who = who)) }
      let d := (d.countWaiters obj).satFld R.SYN_STAT F.SYN_STAT_TIMEOUTS 1
      match who with
      | .tile t => d.tileStop t (.fault 0x0201) [obj]
      | .desc q n =>
        (d.raise { d.descEvent 0x0201 q n with job := d.syncJob obj, args := [obj, q, match d.desc q n with | some x => x.cid | none => 0] }).complete
          q n stTimeout 0)

end Sys2Proof.Machine
end

