-- ==== Sys2Proof/Machine/Links.lean ====
section
/-! DEFINITION. Bamat links (chapter 12): readiness and the topology check (R283, R408), training and port states (R267 to R269,
R282), flits as they arrive (R270 to R273), remote operations (R273, R277, R279, R280), ring notices (R278), tempo (R284,
R285), Ethernet frames (R289) and the LINK_MAP commands (R277). -/

namespace Sys2Proof.Machine

/-! ### Readiness (R283, R408) -/

/-- EVT 0x0F06, once a boot: READY has not come, or comes, later than 4 s after the FW_LOAD doorbell (R409). -/
def Dev.readyLate (d : Dev) : Dev :=
  if d.boot.readyLate || d.boot.tReady ≠ 0 || decide (d.now < d.boot.tLoad + 4000000000) then d
  else ({ d with boot := { d.boot with readyLate := true } } : Dev).raise { code := 0x0F06 }

/-- The device enters READY when all of R408 holds: EVT 0x0F05, T_READY, and EVT 0x0F06 when it is late. -/
def Dev.readyCheck (d : Dev) : Dev :=
  if d.boot.stage = 6 && d.boot.merged && (d.fwState = 2 || d.fwState = 3) && d.cfgState = 2 && d.boot.topoPassed then
    let d := d.readyLate
    ({ d with boot := { d.boot with stage := 7, tReady := d.now } } : Dev).raise { code := 0x0F05 }
  else d

/-- Whether every REQUIRED port is UP or DEGRADED with at least MINLANES lanes. -/
def Dev.requiredUp (d : Dev) : Bool :=
  (List.range 32).all (fun k => d.portNeed k ≠ 1 ||
    ((d.portState k = 2 || d.portState k = 3) && decide (teMinLanes (d.portEntry k) ≤ d.portWidth k)))

/-- The topology check (R283), after the configuration has been applied. -/
def Dev.topoCheck (d : Dev) : Dev :=
  if d.cfgState = 2 && !d.boot.topoPassed && d.requiredUp then
    let d := (d.setFld R.LNK_CFG F.LNK_CFG_TOPO_OK 1).raise { code := 0x0A12 }
    ({ d with boot := { d.boot with topoPassed := true } } : Dev).readyCheck
  else d.readyCheck

/-- The topology check is to be taken afresh (R408). -/
def Dev.topoAfresh (d : Dev) : Dev :=
  ({ d with boot := { d.boot with topoPassed := false } } : Dev).setFld R.LNK_CFG F.LNK_CFG_TOPO_OK 0

/-! ### The tempo parent (R284, R285) -/

/-- SYNC. -/
def Dev.sync (d : Dev) : Nat := d.fld R.LNK_TEMPO_STAT F.LNK_TEMPO_STAT_SYNC

/-- Set SYNC. -/
def Dev.setSync (d : Dev) (v : Nat) : Dev := d.setFld R.LNK_TEMPO_STAT F.LNK_TEMPO_STAT_SYNC v

/-- Whether the device is its own master: index 0, or no Bamat port in use. -/
def Dev.ownMaster (d : Dev) : Bool :=
  d.selfDev = 0 || (List.range 32).all (fun k => d.portMode k ≠ 1 || d.portNeed k = 0)

/-- The link set toward the parent: the first hop toward device 0, the shorter way where no way is open. -/
def Dev.parentSet (d : Dev) : Option Nat :=
  match firstDim d.selfDev 0 with
  | none => none
  | some k =>
    let c := coordOf d.selfDev k
    let size := d.dimSize k
    let plus := (d.chooseDir k size c 0).getD (decide (size - c ≤ c))
    some (2 * k + b2n (!plus))

/-- The port that stands for a link set: its lowest usable one, else its lowest. -/
def Dev.setPort (d : Dev) (set : Nat) : Nat :=
  (d.setPorts set).headD (((List.range 32).find? (fun k => d.portSet k = set)).getD 0)

/-- The parent as the descriptor and the ports give it; the master has none. -/
def Dev.parentInit (d : Dev) : Dev :=
  if d.ownMaster then d.setSync 1
  else
    let d := if d.sync = 1 then d.setSync 0 else d
    match d.parentSet with
    | none => d
    | some s => d.setFld R.LNK_TEMPO_STAT F.LNK_TEMPO_STAT_PARENT (d.setPort s)

/-- A link set has gone down: if it led to the parent, the next parent is chosen, EVT 0x0A23, and the device free-runs
(DEDUCED, log entry 83). -/
def Dev.parentLost (d : Dev) (set : Nat) : Dev :=
  let p := d.fld R.LNK_TEMPO_STAT F.LNK_TEMPO_STAT_PARENT
  if d.ownMaster || d.portSet p ≠ set then d
  else
    let d := d.setSync 3
    let d := { d with lnk := { d.lnk with holdAt := some d.now } }
    let q := match d.parentSet with
      | some s => d.setPort s
      | none => p
    (d.setFld R.LNK_TEMPO_STAT F.LNK_TEMPO_STAT_PARENT q).raise { code := 0x0A23, unit := q }

/-- PARENT names a usable port of the link set by which the route toward device 0 begins now; where that has become another set, the
device has a new parent, EVT 0x0A23 (R284, R285). -/
def Dev.parentFollow (d : Dev) : Dev :=
  let p := d.fld R.LNK_TEMPO_STAT F.LNK_TEMPO_STAT_PARENT
  if d.ownMaster then d
  else
    match d.parentSet with
    | none => d
    | some s =>
      match (d.setPorts s).head? with
      | none => d
      | some q =>
        if d.portSet p = s then (if d.portUsable p then d else d.setFld R.LNK_TEMPO_STAT F.LNK_TEMPO_STAT_PARENT q)
        else (d.setFld R.LNK_TEMPO_STAT F.LNK_TEMPO_STAT_PARENT q).raise { code := 0x0A23, unit := q }

/-! ### Rings (R278) -/

/-- A segment is marked or cleared in LNK_RING, with its event. -/
def Dev.ringMark (d : Dev) (dim c : Nat) (broken : Bool) : Dev :=
  if d.segBroken dim c = broken then d
  else
    let i := 8 * dim + c
    let v := d.fld R.LNK_RING F.LNK_RING_BROKEN
    (d.setFld R.LNK_RING F.LNK_RING_BROKEN (if broken then v + 2 ^ i else v - 2 ^ i)).raise
      { code := if broken then 0x0A32 else 0x0A33, unit := i, args := [dim, c] }

/-- The segment behind a link set of this device: from its own coordinate on, or the one before it. -/
def Dev.setSegment (d : Dev) (set : Nat) : Nat × Nat :=
  let dim := set / 2
  let c := coordOf d.selfDev dim
  let size := d.dimSize dim
  (dim, if set % 2 = 0 then c else (c + size - 1) % max size 1)

/-- A notice of a segment goes to both neighbours in the ring, each of which passes it on (DESIGN CHOICE, log entry 23). -/
def Dev.ringNotice (d : Dev) (dim c : Nat) (broken : Bool) : Dev :=
  let me := coordOf d.selfDev dim
  let size := max (d.dimSize dim) 1
  let one : Dev → Bool → Dev := fun d plus =>
    let ports := d.setPorts (2 * dim + b2n (!plus))
    let x := if plus then (me + 1) % size else (me + size - 1) % size
    let p : BamatPkt := { BamatPkt.blank with
      op := 10, vc := 7, dstdev := d.selfDev - me * 8 ^ dim + x * 8 ^ dim, srcdev := d.selfDev, dstep := 324, srcep := 324,
      addr := 8 * dim + c, arg := 5 + 256 * b2n broken, dir := b2n (!plus) }
    if ports.isEmpty then d else d.portQueue (pickPort ports p) p
  (one (one d true) false).pumpAll

/-- A link set of a ring has gone down or come up: its two ends tell the ring; a set that comes up clears a mark only where there is one. -/
def Dev.setTurned (d : Dev) (set : Nat) (broken : Bool) : Dev :=
  if 10 ≤ set then d
  else
    let (dim, c) := d.setSegment set
    if broken then ((d.ringMark dim c true).ringNotice dim c true).parentLost set
    else if d.segBroken dim c then (d.ringMark dim c false).ringNotice dim c false
    else d

/-! ### Port states (R268, R269, R276, R282, R283) -/

/-- Packets that a port holds and its peer has not acknowledged. -/
def PortSt.holds (p : PortSt) : List BamatPkt := p.unacked.map (·.2) ++ p.txq.map (·.pkt)

/-- Every packet that a port holds unacknowledged is lost: counted, refused with LINK_LOST (R276). -/
def Dev.losePackets (d : Dev) (k : Nat) : Dev :=
  let p := d.portSt k
  let d := d.updPort k (fun x => { PortSt.fresh with attemptAt := x.attemptAt, failed := x.failed })
  let d := d.satFld (R.LNK_PORT_ERR k) F.LNK_PORT_ERR_LOST p.holds.length
  d.bamatSendAll (p.holds.map (fun x => refusal x 5))

/-- The event of a port that enters a state (R268). -/
def stateEvent (st : Nat) : Option Nat :=
  match st with
  | 2 => some 0x0A01
  | 3 => some 0x0A02
  | 4 => some 0x0A03
  | 5 => some 0x0A10
  | _ => none

/-- A port enters a state: its event, the warning of an OPTIONAL port, what its link set and its packets make of it, the
topology check. -/
def Dev.portTo (d : Dev) (k st : Nat) : Dev :=
  if d.portState k = st then d
  else
    let peer := d.fld (R.LNK_PORT_PEER k) F.LNK_PORT_PEER_PEER_DEV
    let was := d.portUsable k
    let set := d.portSet k
    let other := !((d.setPorts set).filter (· ≠ k)).isEmpty
    let d := d.setFld (R.LNK_PORT_STAT k) F.LNK_PORT_STAT_STATE st
    let d := match stateEvent st with
      | some e => d.raise { code := e, unit := k, args := [peer] }
      | none => d
    let d := if decide (3 ≤ st) && decide (st ≤ 5) && d.portNeed k = 2 then d.raise { code := 0x0A13, unit := k, args := [peer] } else d
    let isUp := d.portUsable k
    let d := if was && !isUp && !other then d.setTurned set true
      else if !was && isUp && !other then d.setTurned set false else d
    let d := if was && !isUp then d.losePackets k else d
    d.parentFollow.topoCheck

/-- Whether an attempt is due (R267, R283) (DEDUCED, log entry 156). -/
def Dev.attemptDue (d : Dev) (k : Nat) : Bool :=
  let p := d.portSt k
  let every : Nat → Bool := fun ns => decide (p.attemptAt + ns ≤ d.now)
  d.portMode k ≠ 0 &&
    match d.portState k with
    | 1 => (p.failed = 0 && d.portWidth k = 0) || every 250000000
    | 3 =>
      d.fld R.LNK_CFG F.LNK_CFG_TOPO_OK = 0 && d.portNeed k = 1 && decide (d.portWidth k < teMinLanes (d.portEntry k)) && every 1000000000
    | 4 => every 1000000000
    | 5 => d.fld R.LNK_CFG F.LNK_CFG_TOPO_OK = 0 && every 1000000000
    | _ => false

/-- The lanes that a mode uses, and whether a set of good lanes trains the port (R266, R267). -/
def trainLanes (mode : Nat) (good : BitVec 8) : BitVec 8 × Bool :=
  let n : BitVec 8 → Nat := fun x => ((List.range 8).filter (fun i => x.getLsbD i)).length
  match mode with
  | 1 => (good, decide (4 ≤ n good))
  | 2 => (good &&& 0x0F, (good &&& 0x0F) = 0x0F)
  | 3 => (good, good = 0xFF)
  | _ => (0, false)

/-- The number of lanes in a set. -/
def laneCount (x : BitVec 8) : Nat := ((List.range 8).filter (fun i => x.getLsbD i)).length

/-- The IDENT flit of a port: SELF, the port, the versions and TOPO_ID (R17, R282); it carries the SEQ before the first in service
(DESIGN CHOICE, log entries 23 and 71). -/
def Dev.identFlit (d : Dev) (k : Nat) : Flit :=
  ctrlFlit 16383 16383
    (leBytes 2 d.selfDev ++ leBytes 1 k ++ leBytes 1 (d.fld R.LNK_CFG F.LNK_CFG_VERS) ++ leBytes 8 (topoId d.lnk.topo))

/-- TRAINING_ATTEMPT: an attempt, when one is due, finds the good lanes: the port bonds them, sends its IDENT and waits
for its peer's, or the attempt has failed (R267). The attempt's 220 ms are taken at once (DESIGN CHOICE, log entry 5). -/
def execTrainingAttempt (k : Nat) (good : BitVec 8) (s : State) : Out :=
  onUnit "port" 32 k s (fun d =>
    if d.attemptDue k = false then d
    else
      let was := d.portState k
      let (lanes, ok) := trainLanes (d.portMode k) good
      let d := d.satFld (R.LNK_PORT_STAT k) F.LNK_PORT_STAT_ATTEMPTS 1
      let d := d.setFld (R.LNK_PORT_STAT k) F.LNK_PORT_STAT_LANES lanes.toNat
      let d := d.setFld (R.LNK_PORT_STAT k) F.LNK_PORT_STAT_WIDTH (if ok then laneCount lanes else 0)
      let d := d.updPort k (fun p => { p with attemptAt := d.now, failed := if ok then 0 else p.failed + 1 })
      if ok then (d.updPort k (fun p => { p with ident := some (d.identFlit k) })).portTo k 1
      else if was = 4 || decide (3 ≤ (d.portSt k).failed) then d.portTo k 4
      else d.portTo k 1)

/-- The highest version in both bitmaps; none when they share none (R287). -/
def Dev.commonVersion (d : Dev) (vers : Nat) : Option Nat :=
  let both := vers &&& d.fld R.LNK_CFG F.LNK_CFG_VERS
  ((List.range 8).filter (fun v => both.testBit v)).getLast?

/-- IDENT: a trained port compares its peer's identity with its entry (R282). -/
def execIdent (k : Nat) (peer : PeerId) (s : State) : Out :=
  onUnit "port" 32 k s (fun d =>
    if !(d.portState k = 1 && decide (0 < d.portWidth k)) then d
    else
      let e := d.portEntry k
      let unused := d.portNeed k = 0
      let version := d.commonVersion peer.vers
      let same := unused || (peer.dev = tePeer e && peer.port = tePeerPort e && peer.topoId.toNat = topoId d.lnk.topo)
      let m := if same = false then 2 else if version.isNone && !unused then 3 else 1
      let d := d.setFld (R.LNK_PORT_PEER k) F.LNK_PORT_PEER_PEER_DEV peer.dev
      let d := d.setFld (R.LNK_PORT_PEER k) F.LNK_PORT_PEER_PEER_PORT peer.port
      let d := d.setFld (R.LNK_PORT_PEER k) F.LNK_PORT_PEER_MATCH m
      if m = 1 then
        let d := d.setFld (R.LNK_PORT_STAT k) F.LNK_PORT_STAT_VER (version.getD 0)
        let d := d.updPort k (fun p => { PortSt.fresh with attemptAt := p.attemptAt, ident := p.ident })
        d.portTo k (if d.portMode k = 1 && decide (d.portWidth k < 8) then 3 else 2)
      else
        let d := d.portTo k 5
        if version.isNone then d.raise { code := 0x0A11, unit := k, args := [peer.dev, peer.vers] } else d)

/-! ### Resending (R271) -/

/-- A port resends every flit it holds unacknowledged, in order: counted; 64 within 1 ms raise EVT 0x0A05; a flit resent for the 16th
time in succession raises EVT 0x0A06 and retrains the port (R271). -/
def Dev.resend (d : Dev) (k : Nat) : Dev :=
  let p := d.portSt k
  let n := p.retry.length
  if n = 0 then d
  else
    let peer := d.fld (R.LNK_PORT_PEER k) F.LNK_PORT_PEER_PEER_DEV
    let d := d.satFld (R.LNK_PORT_ERR k) F.LNK_PORT_ERR_RESENT n
    let old := recent d.now p.resendTimes
    let again := p.retry.map (fun e => (e.1, e.2 + 1))
    let d := d.updPort k (fun x => { x with retry := again, ackAt := d.now, resendTimes := List.replicate n d.now ++ old })
    let d := d.flitsOut k (again.map (·.1))
    let d := if decide (old.length < 64) && decide (64 ≤ old.length + n) then d.raise { code := 0x0A05, unit := k, args := [peer] } else d
    if again.any (fun e => decide (16 ≤ e.2)) then
      let d := d.raise { code := 0x0A06, unit := k, args := [peer] }
      let d := d.setFld (R.LNK_PORT_STAT k) F.LNK_PORT_STAT_WIDTH 0
      let d := d.portTo k 1
      d.updPort k (fun x => { x with failed := 0 })
    else d

/-- RESEND_TIMEOUT: no advance of ACK for 2 µs (R271). -/
def execResendTimeout (k : Nat) (s : State) : Out :=
  onUnit "port" 32 k s (fun d =>
    if !(d.portSt k).retry.isEmpty && decide ((d.portSt k).ackAt + 2000 ≤ d.now) then d.resend k else d)

/-- LANE_DROPPED: a lane in use is dropped in service: the port bonds the rest and replays, or goes DOWN (R269). -/
def execLaneDropped (k lane : Nat) (s : State) : Out :=
  onUnits [("port", 32, k), ("lane", 8, lane)] s (fun d =>
    let lanes := d.fld (R.LNK_PORT_STAT k) F.LNK_PORT_STAT_LANES
    if !((d.portState k = 2 || d.portState k = 3) && lanes.testBit lane) then d
    else
      let d := d.satFld (R.LNK_PORT_ERR k) F.LNK_PORT_ERR_LANE_DROPS 1
      let d := d.setFld (R.LNK_PORT_STAT k) F.LNK_PORT_STAT_LANES (lanes - 2 ^ lane)
      let w := d.portWidth k - 1
      if d.portMode k = 1 && decide (4 ≤ w) then
        let d := d.setFld (R.LNK_PORT_STAT k) F.LNK_PORT_STAT_WIDTH w
        ((d.raise { code := 0x0A04, unit := k, args := [d.fld (R.LNK_PORT_PEER k) F.LNK_PORT_PEER_PEER_DEV, lane] }).portTo k 3).resend k
      else
        let d := d.setFld (R.LNK_PORT_STAT k) F.LNK_PORT_STAT_WIDTH 0
        let d := d.updPort k (fun x => { x with attemptAt := d.now, failed := 3 })
        d.portTo k 4)

/-! ### Flits that arrive (R270 to R273) -/

/-- A packet has come in by a port: discarded, taken, or forwarded (R273, R276). -/
def Dev.portPacket (d : Dev) (k vc : Nat) (p : BamatPkt) : Dev :=
  if p.vc ≠ vc then d.discardAt k
  else
    d.bamatTakes (d.portDim k) (272 + k) p (fun d => d.discardAt k)
      (fun d => if engineOp p then d.engineTakes (272 + k) p else d.bamatArrives p)

/-- Take the complete packets off the bytes of a channel; zeros between packets fill a flit (PRESUMED, log entry 20). What remains
belongs to a packet still to come. -/
def Dev.takePackets (d : Dev) (k vc : Nat) : (fuel : Nat) → List Byte → Dev × List Byte
  | 0, _ => (d, [])
  | n + 1, bs =>
    match bs with
    | [] => (d, [])
    | b :: _ =>
      if b = 0 then (d, [])
      else if bs.length < 32 then (d, bs)
      else
        let len := natAt bs 2 2
        if decide (1024 < len) || len % 8 ≠ 0 then (d.discardAt k, [])
        else if bs.length < 32 + len then (d, bs)
        else (d.portPacket k vc (parsePkt bs)).takePackets k vc n (bs.drop (32 + len))

/-- The acknowledgement in a flit: flits up to ACK leave the retry buffer (R271). -/
def PortSt.acked (p : PortSt) (now ack : Nat) : PortSt :=
  let oldest := (p.txSeq + 2 ^ 14 - p.retry.length) % 2 ^ 14
  let n := (ack + 1 + 2 ^ 14 - oldest) % 2 ^ 14
  if n = 0 || decide (p.retry.length < n) then p
  else { p with
    retry := p.retry.drop n, ackAt := now
    unacked := p.unacked.filter (fun e => decide (n ≤ (e.1 + 2 ^ 14 - oldest) % 2 ^ 14)) }

/-- The credits in a flit (R272). -/
def PortSt.credited (p : PortSt) (vc n : Nat) : PortSt :=
  let top := if vc = 0 || vc = 7 then 256 else 1280
  { p with credits := setAt p.credits vc (min top (p.credits.getD vc 0 + n)) }

/-- The flits of a channel that are emptied when `n` more bytes have left the receive buffer, and what the rest still hold (R272). -/
def emptyFlits : (n : Nat) → List Nat → Nat × List Nat
  | _, [] => (0, [])
  | n, h :: r => if h ≤ n then let (k, r) := emptyFlits (n - h) r; (k + 1, r) else (0, (h - n) :: r)

/-- The IDLE flit that answers: the last SEQ in order, NAK, the credits for flits emptied as (channel, count) (R270 to R272). -/
def idleFlit (ack : Nat) (nak : Bool) (credit : Option (Nat × Nat)) : Flit :=
  let cr := match credit with
    | some (vc, n) => vc % 8 * 2 ^ 34 + n % 256 * 2 ^ 37
    | none => 0
  let l := linkWord 0 0 0 ack nak ||| BitVec.ofNat 64 cr
  let c := List.replicate 244 (0 : Byte)
  { link := l, content := c, crc := crc32c (leBytes 8 l.toNat ++ c) }

/-- Answer a flit. -/
def Dev.answer (d : Dev) (k : Nat) (nak : Bool) (credit : Option (Nat × Nat)) : Dev :=
  let f := idleFlit ((d.portSt k).rxSeq + 2 ^ 14 - 1) nak credit
  (d.updPort k (fun p => { p with answer := some f })).flitsOut k [f]

/-- Whether a flit is whole and its CRC holds. -/
def flitGood (f : Flit) : Bool := f.content.length = 244 && f.crc = crc32c (leBytes 8 f.link.toNat ++ f.content)

/-- A flit arrives at a port that carries packets (R271, R272). -/
def Dev.flitIn (d : Dev) (k : Nat) (f : Flit) : Dev :=
  if flitGood f = false then d.answer k true none
  else
    let l := f.link.toNat
    let kind := bits l 1 0
    let vc := bits l 4 2
    let d := d.updPort k (fun p => (p.acked d.now (bits l 32 19)).credited (bits l 36 34) (bits l 44 37))
    let d := if l.testBit 33 then d.resend k else d
    let d := d.pumpPort k
    if !(kind = 1 || kind = 2) || d.portUsable k = false then d
    else
      let gap := (bits l 18 5 + 2 ^ 14 - (d.portSt k).rxSeq) % 2 ^ 14
      if gap ≠ 0 then d.answer k (decide (gap < 2 ^ 13)) none
      else
        let d := d.updPort k (fun p => { p with rxSeq := (p.rxSeq + 1) % 2 ^ 14 })
        if kind = 2 then d.answer k false none
        else
          let bs := (d.portSt k).rx.getD vc [] ++ f.content
          let (d, rest) := d.takePackets k vc (bs.length / 32 + 1) bs
          let (n, kept) := emptyFlits (bs.length - rest.length) ((d.portSt k).held.getD vc [] ++ [f.content.length])
          let d := d.updPort k (fun p => { p with rx := setAt p.rx vc rest, held := setAt p.held vc kept })
          d.answer k false (if n = 0 then none else some (vc, n))

/-- FLIT_RECEIVE: a Bamat flit arrives at a port (R271). What a CTRL flit says is the operand of IDENT and TEMPO_EXCHANGE. -/
def execFlitReceive (k : Nat) (f : Flit) (s : State) : Out :=
  onUnit "port" 32 k s (fun d => if d.portMode k = 1 && d.portUsable k then d.flitIn k f else d)

/-- The ns for which a number of pause quanta of 512 bit times stops a port (IEEE 802.3; PRESUMED, log entry 82). -/
def quantaNs (mode q : Nat) : Nat := if mode = 2 then (64 * q + 99) / 100 else (32 * q + 99) / 100

/-- A peer pauses an Ethernet port, or lets it go on (R289). -/
def Dev.pausePort (d : Dev) (k q : Nat) : Dev :=
  (d.updPort k (fun p => { p with pausedUntil := d.now + quantaNs (d.portMode k) q })).pumpPort k

/-- ETH_FRAME: an Ethernet port takes the flits of a frame from its peer and obeys PAUSE and priority flow control, where its own
frames have priority 3; any other frame is discarded and counted (R289) (PRESUMED, log entry 82). -/
def execEthFrame (k srcMac etherType vlan : Nat) (body : EthBody) (s : State) : Out :=
  onUnit "port" 32 k s (fun d =>
    let e := d.portEntry k
    if !(d.portMode k = 2 || d.portMode k = 3) then d
    else
      match body with
      | .pause q => if etherType = 0x8808 then d.pausePort k q else d.discardAt k
      | .pfc qs =>
        if etherType = 0x8808 then
          match qs.getD 3 none with
          | some q => d.pausePort k q
          | none => d
        else d.discardAt k
      | .flits fs =>
        if srcMac ≠ teMac e || etherType ≠ 0x88B5 || vlan ≠ teVlan e || fs.isEmpty || decide (8 < fs.length) then d.discardAt k
        else fs.foldl (fun d f => if d.portUsable k then d.flitIn k f else d) d)

/-! ### Remote operations (R273, R277, R279, R280) -/

/-- The context of an open job, 0 for a number that no job has. -/
def Dev.jobCtx (d : Dev) (job : Nat) : Nat := ((look job d.jobs).map (fun j => j.ctx)).getD 0

/-- An operation of a job that may be refused: with the lowest status that applies, else run for the job's context (R279).
`bad` says that its address is outside that context's extents. -/
def Dev.remoteOp (d : Dev) (p : BamatPkt) (bad : Nat → Bool) (f : Dev → Nat → Dev) : Dev :=
  let c := d.jobCtx p.job
  match d.bamatStatus p.job (bad c) with
  | some st => d.bamatRefuse p st
  | none => f d c

/-- The answer to a packet: its job, tag and address, back to its endpoint. -/
def answerTo (p : BamatPkt) (self op vc : Nat) (payload : List Byte) : BamatPkt :=
  { BamatPkt.blank with
    op := op, vc := vc, job := p.job, tag := p.tag, dstdev := p.srcdev, srcdev := self, dstep := p.srcep, srcep := p.dstep,
    addr := p.addr, payload := payload }

/-- BAMAT_WRITE: a remote write is checked, written, and acknowledged once visible (R273, R279). One for an engine's endpoint
is refused like any other, or goes to that engine's own row. -/
def execBamatWrite (pkt : BamatPkt) (s : State) : Out :=
  bamatRow pkt 1 s (fun d =>
    if engineOp pkt then d.engineTakes 322 pkt
    else d.remoteOp pkt (fun c => !d.owns c pkt.addr pkt.payload.length) (fun d c =>
      let (d, _) := d.memWriteRun { ctx := c } pkt.addr pkt.payload
      d.bamatSend (answerTo pkt d.selfDev 4 0 [])))

/-- BAMAT_READ: a remote read is answered with RDATA, or refused with the lowest status that applies, UE before NOT_READY (R273, R279)
(DESIGN CHOICE, log entry 79). -/
def execBamatRead (pkt : BamatPkt) (s : State) : Out :=
  bamatRow pkt 2 s (fun d =>
    let c := d.jobCtx pkt.job
    let st := d.bamatStatus pkt.job (decide (pkt.arg < 8) || decide (1024 < pkt.arg) || !d.owns c pkt.addr pkt.arg)
    if st.any (fun v => decide (v < 7)) then d.bamatRefuse pkt (st.getD 0)
    else
      match d.memCheckRead { ctx := c } pkt.addr pkt.arg with
      | (d, some _) => d.bamatRefuse pkt 7
      | (d, none) =>
        match st with
        | some v => d.bamatRefuse pkt v
        | none =>
          let b := d.memBytes pkt.addr pkt.arg
          d.bamatSend (answerTo pkt d.selfDev 3 pkt.vc (b ++ List.replicate (roundUp b.length 8 - b.length) (0 : Byte))))

/-- An answer to one of this device's own operations: it is no longer outstanding. -/
def Dev.answered (d : Dev) (op : Nat) (p : BamatPkt) : Dev :=
  let hit : Outstanding → Bool := fun o =>
    o.pkt.op = op && o.pkt.dstdev = p.srcdev && o.pkt.job = p.job && o.pkt.tag = p.tag && o.pkt.addr = p.addr
  { d with lnk := { d.lnk with outstanding := dropFirst hit d.lnk.outstanding } }

/-- BAMAT_RDATA: read data come back to the engine that asked for them (R241, R259, R273). -/
def execBamatRdata (pkt : BamatPkt) (s : State) : Out :=
  bamatRow pkt 3 s (fun d =>
    let d := d.answered 2 pkt
    match pkt.dstep with
    | 322 => d.gatherData pkt
    | 324 => d.auditData pkt
    | _ => d)

/-- BAMAT_ACK: a write is complete and visible at the peer (R273, R277). -/
def execBamatAck (pkt : BamatPkt) (s : State) : Out :=
  bamatRow pkt 4 s (fun d => if pkt.dstep = 321 then d.kvAcked pkt else d.answered 1 pkt)

/-- A SIGNAL or SRESET from another device on a sync object: refused with RANGE where the fabric refuses it (R97, R279). -/
def Dev.remoteSync (d : Dev) (p : BamatPkt) (op : SyncOp) (f : Dev → Nat → Dev) : Dev :=
  let o := p.addr % 2 ^ 14
  match d.bamatStatus p.job (!d.agentMay (.port 0 p.job) o op) with
  | some st => (if st = 3 then d.syncRefused else d).bamatRefuse p st
  | none => f d o

/-- BAMAT_SIGNAL: ARG is added to a sync object (R273). -/
def execBamatSignal (pkt : BamatPkt) (s : State) : Out :=
  bamatRow pkt 6 s (fun d => d.remoteSync pkt .signal (fun d o => d.syncSignal o pkt.arg))

/-- BAMAT_SRESET: a sync object becomes 0 (R273). -/
def execBamatSreset (pkt : BamatPkt) (s : State) : Out :=
  bamatRow pkt 7 s (fun d => d.remoteSync pkt .sreset (fun d o => d.syncReset o))

/-- NOTICE_RING: a notice names a segment that broke or came up again; a device to which it is news passes it on (R278). -/
def execNoticeRing (dim seg : Nat) (broken : Bool) (s : State) : Out :=
  onUnits [("dimension", 5, dim), ("segment", 8, seg)] s (fun d =>
    let d := d.arrivedTaken (fun p => p.op = 10 && p.arg = 5 + 256 * b2n broken && p.addr = 8 * dim + seg)
    if d.segBroken dim seg = broken then d else ((d.ringMark dim seg broken).ringNotice dim seg broken).parentFollow)

/-- REFUSE: the issuer of a refused operation acts (R280) (DEDUCED, log entry 80). -/
def execRefuse (pkt : BamatPkt) (s : State) : Out :=
  bamatRow pkt 11 s (fun d =>
    let d := d.answered (bits pkt.arg 15 8) pkt
    if pkt.dstep < 256 then d.tileStop pkt.dstep (.fault 0x0A31) [pkt.srcdev, pkt.arg % 256, d.portToward pkt.srcdev]
    else
      match pkt.dstep with
      | 321 => d.kvRefused pkt
      | 322 => d.abandonedJob pkt.job pkt.srcdev
      | 324 => d.auditRefused pkt
      | _ => d)

/-! ### Tempo (R284, R285) -/

/-- The estimated error from the master in ps: while the parent is lost it grows by 2 ppm. -/
def Dev.tempoError (d : Dev) : Nat :=
  d.lnk.tempoErr + (match d.lnk.holdAt with | some t => (d.now - t) / 500 | none => 0)

/-- Leaving ±10 ns raises EVT 0x0A21. -/
def Dev.unlockCheck (d : Dev) : Dev :=
  if d.lnk.locked && decide (10000 < d.tempoError) then
    let d := { d with lnk := { d.lnk with locked := false } }
    let d := if d.sync = 2 then d.setSync 0 else d
    d.raise { code := 0x0A21, unit := d.fld R.LNK_TEMPO_STAT F.LNK_TEMPO_STAT_PARENT }
  else d

/-- One tick of the tempo clock: 1 ns, what is left of a slew at 500 ppm, the classes of queues
that age, and the Ethernet ports whose pause ends (R285, R289, R338, DESIGN CHOICE and DEDUCED, log entries 1 and 30). -/
def Dev.idleTick (d : Dev) : Dev :=
  let r := d.lnk.tempoRem
  let one : Int := if 0 < r then 1 else if r < 0 then -1 else 0
  let acc := d.lnk.slewAcc + one
  let (ns, acc) : Nat × Int := if 2000 ≤ acc then (2, 0) else if acc ≤ -2000 then (0, 0) else (1, acc)
  let before := d.now
  let d := { d with now := d.now + ns, lnk := { d.lnk with tempoRem := r - one, slewAcc := acc } }
  let d := if d.agingDue before then d.pass else d
  let d := if d.lnk.ports.any (fun e => e.2.pausedUntil ≠ 0 && !e.2.txq.isEmpty) then d.pumpAll else d
  d.unlockCheck

/-- Tempo is set: what counts elapsed time counts up to the step and from it on, and no window lies beyond the tempo that is set
(R285, R286). -/
def Dev.tempoSet (d : Dev) (t : Nat) : Dev :=
  let d := (allClusters.foldl Dev.stressAccount d).urgentAccount
  let w := t / 40000000
  let same := d.fw.urgentWindow = w
  let d := { d with
    now := t
    marks := d.marks.map (fun e => (e.1, min e.2 (t / windowPeriod e.1.1)))
    pim := d.pim.map (fun e => (e.1, { e.2 with window := min e.2.window (t / 10000) }))
    fw := { d.fw with urgentWindow := w, urgentNs := if same then d.fw.urgentNs else 0, urgentMark := t }
    pwr := { d.pwr with clusters := d.pwr.clusters.map (fun e => (e.1, { e.2 with
      stressMark := t })) } }
  if same then d else (d.setFld R.MGT_SCHED F.MGT_SCHED_URGENT_USED 0).setFld R.MGT_SCHED F.MGT_SCHED_SPENT 0

/-- Tempo set by an offset in ps. -/
def Dev.tempoJump (d : Dev) (offset : Int) : Dev := d.tempoSet ((d.now : Int) + offset / 1000).toNat

/-- What a device does with its offset from its parent (R285): at the first exchange before its topology check has passed it
takes the parent's tempo; an offset of more than 10 µs ahead is a forward step, EVT 0x0A22; any other is slewed. -/
def Dev.tempoAdjust (d : Dev) (offset : Int) : Dev :=
  if d.fld R.LNK_CFG F.LNK_CFG_TOPO_OK = 0 && d.lnk.firstExchange = false then d.tempoJump offset
  else if decide (10000000 < offset) then
    ((d.tempoJump offset).satFld R.LNK_TEMPO_STAT F.LNK_TEMPO_STAT_STEPS 1).raise
      { code := 0x0A22, unit := d.fld R.LNK_TEMPO_STAT F.LNK_TEMPO_STAT_PARENT, args := [(offset / 1000).toNat] }
  else { d with lnk := { d.lnk with tempoRem := 2 * offset, slewAcc := 0 } }

/-- What it makes of its estimated error from the master: LOCKED within ±10 ns, EVT 0x0A20 on entering (R285). -/
def Dev.tempoJudge (d : Dev) (err : Nat) : Dev :=
  let told := d.lnk.locked && d.sync = 2
  let d := { d with lnk := { d.lnk with firstExchange := true, tempoErr := err, holdAt := none } }
  if err ≤ 10000 then
    let d := ({ d with lnk := { d.lnk with locked := true } } : Dev).setSync 2
    if told then d else d.raise { code := 0x0A20, unit := d.fld R.LNK_TEMPO_STAT F.LNK_TEMPO_STAT_PARENT }
  else
    let d := if d.sync = 3 then d.setSync 0 else d
    d.unlockCheck

/-- The offset of a peer from four stamps in ps: sent here, received there, sent there, received here (R284). -/
def stampOffset (x : Stamps) : Int := ((x.t2 - x.t1) + (x.t3 - x.t4)) / 2

/-- The delay of the link from the same stamps. -/
def stampDelay (x : Stamps) : Int := ((x.t4 - x.t1) - (x.t3 - x.t2)) / 2

/-- A port sends a TIME control flit with the stamp of its serialiser (R270, R284; the layout is the model's, log entry 23). -/
def Dev.sendTime (d : Dev) (k : Nat) : Dev :=
  d.updPort k (fun p =>
    let f := ctrlFlit p.txSeq (p.rxSeq + 16383) (leBytes 8 d.now)
    { p with
      time := some f, retry := p.retry ++ [(f, 0)], txSeq := (p.txSeq + 1) % 2 ^ 14
      ackAt := if p.retry.isEmpty then d.now else p.ackAt })

/-- TEMPO_EXCHANGE: a Bamat port and its peer have exchanged TIME flits with four stamps in ps, and the peer has told its error from the
master: the port's link delay and offset are measured; at the port toward the parent the device follows (R284, R285)
(DEDUCED, log entry 157). -/
def execTempoExchange (k : Nat) (stamps : Stamps) (err : Int) (s : State) : Out :=
  onUnit "port" 32 k s (fun d =>
    if d.portUsable k = false || d.portMode k ≠ 1 then d
    else
      let offset := stampOffset stamps
      let d := (d.sendTime k).updPort k (fun p => { p with delay := stampDelay stamps, offset := offset })
      if d.ownMaster || d.fld R.LNK_TEMPO_STAT F.LNK_TEMPO_STAT_PARENT ≠ k then d
      else
        let units : Int := offset / 125 % 65536
        let d := d.setFld R.LNK_TEMPO_STAT F.LNK_TEMPO_STAT_OFFSET units.toNat
        (d.tempoAdjust offset).tempoJudge err.natAbs)

/-! ### LINK_MAP (R277) -/

/-- The system device indices there are: within the dimensions. -/
def Dev.peerOk (d : Dev) (p : Nat) : Bool :=
  decide (p < 0x8000) && (List.range 5).all (fun k => decide (coordOf p k < max (d.dimSize k) 1))

/-- The first offset of the body at which a LINK_MAP fails; none where it holds. -/
def Dev.linkMapBad (d : Dev) (c : Nat) (x : Desc) : Option Nat :=
  let len := x.body 0x18 8
  let l := x.body 0x08 8
  let r := x.body 0x10 8
  let o := x.body 0x06 2
  let mine : Mirror → Bool := fun m => m.ctx = c && m.local_ = l
  if !(decide (1 ≤ x.body 0 1) && decide (x.body 0 1 ≤ 4)) then some 0
  else if x.body 1 1 ≠ 0 then some 1
  else if 4096 ≤ x.body 2 2 then some 2
  else if zeroAt x.raw 0x30 16 = false then some 0x20
  else
    match x.body 0 1 with
    | 1 =>
      if d.peerOk (x.body 4 2) = false then some 4
      else if len = 0 || len % 0x200000 ≠ 0 then some 0x18
      else if memSize < r + len then some 0x10
      else if d.owns c l len = false then some 0x08
      else if d.lnk.mirrors.any (fun e => decide (l < e.2.local_ + e.2.len) && decide (e.2.local_ < l + len)) then some 0x08
      else if 256 ≤ d.lnk.mirrors.length then some 0
      else none
    | 2 => if d.lnk.mirrors.any (fun e => mine e.2) then none else some 0x08
    | 3 =>
      if d.peerOk (x.body 4 2) = false then some 4
      else if decide (2 ^ 14 ≤ o) || d.syncOwned o c = false then some 6
      else if 2 ^ 14 ≤ r then some 0x10
      else if decide (4096 ≤ d.lnk.proxies.length) && (d.proxyOf o).isNone then some 0
      else none
    | _ => if d.lnk.proxies.any (fun e => e.2.obj = o && e.2.ctx = c) then none else some 6

/-- The lowest slot that a table does not use. -/
def freeSlot {α : Type} (l : List (Nat × α)) : Nat :=
  (lowest (l.length + 1) (fun i => (look i l).isNone)).getD l.length

/-- Add or remove the mirror or the proxy (DESIGN CHOICE, log entry 81). -/
def Dev.linkMap (d : Dev) (c : Nat) (x : Desc) : Dev :=
  let o := x.body 0x06 2
  let l := x.body 0x08 8
  match x.body 0 1 with
  | 1 =>
    let m : Mirror := { ctx := c, job := x.body 2 2, peer := x.body 4 2, local_ := l, remote := x.body 0x10 8, len := x.body 0x18 8 }
    { d with lnk := { d.lnk with mirrors := put (freeSlot d.lnk.mirrors) m d.lnk.mirrors } }
  | 2 => { d with lnk := { d.lnk with mirrors := d.lnk.mirrors.filter (fun e => !(e.2.ctx = c && e.2.local_ = l)) } }
  | 3 =>
    let p : Proxy := { obj := o, ctx := c, job := x.body 2 2, peer := x.body 4 2, remote := x.body 0x10 8 }
    let rest := d.lnk.proxies.filter (fun e => e.2.obj ≠ o)
    { d with lnk := { d.lnk with proxies := put (freeSlot rest) p rest } }
  | _ => { d with lnk := { d.lnk with proxies := d.lnk.proxies.filter (fun e => !(e.2.obj = o && e.2.ctx = c)) } }

/-- The checks of LINK_MAP: the first bad operand ends it with INVALID and EVT 0x0A40 (R277). -/
def Dev.linkMapCheck (d : Dev) (q : Nat) (x : Desc) : Checked :=
  match d.linkMapBad (d.queueCtx q) x with
  | some off => d.badDesc q x.n 0x0A40 (invalidAt 0x0A40 (0x10 + off))
  | none => (d, .inr [])

/-- A row of type LINK_MAP. A reserved OP is refused by whichever row meets it. -/
def linkMapRow (q op : Nat) (s : State) : Out :=
  onUnit "queue" 4096 q s (fun d => d.runHead q
    (fun x => x.typ = 21 && (x.body 0 1 = op || x.body 0 1 = 0 || decide (4 < x.body 0 1)))
    Dev.linkMapCheck
    (fun d q x => (d.linkMap (d.queueCtx q) x).complete q x.n stOk 0))

/-- MIRROR_ADD (R277). -/
def execMirrorAdd (q : Nat) (s : State) : Out := linkMapRow q 1 s

/-- MIRROR_DEL (R277). -/
def execMirrorDel (q : Nat) (s : State) : Out := linkMapRow q 2 s

/-- PROXY_ADD (R277). -/
def execProxyAdd (q : Nat) (s : State) : Out := linkMapRow q 3 s

/-- PROXY_DEL (R277). -/
def execProxyDel (q : Nat) (s : State) : Out := linkMapRow q 4 s

end Sys2Proof.Machine
end

