-- ==== Sys2Proof/Machine/Sm3.lean ====
section
/-! DEFINITION. The SM3 digest that containers, images, defect lists and reports carry (R87, R325, R402, R410). The spec names
SM3 without its rounds: they are those of GB/T 32905 (PRESUMED, log entry 17). SM2 signatures are free values. -/

namespace Sys2Proof.Machine

/-- Rotate left. -/
def rotl (x : BitVec 32) (n : Nat) : BitVec 32 := x.rotateLeft (n % 32)

/-- The permutation P0. -/
def sm3P0 (x : BitVec 32) : BitVec 32 := x ^^^ rotl x 9 ^^^ rotl x 17

/-- The permutation P1. -/
def sm3P1 (x : BitVec 32) : BitVec 32 := x ^^^ rotl x 15 ^^^ rotl x 23

/-- The word of four bytes, most significant first. -/
def beWord : List Byte → BitVec 32
  | [a, b, c, d] => a.setWidth 32 <<< 24 ||| b.setWidth 32 <<< 16 ||| c.setWidth 32 <<< 8 ||| d.setWidth 32
  | _ => 0

/-- The bytes of a word, most significant first. -/
def beBytes (w : BitVec 32) : List Byte :=
  [(w >>> 24).setWidth 8, (w >>> 16).setWidth 8, (w >>> 8).setWidth 8, w.setWidth 8]

/-- The 16 words of a block of 64 bytes. -/
def blockWords : (fuel : Nat) → List Byte → List (BitVec 32)
  | 0, _ => []
  | k + 1, bs => beWord (bs.take 4) :: blockWords k (bs.drop 4)

/-- Message expansion: words 16 to 67, newest first in the list. -/
def sm3Expand : (fuel : Nat) → List (BitVec 32) → List (BitVec 32)
  | 0, r => r
  | k + 1, r =>
    let w := sm3P1 (r.getD 15 0 ^^^ r.getD 8 0 ^^^ rotl (r.getD 2 0) 15) ^^^ rotl (r.getD 12 0) 7 ^^^ r.getD 5 0
    sm3Expand k (w :: r)

/-- The eight registers of the compression function. -/
structure Sm3Regs where
  a : BitVec 32
  b : BitVec 32
  c : BitVec 32
  d : BitVec 32
  e : BitVec 32
  f : BitVec 32
  g : BitVec 32
  h : BitVec 32
  deriving DecidableEq, Repr

/-- One round j with the words W[j] and W[j + 4]. -/
def sm3Round (j : Nat) (w w4 : BitVec 32) (v : Sm3Regs) : Sm3Regs :=
  let t : BitVec 32 := if j < 16 then 0x79CC4519 else 0x7A879D8A
  let ss1 := rotl (rotl v.a 12 + v.e + rotl t j) 7
  let ss2 := ss1 ^^^ rotl v.a 12
  let ff := if j < 16 then v.a ^^^ v.b ^^^ v.c else (v.a &&& v.b) ||| (v.a &&& v.c) ||| (v.b &&& v.c)
  let gg := if j < 16 then v.e ^^^ v.f ^^^ v.g else (v.e &&& v.f) ||| (~~~ v.e &&& v.g)
  let t1 := ff + v.d + ss2 + (w ^^^ w4)
  let t2 := gg + v.h + ss1 + w
  ⟨t1, v.a, rotl v.b 9, v.c, sm3P0 t2, v.e, rotl v.f 19, v.g⟩

/-- The rounds from j on over the expanded words. -/
def sm3Rounds : (fuel j : Nat) → List (BitVec 32) → Sm3Regs → Sm3Regs
  | 0, _, _, v => v
  | k + 1, j, ws, v => sm3Rounds k (j + 1) (ws.drop 1) (sm3Round j (ws.headD 0) (ws.getD 4 0) v)

/-- One block. -/
def sm3Block (v : Sm3Regs) (bs : List Byte) : Sm3Regs :=
  let ws := (sm3Expand 52 (blockWords 16 bs).reverse).reverse
  let r := sm3Rounds 64 0 ws v
  ⟨r.a ^^^ v.a, r.b ^^^ v.b, r.c ^^^ v.c, r.d ^^^ v.d, r.e ^^^ v.e, r.f ^^^ v.f, r.g ^^^ v.g, r.h ^^^ v.h⟩

/-- The blocks of a padded message. -/
def sm3Blocks : (fuel : Nat) → Sm3Regs → List Byte → Sm3Regs
  | 0, v, _ => v
  | k + 1, v, bs => if bs.isEmpty then v else sm3Blocks k (sm3Block v (bs.take 64)) (bs.drop 64)

/-- The initial value. -/
def sm3Iv : Sm3Regs :=
  ⟨0x7380166F, 0x4914B2B9, 0x172442D7, 0xDA8A0600, 0xA96F30BC, 0x163138AA, 0xE38DEE4D, 0xB0FB0E4E⟩

/-- The SM3 digest of a message: 32 bytes. -/
def sm3 (m : List Byte) : List Byte :=
  let pad := (119 - m.length % 64) % 64
  let p := m ++ [0x80] ++ List.replicate pad (0 : Byte) ++ (leBytes 8 (m.length * 8)).reverse
  let v := sm3Blocks (p.length / 64 + 1) sm3Iv p
  [v.a, v.b, v.c, v.d, v.e, v.f, v.g, v.h].flatMap beBytes

end Sys2Proof.Machine
end

