-- ==== Sys2Proof/Machine/Pipeline.lean ====
section
/-! DEFINITION. Containers, pipeline descriptors and their binding (R72, R78, R87 to R89, R92, R99 to R102, R117, R202), and
the rows PIPELINE, PIPE_BOUND and PIPE_DONE. -/

namespace Sys2Proof.Machine

/-! ### Containers (R87, R88) -/

/-- A section of a container. -/
structure Section where
  typ : Nat
  off : Nat
  len : Nat
  load : Nat
  deriving DecidableEq, Repr

/-- NSECT. -/
def cNsect (c : List Byte) : Nat := natAt c 8 2

/-- The section table (R87). -/
def sections (c : List Byte) : List Section :=
  (List.range (cNsect c)).map (fun i =>
    let b := 0x40 + 16 * i
    ⟨natAt c b 2, natAt c (b + 4) 4, natAt c (b + 8) 4, natAt c (b + 12) 4⟩)

/-- The bytes of a section. -/
def sectionBytes (c : List Byte) (s : Section) : List Byte := bytesAt c s.off s.len

/-- The bytes of the section of a type; none is empty. -/
def typedBytes (c : List Byte) (typ : Nat) : List Byte :=
  match (sections c).find? (fun s => s.typ = typ) with
  | some s => sectionBytes c s
  | none => []

/-- The numbers of `w` bytes that a run of bytes holds. -/
def numbers (w : Nat) (b : List Byte) : List Nat := (List.range (b.length / w)).map (fun i => natAt b (w * i) w)

/-- The bundles. -/
def cCode (c : List Byte) : List Nat := numbers 16 (typedBytes c 1)

/-- The operand descriptors. -/
def cOperands (c : List Byte) : List Operand :=
  (List.range ((typedBytes c 2).length / 32)).map (fun i => parseOperand (bytesAt (typedBytes c 2) (32 * i) 32))

/-- The constants. -/
def cConsts (c : List Byte) : List Word := (numbers 8 (typedBytes c 3)).map (BitVec.ofNat 64)

/-- The port declarations. -/
def cPorts (c : List Byte) : List Port :=
  (numbers 8 (typedBytes c 6)).map (fun n => ⟨n % 256, n / 256 % 256 = 1, n / 2 ^ 16 % 2 ^ 16, n / 2 ^ 32, none⟩)

/-- The handles a container uses. -/
def cHandles (c : List Byte) : List Nat := (typedBytes c 7).map BitVec.toNat

/-- The DATA sections as (SRAM offset, bytes). -/
def cData (c : List Byte) : List (Nat × List Byte) :=
  ((sections c).filter (fun s => s.typ = 4)).map (fun s => (s.load, sectionBytes c s))

/-- Two runs that do not overlap. -/
def apart (a la b lb : Nat) : Bool := decide (a + la ≤ b) || decide (b + lb ≤ a)

/-- No two sections overlap. -/
def sectionsApart : List Section → Bool
  | [] => true
  | s :: r => r.all (fun x => apart s.off s.len x.off x.len) && sectionsApart r

/-- The digest with its own field taken as zeros (R87). -/
def containerDigest (c : List Byte) : List Byte := sm3 (c.take 0x20 ++ List.replicate 32 (0 : Byte) ++ c.drop 0x40)

/-- The header and the section bounds (R87, R89 check 1). -/
def headerOk (c : List Byte) : Bool :=
  decide (0x40 ≤ c.length) && natAt c 0 4 = 0x584E4759 && natAt c 4 2 = 1 && decide (natAt c 6 2 < 2) &&
    decide (1 ≤ cNsect c) && decide (cNsect c ≤ 16) && decide (112 ≤ natAt c 0x0A 1) && decide (natAt c 0x0A 1 ≤ 128) &&
    zeroAt c 0x0B 1 && natAt c 0x0C 4 = c.length && decide (c.length ≤ 16777216) && zeroAt c 0x14 12 &&
    (sections c).all (fun s => decide (1 ≤ s.typ) && decide (s.typ ≤ 7) && decide (0x40 + 16 * cNsect c ≤ s.off) &&
      decide (s.off + s.len ≤ c.length)) &&
    sectionsApart (sections c) &&
    ([1, 2, 3, 5, 6, 7] : List Nat).all (fun k => decide (((sections c).filter (fun s => s.typ = k)).length ≤ 1)) &&
    decide ((typedBytes c 1).length % 16 = 0) && decide ((cCode c).length ≤ 8192) && decide (natAt c 0x10 4 < (cCode c).length) &&
    (typedBytes c 2).length % 32 = 0 && decide ((cOperands c).length ≤ 256) && (typedBytes c 3).length % 8 = 0 &&
    decide ((cConsts c).length ≤ 256) && (typedBytes c 5).length % 8 = 0 && (typedBytes c 6).length % 8 = 0 &&
    (cData c).all (fun e => sramIn e.1 e.2.length)

/-- A bundle holds no reserved opcode and no reserved bit (R82, R89). -/
def bundleOk (b : Nat) : Bool :=
  let sy := slotWord b 5
  decide (slotOp b 1 ≤ 6) && !(slotWord b 1).testBit 27 && decide (slotOp b 2 ≤ 29) && slotWord b 2 / 2 ^ 26 = 0 &&
    decide (slotOp b 0 ≤ 6) && decide (slotOp b 3 ≤ 2) && decide (slotOp b 4 ≤ 4) && !(slotWord b 4).testBit 15 &&
    decide (slotOp b 5 ≤ 11) && !(([8, 9, 10] : List Nat).contains (slotOp b 5) && decide (sy / 2 ^ 22 ≠ 0))

/-- A branch of bundle i goes to a bundle of CODE (R89). -/
def branchOk (n i b : Nat) : Bool :=
  if ([4, 5, 6] : List Nat).contains (slotOp b 5) then
    let t : Int := (i : Int) + syncImm (slotWord b 5)
    decide (0 ≤ t) && decide (t < (n : Int))
  else true

/-- The G register that the sync slot writes. -/
def syncWrites (b : Nat) : Option Nat :=
  let w := slotWord b 5
  match slotOp b 5 with
  | 1 => some (bits w 8 4) | 2 => some (bits w 8 4) | 3 => some (bits w 8 4) | 7 => some (bits w 8 4)
  | 4 => some (bits w 13 9)
  | _ => none

/-- No bundle writes one G register from two slots (R89). -/
def writesOnce (b : Nat) : Bool :=
  if slotOp b 0 = 2 || slotOp b 0 = 3 then syncWrites b ≠ some (bits (slotWord b 0) 15 11) else true

/-- Every operand, constant, handle and port that a bundle names is declared (R89). -/
def namesOk (c : List Byte) (bound : List Nat) (b : Nat) : Bool :=
  let nop := (cOperands c).length
  let opd : Nat → Bool := fun i => decide (i < nop)
  let a := slotOp b 1
  let l := slotOp b 0
  let st := slotOp b 4
  (a = 0 || a = 5 || opd (bits (slotWord b 1) 13 6)) &&
    (l = 0 || (if l = 3 then decide (bits (slotWord b 0) 10 3 < (cConsts c).length) else opd (bits (slotWord b 0) 10 3))) &&
    (slotOp b 3 = 0 || opd (bits (slotWord b 3) 10 3)) &&
    (st = 0 || (cPorts c).any (fun p => p.num = bits (slotWord b 4) 6 3 && p.out = (st = 1 || st = 3))) &&
    (!(st = 3 || st = 4) || opd (bits (slotWord b 4) 14 7)) &&
    (!([8, 9, 10] : List Nat).contains (slotOp b 5) ||
      ((cHandles c).contains (bits (slotWord b 5) 21 14) && bound.contains (bits (slotWord b 5) 21 14)))

/-- Port declarations: no number twice, directions, lines, buffers inside SRAM and clear of DATA (R87, R89). -/
def portsOk (c : List Byte) : Bool :=
  decide ((cPorts c).length ≤ 16) && ((cPorts c).map (fun p => p.num)).eraseDups.length = (cPorts c).length &&
    (numbers 8 (typedBytes c 6)).all (fun n => decide (n / 256 % 256 < 2)) &&
    (cPorts c).all (fun p => decide (p.num < 16) &&
      if p.out then p.lines = 0 && p.buf = 0
      else decide (8 ≤ p.lines) && decide (p.lines ≤ 16384) && sramIn p.buf (p.lines * 128) &&
        (cData c).all (fun e => apart p.buf (p.lines * 128) e.1 e.2.length))

/-- A relocation entry: SECT, KIND, ARG, OFFSET (R88). -/
structure Reloc where
  sect : Nat
  kind : Nat
  arg : Nat
  off : Nat
  deriving DecidableEq, Repr

/-- The relocation entries. -/
def cRelocs (c : List Byte) : List Reloc :=
  (List.range ((typedBytes c 5).length / 8)).map (fun i =>
    let b := bytesAt (typedBytes c 5) (8 * i) 8
    ⟨natAt b 0 1, natAt b 1 1, natAt b 2 1, natAt b 4 4⟩)

/-- Relocation entries keep their ranges, with their reserved byte at 0 (R88). -/
def relocsOk (c : List Byte) : Bool :=
  (List.range ((typedBytes c 5).length / 8)).all (fun i => natAt (typedBytes c 5) (8 * i + 3) 1 = 0) &&
  (cRelocs c).all (fun r =>
    match (sections c)[r.sect]? with
    | none => false
    | some s => decide (r.off + 8 ≤ s.len) && decide (1 ≤ r.kind) && decide (r.kind ≤ 3) &&
        (r.kind ≠ 2 || (decide (1 ≤ r.arg) && decide (r.arg ≤ 5))))

/-- Put bytes at an offset. -/
def patch (c : List Byte) (off : Nat) (b : List Byte) : List Byte := c.take off ++ b ++ c.drop (off + b.length)

/-- One relocation for a tile: its slice base, an argument register or its index is added (R88). -/
def relocate1 (tile index : Nat) (args : List Nat) (c : List Byte) (r : Reloc) : List Byte :=
  match (sections c)[r.sect]? with
  | none => c
  | some s =>
    let at_ := s.off + r.off
    let v := match r.kind with
      | 1 => tile * gib
      | 2 => args.getD (r.arg - 1) 0
      | _ => index * 2 ^ r.arg
    patch c at_ (leBytes 8 (natAt c at_ 8 + v))

/-- A container relocated for one tile. -/
def relocated (tile index : Nat) (args : List Nat) (c : List Byte) : List Byte :=
  (cRelocs c).foldl (relocate1 tile index args) c

/-! ### Pipeline descriptors (R99) -/

/-- NSTAGE. -/
def pStages (t : List Byte) : Nat := natAt t 2 1
/-- NSTREAM. -/
def pStreams (t : List Byte) : Nat := natAt t 3 1
/-- NSYNC. -/
def pSyncs (t : List Byte) : Nat := natAt t 4 2
/-- JOB. -/
def pJob (t : List Byte) : Nat := natAt t 6 2
/-- The bytes of the descriptor itself. -/
def pLen (t : List Byte) : Nat := 32 + 64 * pStages t + 16 * pStreams t + 8 * pSyncs t

/-- A stage entry. -/
def pStage (t : List Byte) (i : Nat) : List Byte := bytesAt t (32 + 64 * i) 64
/-- A stream entry. -/
def pStream (t : List Byte) (i : Nat) : List Byte := bytesAt t (32 + 64 * pStages t + 16 * i) 16
/-- A sync entry. -/
def pSync (t : List Byte) (i : Nat) : List Byte := bytesAt t (32 + 64 * pStages t + 16 * pStreams t + 8 * i) 8

/-- TILES of a stage. -/
def stageTiles (t : List Byte) (i : Nat) : Nat := natAt (pStage t i) 0x0C 2

/-- The container of stage i in the table read at submission: containers follow the descriptor in stage order. -/
def pContainer (t : List Byte) (i : Nat) : List Byte :=
  let off := pLen t + ((List.range i).map (fun j => natAt (pStage t j) 8 4)).foldl (· + ·) 0
  bytesAt t off (natAt (pStage t i) 8 4)

/-- The handles a pipeline binds: number, object, timeout in µs. -/
def pHandles (t : List Byte) : List (Nat × Nat × Nat) :=
  (List.range (pSyncs t)).map (fun i => let e := pSync t i; (natAt e 2 1, natAt e 0 2 % 2 ^ 14, natAt e 4 4))

/-- The producers' share of the buffer of a stream: lines each (R92, R202). -/
def streamShare (t e : List Byte) : Nat :=
  let src := natAt e 0 1
  let n := stageTiles t src
  if natAt e 2 1 = 0xFF then 4096 / n
  else
    let p := (cPorts (pContainer t (natAt e 2 1))).find? (fun p => p.num = natAt e 3 1 && !p.out)
    let lines := match p with | some p => p.lines | none => 0
    if natAt e 4 1 = 1 then lines / n else lines

/-- Every message that a stage sends on a stream's port fits its share (R89). -/
def sendsFit (t e : List Byte) : Bool :=
  let c := pContainer t (natAt e 0 1)
  let ops := cOperands c
  (cCode c).all (fun b =>
    let w := slotWord b 4
    let bytes := if slotOp b 4 = 1 then 512 else
      let o := ops.getD (bits w 14 7) (parseOperand []); o.rows * o.rowBytes
    if (slotOp b 4 = 1 || slotOp b 4 = 3) && tPort w = natAt e 1 1 then decide (lineCount bytes ≤ streamShare t e) else true)

/-- A stream entry: stages in order, declared ports, shape (R91, R99). -/
def streamOk (t e : List Byte) : Bool :=
  let src := natAt e 0 1
  let dst := natAt e 2 1
  decide (src < pStages t) && decide (natAt e 4 1 < 2) && zeroAt e 5 11 &&
    (cPorts (pContainer t src)).any (fun p => p.num = natAt e 1 1 && p.out) &&
    (dst = 0xFF ||
      (decide (src < dst) && decide (dst < pStages t) &&
        (natAt e 4 1 = 1 || stageTiles t src = stageTiles t dst) &&
        (cPorts (pContainer t dst)).any (fun p => p.num = natAt e 3 1 && !p.out)))

/-- The checks of R89 in order, each with its number, for the descriptor (stage 0xFF) and for each stage (DESIGN CHOICE, log
entry 50). -/
def bindingChecks (t : List Byte) (plen : Nat) : List (Nat × Nat × Bool) :=
  let desc : List (Nat × Nat × Bool) :=
    [(0xFF, 1, natAt t 0 2 = 1 && decide (1 ≤ pStages t) && decide (pStages t ≤ 64) && decide (pSyncs t ≤ 256) &&
        decide (pJob t < 4096) && zeroAt t 8 4 && zeroAt t 0x10 16 && decide (natAt t 0x0C 4 ≤ 60000000) && decide (pLen t ≤ plen)),
     (0xFF, 2, (List.range (pStages t)).all (fun i => let e := pStage t i
        decide (1 ≤ natAt e 0x0C 2) && decide (natAt e 0x0C 2 ≤ 256) && decide (natAt e 0x0E 2 < 2) && zeroAt e 0x12 6)),
     (0xFF, 3, (List.range (pSyncs t)).all (fun i => let e := pSync t i
        decide (natAt e 0 2 < 16384) && zeroAt e 3 1 && decide (1 ≤ natAt e 4 4) && decide (natAt e 4 4 ≤ 60000000)))]
  let stages := (List.range (pStages t)).flatMap (fun i =>
    let c := pContainer t i
    let bound := (pHandles t).map (·.1)
    [(i, 4, headerOk c),
     (i, 5, natAt c 6 2 = 0 || containerDigest c = bytesAt c 0x20 32),
     (i, 6, (cCode c).all bundleOk),
     (i, 7, ((List.range (cCode c).length).zip (cCode c)).all (fun e => branchOk (cCode c).length e.1 e.2)),
     (i, 8, (cCode c).all writesOnce),
     (i, 9, (cCode c).all (namesOk c bound) && relocsOk c),
     (i, 10, portsOk c)])
  let streams := (List.range (pStreams t)).flatMap (fun i =>
    let e := pStream t i
    [(natAt e 0 1, 11, streamOk t e), (natAt e 0 1, 12, sendsFit t e)])
  desc ++ stages ++ streams

/-! ### Binding (R72, R78, R99 to R101) -/

/-- A tile bound to a stage: cleared if it last served another context, loaded, its registers set (R72, R78). -/
def boundTile (x : Tile) (pid ctx index entry : Nat) (c : List Byte) (args : List Nat)
    (handles : List (Nat × Nat × Nat)) (sids : List (Nat × Bool × Nat)) : Tile :=
  let keep := x.lastCtx = some ctx
  let base := if keep then x else { Tile.blank with ceTimes := x.ceTimes }
  let ports := (cPorts c).map (fun p =>
    { p with sid := (sids.find? (fun e => e.1 = p.num && e.2.1 = p.out)).map (fun e => e.2.2) })
  let y : Tile := { base with
    pipe := some pid, index := index, seq := .ready, pc := entry, slot := 0, gwrites := [], branch := none, halting := false,
    code := cCode c, opds := cOperands c, consts := cConsts c, handles := handles, ports := ports, inbox := [], rounds := [],
    discarded := [], g := (0 : Word) :: (args.map (BitVec.ofNat 64)) ++ List.replicate 26 0,
    setA := { base.setA with loaded := false }, setB := { base.setB with loaded := false }, latbuf := base.latbuf }
  (cData c).foldl (fun z e => z.sramPut e.1 e.2) y

/-- The lowest free stream numbers (DESIGN CHOICE, log entry 53). -/
def Dev.freeStreams (d : Dev) (n : Nat) : List Nat :=
  ((List.range 4096).filter (fun i => (look i d.streams).isNone)).take n

/-- The lowest free multicast groups (R117). -/
def Dev.freeGroups (d : Dev) (n : Nat) : List Nat :=
  ((List.range 1024).filter (fun i => (look i d.noc.groups).isNone)).take n

/-- Whether a sampler slot holds a stream (R202). -/
def Dev.slotBound (d : Dev) (slot : Nat) : Bool :=
  match look (slot / 16) d.smp with
  | some x => (look (slot % 16) x.slots).isSome
  | none => false

/-- The streams of a pipeline: (stream number, entry, group), groups given to BROADCAST streams in order (R117). -/
def giveGroups : List (Nat × List Byte) → List Nat → List (Nat × List Byte × Option Nat)
  | [], _ => []
  | (sid, e) :: r, gs =>
    if natAt e 4 1 = 1 && natAt e 2 1 ≠ 0xFF then (sid, e, gs.head?) :: giveGroups r (gs.drop 1)
    else (sid, e, none) :: giveGroups r gs

/-- The stream of an entry over the tiles of its stages (R90 to R92). -/
def makeStream (t : List Byte) (pid : Nat) (tiles : List (List Nat)) (e : List Byte) (g : Option Nat) : Stream :=
  let prods := tiles.getD (natAt e 0 1) []
  let toSampler := natAt e 2 1 = 0xFF
  let conss := if toSampler then [natAt e 3 1] else tiles.getD (natAt e 2 1) []
  let share := streamShare t e
  let bc := natAt e 4 1 = 1
  let pairs := if toSampler || bc then prods.flatMap (fun p => conss.map (fun c => ((p, c), share)))
    else (prods.zip conss).map (fun pc => (pc, share))
  { pipe := pid, srcPort := natAt e 1 1, dstPort := natAt e 3 1, prods := prods, conss := conss, broadcast := bc,
    sampler := if toSampler then some (natAt e 3 1 / 16) else none, share := share, credits := pairs, flight := [],
    returning := [], group := g }

/-- The stream numbers of a stage's ports: (port, output, stream). -/
def stagePorts (i : Nat) (ss : List (Nat × List Byte × Option Nat)) : List (Nat × Bool × Nat) :=
  ss.flatMap (fun s =>
    (if natAt s.2.1 0 1 = i then [(natAt s.2.1 1 1, true, s.1)] else []) ++
    (if natAt s.2.1 2 1 = i then [(natAt s.2.1 3 1, false, s.1)] else []))

/-- Bind one tile. -/
def Dev.bindTile (d : Dev) (t : List Byte) (pid ctx stage index tile : Nat) (ss : List (Nat × List Byte × Option Nat)) : Dev :=
  let e := pStage t stage
  let args := (List.range 5).map (fun k => natAt e (0x18 + 8 * k) 8)
  let c := relocated tile index args (pContainer t stage)
  let d := d.updTile tile (fun x =>
    boundTile x pid ctx index (natAt c 0x10 4) c args (pHandles t) (stagePorts stage ss))
  let d := d.clusterBound (tile / 16)
  let d := (d.setFld (R.TIL_STATE tile) F.TIL_STATE_STATE 2).setFld (R.TIL_STATE tile) F.TIL_STATE_CTX ctx
  (d.setFld (R.TIL_STATE tile) F.TIL_STATE_JOB (pJob t)).setFld (R.TIL_STATE tile) F.TIL_STATE_STAGE stage

/-- Bind the tiles of one stage. -/
def Dev.bindStage (d : Dev) (t : List Byte) (pid ctx stage : Nat) (tiles : List Nat)
    (ss : List (Nat × List Byte × Option Nat)) : Dev :=
  ((List.range tiles.length).zip tiles).foldl (fun d e => d.bindTile t pid ctx stage e.1 e.2 ss) d

/-- STREAM_TIMEOUT in ns: 0 selects 100 ms (R93, R99). -/
def pipeTimeout (t : List Byte) : Nat := (if natAt t 0x0C 4 = 0 then 100000 else natAt t 0x0C 4) * 1000

/-- Bind a sampler slot to a stream (R202). -/
def Dev.bindSlot (d : Dev) (t : List Byte) (pid ctx : Nat) (s : Nat × List Byte × Option Nat) : Dev :=
  if natAt s.2.1 2 1 ≠ 0xFF then d
  else
    let slot := natAt s.2.1 3 1
    let n := slot / 16
    let sl : Slot := {
      sid := s.1, pipe := pid, ctx := ctx, job := pJob t, prods := stageTiles t (natAt s.2.1 0 1), msgs := [],
      lastMsg := d.now, timeout := pipeTimeout t, ended := false }
    let x := (look n d.smp).getD { slots := [], cmds := [] }
    let d := { d with smp := put n { x with slots := put (slot % 16) sl x.slots } d.smp }
    let d := (d.setFld (R.SMP_STAT n) F.SMP_STAT_CTX ctx).setFld (R.SMP_STAT n) F.SMP_STAT_JOB (pJob t)
    d.showSlots n

/-- The checks of a pipeline descriptor and of what it needs (R89, R99, R100, R117, R202). -/
def Dev.pipelineCheck (d : Dev) (q : Nat) (x : Desc) : Checked :=
  let t := x.table
  if (d.freeStreams (pStreams t)).length < pStreams t then (d, .inl (stNoResource, 0))
  else
  match (bindingChecks t (x.body 8 4)).find? (fun c => !c.2.2) with
  | some (stage, num, _) =>
    (d.raise { d.descEvent 0x0210 q x.n with job := pJob t % 4096, args := [stage, num] }, .inl (stInvalid, invalidTable 0x0210))
  | none =>
    let needs := stageNeeds t
    let bc := ((List.range (pStreams t)).filter (fun i => natAt (pStream t i) 4 1 = 1 && natAt (pStream t i) 2 1 ≠ 0xFF)).length
    let slots := ((List.range (pStreams t)).filter (fun i => natAt (pStream t i) 2 1 = 0xFF)).map (fun i => natAt (pStream t i) 3 1)
    if x.tiles.isEmpty then
      if d.cacheMode && (d.place false t needs allTiles).isSome then
        (d.raise (d.descEvent 0x0B16 q x.n), .inl (stNotAdmitted, 0))
      else (d, .inl (stInvalid, invalidTable 0))
    else if x.tiles.flatten.any (fun k => d.fld (R.TIL_STATE k) F.TIL_STATE_STATE ≠ 1 || (d.tile k).pipe.isSome) then
      (d, .inl (stBusy, 0))
    else if (d.freeGroups bc).length < bc then (d.raise { d.descEvent 0x0330 q x.n with job := pJob t }, .inl (stBusy, 0))
    else if slots.any d.slotBound then (d, .inl (stBusy, 0))
    else (d, .inr t)

/-- The stages are bound: tiles cleared and loaded, streams and slots set (R99 to R101). -/
def Dev.pipelineBind (d : Dev) (q : Nat) (x : Desc) : Dev :=
  let t := x.table
  let ctx := d.queueCtx q
  let pid := ((List.range 4096).find? (fun i => (look i d.pipes).isNone)).getD 4096
  let sids := d.freeStreams (pStreams t)
  let ss := giveGroups (sids.zip ((List.range (pStreams t)).map (pStream t))) (d.freeGroups 255)
  let stages := ((List.range (pStages t)).zip x.tiles).map (fun e => (⟨e.2, (natAt (pStage t e.1) 0x0E 2).testBit 0⟩ : Stage))
  let p : Pipe := {
    q := q, n := x.n, ctx := ctx, job := pJob t, stages := stages,
    timeout := pipeTimeout t, released := false, ending := none }
  let d := { d.urgentAccount with pipes := put pid p d.pipes }
  let d := ss.foldl (fun d s => { d with streams := put s.1 (makeStream t pid x.tiles s.2.1 s.2.2) d.streams }) d
  let d := ss.foldl (fun d s =>
    match s.2.2 with
    | some g =>
      let members := x.tiles.getD (natAt s.2.1 2 1) []
      ({ d with noc := { d.noc with groups := put g members d.noc.groups } } : Dev).setReg (R.NOC_MCAST g)
        (BitVec.ofNat 64 (1 + pJob t * 2 ^ 4 + s.1 * 2 ^ 16 + members.length * 2 ^ 28))
    | none => d) d
  let d := ss.foldl (fun d s => d.bindSlot t pid ctx s) d
  ((List.range (pStages t)).zip x.tiles).foldl (fun d e => d.bindStage t pid ctx e.1 e.2 ss) d

/-- PIPELINE: the pipeline descriptor at the head of queue q is checked and its stages are bound (R89, R99, R100). -/
def execPipeline (q : Nat) (s : State) : Out :=
  onUnit "queue" 4096 q s (fun d =>
    d.runHead q (fun x => x.typ = 13) Dev.pipelineCheck Dev.pipelineBind)

/-- PIPE_BOUND: once every tile is bound, cleared and loaded, all of them are released in one cycle (R101). -/
def execPipeBound (p : Nat) (s : State) : Out :=
  onUnit "pipeline" 4096 p s (fun d =>
    match look p d.pipes with
    | none => d
    | some x =>
      if x.released || x.ending.isSome then d
      else
        let d := { d with pipes := put p { x with released := true } d.pipes }
        let d := x.tiles.foldl (fun d t => d.updTile t (fun y =>
          Tile.settle (y.code.length + 2) { y with seq := .run })) d
        d.raise { code := 0x0220, fn := d.ctxFn x.ctx, ctx := x.ctx, job := x.job, args := [x.q] })

/-- PIPE_DONE: every tile has passed HALT: the record is written, the tiles return to IDLE, EVT 0x0221 (R101). -/
def execPipeDone (p : Nat) (s : State) : Out :=
  onUnit "pipeline" 4096 p s (fun d =>
    match look p d.pipes with
    | none => d
    | some x =>
      if x.released && x.ending.isNone && x.tiles.all (fun t => (d.tile t).seq == .done && (d.tile t).latwait.isEmpty && d.tileAcked t) then
        let d := d.endPipe p stOk 0
        d.raise { code := 0x0221, fn := d.ctxFn x.ctx, ctx := x.ctx, job := x.job, args := [x.q] }
      else d)

end Sys2Proof.Machine
end

