-- ==== Sys2Proof/Machine/Rings.lean ====
section
/-! DEFINITION. Rings and doorbells, the admin queue, descriptor fetch with the checks that come first (R295, R296, R302 to R306,
R309, R321), the heartbeat and orphan mode (R294, R316 to R319). -/

namespace Sys2Proof.Machine

/-! ### Functions (R296, R299, R300) -/

/-- A function that nothing has touched. -/
def Fn.blank : Fn :=
  { hbLast := 0, hbLate := false, orphan := false, reason := 0, entry := 0, adminLost := 0, entries := [],
    enabledAnew := false }

/-- A function. -/
def Dev.fn (d : Dev) (f : Nat) : Fn := (look f d.fns).getD Fn.blank

/-- Change a function. -/
def Dev.updFn (d : Dev) (f : Nat) (g : Fn → Fn) : Dev := { d with fns := put f (g (d.fn f)) d.fns }

/-- The work queues of a function. -/
def Dev.fnQueues (d : Dev) (f : Nat) : List Nat := (d.queues.filter (fun e => !isAdmin e.1 && e.2.fn = f)).map (·.1)

/-- The contexts of a function in index order (R298). -/
def Dev.fnCtxs (d : Dev) (f : Nat) : List Nat :=
  sortBy (fun a b => decide (a < b)) ((d.ctxs.filter (fun e => e.2.fn = f)).map (·.1))

/-- HIF_FN_STAT shows what a function holds. -/
def Dev.fnShow (d : Dev) (f : Nat) : Dev :=
  (d.setFld (R.HIF_FN_STAT f) F.HIF_FN_STAT_CTXS (d.fnCtxs f).length).setFld (R.HIF_FN_STAT f) F.HIF_FN_STAT_QUEUES (d.fnQueues f).length

/-- Whether the admin queue of a function is enabled. -/
def Dev.adminOn (d : Dev) (f : Nat) : Bool := d.fld (R.HIF_ADMQ_CFG f) F.HIF_ADMQ_CFG_ENABLE = 1

/-- Whether the heartbeat watch of a function runs (R316). -/
def Dev.hbArmed (d : Dev) (f : Nat) : Bool := d.fld (R.HIF_FN_STAT f) F.HIF_FN_STAT_HB_ARMED = 1

/-- An access that a function makes through one of its BARs: there is a link, and the function exists (R294, R296). -/
def fnRow (fn : Nat) (s : State) (f : Dev → Dev) : Out :=
  onUnit "function" 64 fn s (fun d => if d.host.linkUp && d.fnExists fn then f d else d)

/-! ### Doorbells (R303) -/

/-- A queue number of a writer's doorbell page: the global number for the PF, the local index for a VF (R296). -/
def Dev.pageQueue (d : Dev) (fn page : Nat) : Option Nat :=
  (d.queues.find? (fun e => !isAdmin e.1 && e.2.fn = fn && (if fn = 0 then e.1 = page else e.2.loc = page))).map (·.1)

/-- Whether a queue still keeps its function in orphan mode (R319). -/
def Queue.keepsOrphan (x : Queue) : Bool := x.state = .orphaned || (x.state = .resigning && x.resignAtOrphan)

/-- A function leaves orphan mode once its admin queue is enabled anew and every queue has been handled: EVT 0x0B32 (R319). -/
def Dev.orphanExit (d : Dev) (f : Nat) : Dev :=
  let x := d.fn f
  if x.orphan && x.enabledAnew && d.adminOn f && (d.queues.all (fun e => isAdmin e.1 || e.2.fn ≠ f || !e.2.keepsOrphan)) then
    let d := d.updFn f (fun x => { x with orphan := false, enabledAnew := false })
    let d := (d.setFld (R.HIF_FN_STAT f) F.HIF_FN_STAT_ORPHAN 0).setFld (R.HIF_FN_STAT f) F.HIF_FN_STAT_REASON 0
    d.raise { code := 0x0B32, fn := f }
  else d

/-- A doorbell that is out of range is refused and puts the queue in ERROR; BADDOOR counts every refused doorbell (R303,
R321). -/
def Dev.doorError (d : Dev) (q : Nat) : Dev :=
  (((d.queueError q).satFld R.HIF_ERR F.HIF_ERR_BADDOOR 1).raise
    { code := 0x0B10, fn := d.queueFn q, ctx := d.queueCtx q, args := [q] }).orphanExit (d.queueFn q)

/-- Whether TAIL may become t (R303). -/
def tailOk (x : Queue) (t : Nat) : Bool :=
  let sum := sub32 t x.tail + sub32 x.tail x.fetch
  decide (sub32 t x.fetch ≤ sum) && decide (sum ≤ 2 ^ x.log2) && decide (sub32 t x.head ≤ 2 ^ x.log2)

/-- Whether HEAD may become h (R303). -/
def headOk (x : Queue) (h : Nat) : Bool := decide (sub32 x.written h ≤ sub32 x.written x.head)

/-- A producer index is written. -/
def Dev.tailWrite (d : Dev) (q t : Nat) : Dev :=
  match d.queue q with
  | none => d
  | some x => if tailOk x t then d.updQueue q (fun x => { x with tail := t }) else d.doorError q

/-- A consumer index is written. -/
def Dev.headWrite (d : Dev) (q h : Nat) : Dev :=
  match d.queue q with
  | none => d
  | some x => if headOk x h then d.updQueue q (fun x => { x with head := h }) else d.doorError q

/-- A doorbell write of 64 bits with its upper half 0 (R303). -/
def doorWhole (size : Nat) (val : Word) : Bool := size = 8 && decide (val.toNat < 2 ^ 32)

/-- A work doorbell. -/
def Dev.doorbell (d : Dev) (fn page size : Nat) (val : Word) (off : Nat) (f : Dev → Nat → Nat → Dev) : Dev :=
  match d.pageQueue fn page with
  | some q => if doorWhole size val then f d q val.toNat else d.badDoor fn (page * 4096 + off)
  | none => d.badDoor fn (page * 4096 + off)

/-- A write to BAR2: SQ_TAIL at offset 0 of a page, CQ_HEAD at offset 8; every other offset is no doorbell (R303). -/
def Dev.bar2Write (d : Dev) (fn off size : Nat) (val : Word) : Dev :=
  if off % 4096 = 0 then d.doorbell fn (off / 4096) size val 0 Dev.tailWrite
  else if off % 4096 = 8 then d.doorbell fn (off / 4096) size val 8 Dev.headWrite
  else d.badDoor fn off

/-- A read of BAR2 returns 0 and changes nothing (R303). -/
def Dev.bar2Read (_d : Dev) (_fn _off _size : Nat) : Word := 0

/-- SQ_TAIL: a doorbell write to BAR2, which advances a queue's TAIL or puts the queue in ERROR (R303). -/
def execSqTail (fn off size : Nat) (val : Word) (hw : HostWrites) (s : State) : Out :=
  fnRow fn s (fun d => (d.hostPosts fn hw).bar2Write fn off size val)

/-- CQ_HEAD: a doorbell write to BAR2, which advances a queue's HEAD or puts the queue in ERROR (R303). -/
def execCqHead (fn off size : Nat) (val : Word) (s : State) : Out :=
  fnRow fn s (fun d => d.bar2Write fn off size val)

/-- An admin doorbell. -/
def Dev.adminDoor (d : Dev) (fn size : Nat) (val : Word) (off : Nat) (f : Dev → Nat → Nat → Dev) : Dev :=
  if d.adminOn fn && doorWhole size val then f d (4096 + fn) val.toNat else d.badDoor fn off

/-- HIF_ADMQ_TAIL (R303). -/
def execHifAdmqTail (fn size : Nat) (val : Word) (hw : HostWrites) (s : State) : Out :=
  fnRow fn s (fun d => (d.hostPosts fn hw).adminDoor fn size val (R.HIF_ADMQ_TAIL fn) Dev.tailWrite)

/-- HIF_ADMQ_HEAD (R303). -/
def execHifAdmqHead (fn size : Nat) (val : Word) (s : State) : Out :=
  fnRow fn s (fun d => d.adminDoor fn size val (R.HIF_ADMQ_HEAD fn) Dev.headWrite)

/-! ### Orphan mode (R317 to R319) -/

/-- The heartbeat watch stops, the admin queue stops (R316, R321). -/
def Dev.adminStop (d : Dev) (f : Nat) : Dev :=
  let d := d.setFld (R.HIF_ADMQ_CFG f) F.HIF_ADMQ_CFG_ENABLE 0
  let d := d.setFld (R.HIF_ADMQ_CFG f) F.HIF_ADMQ_CFG_STATE 0
  let d := d.setFld (R.HIF_FN_STAT f) F.HIF_FN_STAT_HB_ARMED 0
  d.updQueue (4096 + f) (fun x => { x with state := .free })

/-- A function enters orphan mode (R317, R318): its report is written, its admin queue stops, its queues are ORPHANED. One that
resigns stays so and is destroyed when its resign ends (R300). -/
def Dev.orphanEnter (d : Dev) (f reason : Nat) : Dev :=
  let qs := d.fnQueues f
  let entries : List OrphanEntry := qs.filterMap (fun q => (d.queue q).map (fun x => ⟨q, x.ctx, x.written, x.fetch, x.tail⟩))
  let d := d.updFn f (fun x => { x with
    orphan := true, reason := reason, entry := d.now, adminLost := 0, entries := entries, enabledAnew := false })
  let d := (d.setFld (R.HIF_FN_STAT f) F.HIF_FN_STAT_ORPHAN 1).setFld (R.HIF_FN_STAT f) F.HIF_FN_STAT_REASON reason
  let d := d.adminStop f
  let d := qs.foldl (fun d q => d.updQueue q (fun x =>
    if x.recordLost then { x with orphanedDone := 0 }
    else if x.state = .resigning then { x with resignAtOrphan := true, orphanedDone := 0 }
    else { x with state := .orphaned, orphanedDone := 0 })) d
  d.raise { code := 0x0B30, fn := f, args := [reason] }

/-- A function that has an enabled admin queue or holds a work queue enters orphan mode (R294); one that is in it with its admin
queue stopped stays as it is. -/
def Dev.orphanIf (d : Dev) (f reason : Nat) : Dev :=
  if d.adminOn f || (!(d.fnQueues f).isEmpty && !(d.fn f).orphan) then d.orphanEnter f reason else d

/-- Every function. -/
def allFns : List Nat := List.range 64

/-- Configuration space of every function is reset: no function is a bus master, VF Enable is 0 (R294). -/
def Dev.configReset (d : Dev) : Dev := { d with host := { d.host with bme := [], vfs := 0, cfg := [] } }

/-- LINK_DOWN: the link is lost: EVT 0x0B02, functions with queues enter orphan mode (R294). -/
def execLinkDown (s : State) : Out :=
  onDev s (fun d =>
    if d.host.linkUp = false then d
    else
      let d := { d with host := { d.host with linkUp := false } }
      let d := (d.setFld R.HIF_LINK F.HIF_LINK_SPEED 0).setFld R.HIF_LINK F.HIF_LINK_WIDTH 0
      let d := (d.wrapFld R.HIF_LINK F.HIF_LINK_DOWNS 1).raise { code := 0x0B02 }
      allFns.foldl (fun d f => d.orphanIf f 2) d.configReset)

/-- HOT_RESET: an in-band hot reset (R294). -/
def execHotReset (s : State) : Out :=
  onDev s (fun d => if d.host.linkUp then allFns.foldl (fun d f => d.orphanIf f 3) d.configReset else d)

/-- LINK_UP: the link trains at a speed and width of R292, which has 64 GT/s at ×16 only: EVT 0x0B01; below 64 GT/s or ×16 also EVT 0x0B03, which a width below
×8 raises alone, for that link is not used. -/
def execLinkUp (speed width : Nat) (s : State) : Out :=
  onDev s (fun d =>
    if d.host.linkUp || d.pins.dark || !(decide (3 ≤ speed) && decide (speed ≤ 6)) || (speed = 6 && width = 8) then d
    else if width < 8 then d.raise { code := 0x0B03, args := [speed, width] }
    else if !(width = 8 || width = 16) then d
    else
      let d := { d with host := { d.host with linkUp := true } }
      let d := (d.setFld R.HIF_LINK F.HIF_LINK_SPEED speed).setFld R.HIF_LINK F.HIF_LINK_WIDTH width
      let d := d.raise { code := 0x0B01, args := [speed, width] }
      if speed < 6 || width < 16 then d.raise { code := 0x0B03, args := [speed, width] } else d)

/-- BME_CLEARED: a function stops being a bus master (R294). -/
def execBmeCleared (f : Nat) (s : State) : Out :=
  onUnit "function" 64 f s (fun d =>
    if d.host.bme.contains f then
      ({ d with host := { d.host with bme := d.host.bme.filter (· ≠ f) } } : Dev).orphanIf f 4
    else d)

/-! ### The admin queue and the heartbeat (R316, R321) -/

/-- The admin queue of a function is enabled: its indices are 0, the heartbeat watch starts (R316, R321). The driver has set Bus
Master Enable, and VF Enable for a VF, before: the table has no row for these writes (PRESUMED, log entry 26). -/
def Dev.adminStart (d : Dev) (f : Nat) : Dev :=
  let old := d.queue (4096 + f)
  let x : Queue := {
    state := .active, cls := 0, base := 0, fn := f, loc := 0, log2 := d.fld (R.HIF_ADMQ_CFG f) F.HIF_ADMQ_CFG_LOG2SIZE, ctx := 0,
    vector := 0, sq := (d.reg (R.HIF_ADMQ_SQ f)).toNat, cq := (d.reg (R.HIF_ADMQ_CQ f)).toNat, tail := 0, fetch := 0, head := 0,
    written := 0, dropped := 0, lastService := d.now,
    fetched := (match old with | some y => y.fetched | none => []), held := [], recordLost := false, resignAtOrphan := false,
    wasOrphaned := false, orphanedDone := 0, epoch := match old with | some y => y.epoch + 1 | none => 0 }
  let d := { d with
    queues := put (4096 + f) x d.queues
    host := { d.host with
      bme := if d.host.bme.contains f then d.host.bme else f :: d.host.bme
      vfs := max d.host.vfs f } }
  let d := d.setFld (R.HIF_ADMQ_CFG f) F.HIF_ADMQ_CFG_ENABLE 1
  let d := d.setFld (R.HIF_ADMQ_CFG f) F.HIF_ADMQ_CFG_STATE 1
  let d := d.setFld (R.HIF_FN_STAT f) F.HIF_FN_STAT_HB_ARMED 1
  let d := d.updFn f (fun x => { x with hbLast := d.now, hbLate := false, enabledAnew := x.orphan })
  d.orphanExit f

/-- A 64-bit write to HIF_ADMQ_CFG (R7, R9, R321). -/
def Dev.adminCfg (d : Dev) (f : Nat) (val : Word) : Dev :=
  let v := val.toNat
  let off := R.HIF_ADMQ_CFG f
  let l := v % 32
  let on := d.adminOn f
  let keepLog := !(decide (6 ≤ l) && decide (l ≤ 16)) || (on && l ≠ d.fld off F.HIF_ADMQ_CFG_LOG2SIZE)
  let d := if keepLog then d else d.setFld off F.HIF_ADMQ_CFG_LOG2SIZE l
  let d := if keepLog || bits v 7 5 ≠ 0 || v / 2 ^ 11 ≠ 0 then d.reservedWrite f off else d
  if v.testBit 8 && !on then d.adminStart f
  else if !v.testBit 8 && on then d.adminStop f
  else d

/-- HIF_ADMQ_CFG: a write configures the admin queue (R321); a narrow one is discarded (R6). -/
def execHifAdmqCfg (fn size : Nat) (val : Word) (s : State) : Out :=
  onUnit "function" 64 fn s (fun d =>
    if d.host.linkUp = false then d
    else if size = 8 then d.adminCfg fn val else d.hostRange fn (R.HIF_ADMQ_CFG fn))

/-- A 64-bit write to HIF_HEARTBEAT: it restarts the window, or is ignored while the watch does not run (R316) (DESIGN
CHOICE, log entry 128). -/
def Dev.heartbeat (d : Dev) (f : Nat) (val : Word) : Dev :=
  let d := if 2 ^ 32 ≤ val.toNat then d.reservedWrite f (R.HIF_HEARTBEAT f) else d
  if d.hbArmed f then d.updFn f (fun x => { x with hbLast := d.now, hbLate := false }) else d

/-- HIF_HEARTBEAT (R316). -/
def execHifHeartbeat (fn size : Nat) (val : Word) (s : State) : Out :=
  fnRow fn s (fun d => if size = 8 then d.heartbeat fn val else d.hostRange fn (R.HIF_HEARTBEAT fn))

/-- HEARTBEAT_LATE: 500 ms without a heartbeat: EVT 0x0B33 (R316). -/
def execHeartbeatLate (fn : Nat) (s : State) : Out :=
  onUnit "function" 64 fn s (fun d =>
    let x := d.fn fn
    if d.hbArmed fn && !x.hbLate && decide (x.hbLast + 500000000 ≤ d.now) then
      (d.updFn fn (fun x => { x with hbLate := true })).raise { code := 0x0B33, fn := fn }
    else d)

/-- HEARTBEAT_TIMEOUT: 1 s without a heartbeat: orphan mode with reason HEARTBEAT (R316). -/
def execHeartbeatTimeout (fn : Nat) (s : State) : Out :=
  onUnit "function" 64 fn s (fun d =>
    if d.hbArmed fn && decide ((d.fn fn).hbLast + 1000000000 ≤ d.now) then d.orphanEnter fn 1 else d)

/-! ### Fetching a descriptor (R295, R304, R309) -/

/-- Whether a queue's next descriptor may be fetched (R304, R317). -/
def Queue.mayFetch (x : Queue) : Bool :=
  x.state = .active && x.fetch ≠ x.tail && decide (x.fetched.length < 64) && decide (sub32 x.fetch x.head < 2 ^ x.log2)

/-- The runs of bytes of a body that must be 0 (R305, R306). -/
def reservedRuns (typ : Nat) : List (Nat × Nat) :=
  match typ with
  | 1 => [(0, 48)]
  | 2 => [(0x11, 31)]
  | 3 => [(2, 46)]
  | 4 => [(0x16, 26)]
  | 5 => [(2, 46)]
  | 6 => [(0x12, 30)]
  | 7 => [(2, 6), (0x10, 32)]
  | 8 => [(8, 40)]
  | 9 => [(4, 44)]
  | 10 => [(4, 44)]
  | 11 => [(1, 1), (0x0C, 36)]
  | 12 => [(0x19, 1), (0x1E, 2), (0x24, 12)]
  | 13 => [(0x0C, 36)]
  | _ => []

/-- Bits of the fields of a body that are reserved: offset, size, mask (R306). -/
def reservedBits (typ : Nat) : List (Nat × Nat × Nat) :=
  match typ with
  | 3 => [(0, 2, 0xFC00)]
  | 4 => [(0x10, 2, 0xFC00)]
  | 9 => [(2, 2, 0x7000)]
  | 10 => [(0, 2, 0xC000)]
  | 11 => [(2, 2, 0xC000)]
  | 12 => [(0x18, 1, 0xF0), (0x1A, 2, 0xC000), (0x1C, 2, 0xC000)]
  | _ => []

/-- The field at which the header or the reserved bits of a descriptor fail (check 1 of R309) (DESIGN CHOICE, log entry 86). -/
def Dev.headerBad (d : Dev) (q : Nat) (x : Desc) : Option Nat :=
  let t := x.typ
  let typeOk := if isAdmin q then decide (2 ≤ t) && decide (t ≤ 6) else t = 1 || (decide (7 ≤ t) && decide (t ≤ 21))
  let ctx := natAt x.raw 2 2
  if typeOk = false then some 0
  else if natAt x.raw 1 1 / 4 ≠ 0 then some 1
  else if ctx ≠ (if isAdmin q then 0 else d.queueCtx q) then some 2
  else if 60000000 < x.timeoutUs then some 8
  else if zeroAt x.raw 0x0C 4 = false then some 0x0C
  else
    match (reservedRuns t).find? (fun r => zeroAt x.raw (0x10 + r.1) r.2 = false) with
    | some r => some (0x10 + r.1)
    | none => ((reservedBits t).find? (fun r => x.body r.1 r.2.1 &&& r.2.2 ≠ 0)).map (fun r => 0x10 + r.1)

/-- Whether the personality refuses a type (R26): samplers under CACHE and TRAIN, gambit but under DECODE, updates and audits but
under TRAIN, engines and pipelines with no personality. -/
def Dev.notAdmitted (d : Dev) (typ : Nat) : Bool :=
  let p := if d.cfgState = 2 then d.persona else 0
  match typ with
  | 13 => p = 0
  | 14 => p = 0
  | 15 => p = 0
  | 16 => !(p = 1 || p = 2)
  | 17 => p ≠ 2
  | 18 => p ≠ 4
  | 19 => p ≠ 4
  | 20 => p = 0
  | _ => false

/-- Checks 1 to 3 of R309: the status and result that refuse the descriptor. -/
def Dev.fetchCheck (d : Dev) (q : Nat) (x : Desc) : Dev × Option (Nat × Nat) :=
  match d.headerBad q x with
  | some off => (d.raise (d.descEvent 0x0B15 q x.n), some (stInvalid, invalidAt 0x0B15 off))
  | none =>
    let faulted := !isAdmin q && (match look (d.queueCtx q) d.ctxs with | some c => c.state = .faulted | none => false)
    if faulted then (d, some (stCtxFaulted, 0))
    else if x.typ = 2 && d.persona = 0 then (d, some (stBusy, 0))
    else if (x.typ = 20 || x.typ = 21) && d.ready = false then (d, some (stBusy, 0))
    else if d.notAdmitted x.typ then (d.raise (d.descEvent 0x0B16 q x.n), some (stNotAdmitted, 0))
    else (d, none)

/-- The longest pipeline descriptor: 64 stages, 255 streams, 256 sync entries (R99). -/
def maxPdesc : Nat := 32 + 64 * 64 + 16 * 255 + 8 * 256

/-- Read the containers of a pipeline in stage order; a stage whose length no container has is not read (R87). -/
def Dev.readContainers (d : Dev) (q n : Nat) (t : List Byte) : List Nat → List Byte → Dev × Sum (Nat × Nat) (List Byte)
  | [], acc => (d, .inr acc)
  | i :: r, acc =>
    let e := pStage t i
    let len := natAt e 8 4
    if 16777216 < len then (d, .inr acc)
    else
      match d.descRead q n (natAt e 0 8) len with
      | (d, .inl st) => (d, .inl st)
      | (d, .inr bs) => d.readContainers q n t r (acc ++ bs)

/-- Read a pipeline descriptor and its containers once (R99, R309). -/
def Dev.readPipeline (d : Dev) (q : Nat) (x : Desc) : Dev × Sum (Nat × Nat) (List Byte) :=
  let iova := x.body 0 8
  match d.descRead q x.n iova (min (x.body 8 4) maxPdesc) with
  | (d, .inl st) => (d, .inl st)
  | (d, .inr bs) =>
    let t := bs.take (pLen bs)
    let t := t ++ List.replicate (pLen bs - t.length) (0 : Byte)
    if decide (pStages t = 0) || decide (64 < pStages t) then (d, .inr t)
    else d.readContainers q x.n t (List.range (pStages t)) t

/-- The host table that the scheduling pass needs to know: a pipeline's. -/
def Dev.fetchTable (d : Dev) (q : Nat) (x : Desc) : Dev × Sum (Nat × Nat) (List Byte) :=
  if x.typ = 13 then d.readPipeline q x else (d, .inr [])

/-- A fetched descriptor: checked, its pipeline read, and left to the scheduling pass. -/
def Dev.fetched (d : Dev) (q : Nat) (x : Desc) : Dev :=
  match d.fetchCheck q x with
  | (d, some (st, res)) => d.complete q x.n st res
  | (d, none) =>
    match d.fetchTable q x with
    | (d, .inl (st, res)) => d.complete q x.n st res
    | (d, .inr t) => (d.updDesc q x.n (fun y => { y with table := t })).pass

/-- A descriptor fetch that returns no data puts the queue in ERROR (R295). -/
def Dev.fetchFailed (d : Dev) (q : Nat) : Dev :=
  ((d.accessFailed).queueError q).raise { code := 0x0B11, fn := d.queueFn q, ctx := d.queueCtx q, args := [q] }

/-- DESCRIPTOR_FETCH: the next descriptor of a queue is fetched and checked (R304, R309). -/
def execDescriptorFetch (q : Nat) (s : State) : Out :=
  onUnit "queue" 4160 q s (fun d =>
    match d.queue q with
    | none => d
    | some x =>
      if x.mayFetch = false then d
      else
        match d.hostRead x.fn (x.sq + x.fetch % 2 ^ x.log2 * 64) 64 with
        | none => d.fetchFailed q
        | some raw =>
          let y : Desc := {
            n := x.epoch * 2 ^ 32 + x.fetch, raw := raw, table := [], phase := .fetched, ready := d.now, start := 0, astat := 0,
            energy := 0, urgent := false, tiles := [], expired := false }
          (d.updQueue q (fun x => { x with fetch := mod32 (x.fetch + 1), fetched := x.fetched ++ [y] })).fetched q y)

/-- COMPLETION_TIMEOUT: a host read passes the Completion Timeout: the descriptor that needed its data completes with ACCESS, or
the queue whose descriptor it was to fetch enters ERROR (R295). -/
def execCompletionTimeout (q : Nat) (desc : Option Nat) (s : State) : Out :=
  onUnit "queue" 4160 q s (fun d =>
    match desc with
    | none =>
      match d.queue q with
      | none => d
      | some x => if x.mayFetch then d.fetchFailed q else d
    | some n =>
      match d.desc q n with
      | none => d
      | some x =>
        if x.typ = 12 && x.phase == Phase.running && (x.body 0x18 1).testBit 0 then
          if d.suppressed q then d.complete q n stOrphaned 0
          else (d.hostFailed q n).complete q n stAccess (x.body 0 8)
        else d)

end Sys2Proof.Machine
end

