-- ==== Sys2Proof/Machine/Sampler.lean ====
section
/-! DEFINITION. The samplers (chapter 09): arrival of a stream message at a tile or a slot, sample and gambit descriptors, the
choice of a token, draft records, gambit decisions. -/

namespace Sys2Proof.Machine

/-! ### Messages (R90 to R94, R202) -/

/-- The first message in flight of a pair leaves the list. -/
def dropFlight (prod cons : Nat) : List Flight → List Flight
  | [] => []
  | f :: r => if f.prod = prod && f.cons = cons then r else f :: dropFlight prod cons r

/-- A message arrives at a sampler's slot (R202, R203). -/
def Dev.slotTakes (d : Dev) (n sid index : Nat) (bs : List Byte) : Dev :=
  d.updSampler n (fun x => { x with slots := x.slots.map (fun e =>
    if e.2.sid = sid then (e.1, { e.2 with msgs := e.2.msgs ++ [(index, bs)], lastMsg := d.now }) else e) })

/-- A message arrives at a tile's port buffer and releases a receive that waits for it; a halted tile discards it, with EVT
0x0206 once for each port (R90 to R94). -/
def Dev.portTakes (d : Dev) (st : Stream) (cons index : Nat) (bs : List Byte) : Dev :=
  if d.consGone st cons then d.discardOnce st.pipe cons st.dstPort
  else
    let d := d.updTile cons (fun x => { x with inbox := x.inbox ++ [⟨st.dstPort, index, bs⟩] })
    let x := d.tile cons
    match x.seq with
    | .waitStream port _ =>
      if port = st.dstPort && slotOp x.bundle 4 % 2 = 0 && (x.nextMessage st port).isSome then
        (d.tracePort 4 cons port).updTile cons (fun x => { x with seq := .run })
      else d
    | _ => d

/-- STREAM: the first message in flight from a producer to a consumer of a stream arrives (R90 to R94, R202). -/
def execStream (sid prod cons : Nat) (s : State) : Out :=
  onUnits [("stream", 4096, sid), ("tile", 256, prod), ("consumer", 256, cons)] s (fun d =>
    match look sid d.streams with
    | none => d
    | some st =>
      match st.flight.find? (fun f => f.prod = prod && f.cons = cons) with
      | none => d
      | some f =>
        if d.streamBarred st prod cons then d
        else
        let d := d.updStream sid (fun st => { st with flight := dropFlight prod cons st.flight })
        let index := (st.prods.findIdx? (fun p => p = prod)).getD 0
        if d.jobPurged prod then d
        else
        match st.sampler with
        | some n => d.slotTakes n sid index f.bytes
        | none => d.portTakes st cons index f.bytes)

/-! ### Descriptors (R204, R211) -/

/-- The job of a descriptor's slots. -/
def Dev.smpJobNo (d : Dev) (n : Nat) : Nat := match look 0 (d.sampler n).slots with | some s => s.job | none => 0xFFFF

/-- A descriptor of a sampler with its tables. -/
structure SmpJob where
  body : List Byte
  table : List Byte
  gambit : Bool
  deriving DecidableEq, Repr

/-- A sampler descriptor as fetched. -/
def Desc.smp (x : Desc) : SmpJob := ⟨x.raw.drop 16, x.table, x.typ = 17⟩

/-- The sampler number. -/
def SmpJob.sampler (j : SmpJob) : Nat := natAt j.body 0 1 % 16
/-- NSTREAM. -/
def SmpJob.nstream (j : SmpJob) : Nat := natAt j.body 1 1
/-- LFMT: BF16. -/
def SmpJob.bf16 (j : SmpJob) : Bool := (natAt j.body 2 1).testBit 0
/-- Bytes of a logit. -/
def SmpJob.es (j : SmpJob) : Nat := if j.bf16 then 2 else 4
/-- DRAFTREC. -/
def SmpJob.draftRec (j : SmpJob) : Bool := !j.gambit && (natAt j.body 3 1).testBit 1
/-- HIST_EN. -/
def SmpJob.histEn (j : SmpJob) : Bool := (natAt j.body 3 1).testBit (if j.gambit then 1 else 2)
/-- ROLLBACK. -/
def SmpJob.rollback (j : SmpJob) : Bool := j.gambit && (natAt j.body 3 1).testBit 2
/-- BATCH. -/
def SmpJob.batch (j : SmpJob) : Nat := natAt j.body 6 2
/-- ROWTAB. -/
def SmpJob.rowtab (j : SmpJob) : Nat := natAt j.body 8 8
/-- STRTAB. -/
def SmpJob.strtab (j : SmpJob) : Nat := natAt j.body 16 8
/-- OUT. -/
def SmpJob.out (j : SmpJob) : Nat := natAt j.body 24 8
/-- HIST. -/
def SmpJob.hist (j : SmpJob) : Nat := natAt j.body 32 8
/-- DREC, or DSTRIDE. -/
def SmpJob.drec (j : SmpJob) : Nat := natAt j.body 40 8
/-- Bytes of a row-table entry. -/
def SmpJob.entrySize (j : SmpJob) : Nat := if j.gambit then 48 else 32
/-- Bytes of one sequence's output record (R211). -/
def SmpJob.outSize (j : SmpJob) : Nat := if j.gambit then 16 + 36 * j.nstream else 4 * j.nstream
/-- A row-table entry. -/
def SmpJob.entry (j : SmpJob) (r : Nat) : List Byte := bytesAt j.table (r * j.entrySize) j.entrySize
/-- A stream-table entry (R203). -/
def SmpJob.stream (j : SmpJob) (k : Nat) : List Byte := bytesAt j.table (j.batch * j.entrySize + 16 * k) 16
/-- VOCAB. -/
def SmpJob.vocab (j : SmpJob) (k : Nat) : Nat := natAt (j.stream k) 0 4
/-- SLICE. -/
def SmpJob.slice (j : SmpJob) (k : Nat) : Nat := natAt (j.stream k) 4 2
/-- RPM. -/
def SmpJob.rpm (j : SmpJob) (k : Nat) : Nat := natAt (j.stream k) 6 2
/-- Bytes of a message of stream k (R203). -/
def SmpJob.msgSize (j : SmpJob) (k : Nat) : Nat := j.rpm k * j.slice k * j.es
/-- NDRAFT of a sequence. -/
def SmpJob.ndraft (j : SmpJob) (s : Nat) : Nat := natAt (j.entry s) 34 1
/-- The address of draft record (j, k) of a sequence, j from 1 (R211). -/
def SmpJob.draftAt (j : SmpJob) (s pos k : Nat) : Nat := (natAt (j.entry s) 40 8 + (pos - 1) * j.drec + k * 8256) % 2 ^ 64
/-- The bitmap of a row's history slot for stream k (R208). -/
def SmpJob.bitmap (j : SmpJob) (r k : Nat) : Nat := (j.hist + (natAt (j.entry r) 0x1C 4 * 16 + k) * 32768) % 2 ^ 64
/-- The event of a failed check. -/
def SmpJob.badEvent (j : SmpJob) : Nat := if j.gambit then 0x0710 else 0x0701

/-- An address field: aligned to 64 bytes and inside the context's extents (R205). -/
def Dev.smpAddr (d : Dev) (c a len : Nat) : Bool := a % 64 = 0 && d.owns c a len

/-- The body's fields in order (R204, R205, R211): the offset of the first that fails. -/
def Dev.smpBody (d : Dev) (c : Nat) (j : SmpJob) : Option Nat :=
  let cs : List (Bool × Nat) :=
    [(decide (natAt j.body 0 1 < 16), 0), (decide (1 ≤ j.nstream) && decide (j.nstream ≤ 16), 1), (decide (natAt j.body 2 1 < 2), 2),
     (decide (natAt j.body 3 1 < 8), 3), (decide (natAt j.body 4 2 < 16384), 4),
     (decide (1 ≤ j.batch) && decide (j.batch ≤ if j.gambit then 256 else 1024), 6),
     (d.smpAddr c j.rowtab (j.batch * j.entrySize), 8), (d.smpAddr c j.strtab (16 * j.nstream), 16),
     (d.smpAddr c j.out (j.batch * j.outSize), 24), (!j.histEn || j.hist % 64 = 0, 32),
     (!j.draftRec || d.smpAddr c j.drec (j.batch * j.nstream * 8256), 40)]
  (cs.find? (fun e => !e.1)).map (·.2)

/-- A row-table entry is in range (R204, R205, R211). -/
def Dev.smpEntryOk (d : Dev) (c : Nat) (j : SmpJob) (r : Nat) : Bool :=
  let e := j.entry r
  !f32IsNan (BitVec.ofNat 32 (natAt e 12 4)) && decide (natAt e 16 2 ≤ 1024) && decide (natAt e 18 2 < 4) &&
    decide (1 ≤ natAt e 20 4) && decide (natAt e 20 4 ≤ 0x3F800000) &&
    decide (0x3F800000 ≤ natAt e 24 4) && decide (natAt e 24 4 < 0x7F800000) &&
    (!j.histEn || d.owns c (j.bitmap r 0) (32768 * j.nstream)) &&
    (!j.gambit ||
      (decide (j.ndraft r ≤ 8) && zeroAt e 35 5 &&
        (match d.ownSeq c (natAt e 32 2) with
         | some s => !j.rollback || s.len = natAt e 8 4 + j.ndraft r
         | none => false) &&
        (List.range (j.ndraft r)).all (fun i => (List.range j.nstream).all (fun k => d.smpAddr c (j.draftAt r (i + 1) k) 8256))))

/-- A stream-table entry is in range and its slot's producers cover the vocabulary (R203, R205). -/
def SmpJob.streamEntryOk (j : SmpJob) (k prods : Nat) : Bool :=
  decide (2 ≤ j.vocab k) && decide (j.vocab k ≤ 262144) && decide (1 ≤ j.rpm k) && decide (j.rpm k ≤ 64) &&
    zeroAt (j.stream k) 8 8 && decide (j.vocab k ≤ prods * j.slice k) && decide (j.msgSize k ≤ 32768) && j.msgSize k % 64 = 0

/-- The first record of a draft position holds what a record may hold (R210, R211). -/
def recordOk (vocab : Nat) (b : List Byte) : Bool :=
  decide (natAt b 0 4 < vocab) && decide (natAt b 4 2 ≤ 1024) && zeroAt b 6 58

/-- Read the first record of every draft position: the sequence whose record is bad, or the address of an uncorrectable
error. -/
def Dev.readRecords (d : Dev) (c : Nat) (j : SmpJob) : List (Nat × Nat) → Dev × Option (Nat × Nat)
  | [] => (d, none)
  | (s, pos) :: r =>
    match d.memCheckRead { ctx := c } (j.draftAt s pos 0) 64 with
    | (d, some g) => (d, some (stUe, g))
    | (d, none) =>
      if recordOk (j.vocab 0) (d.memBytes (j.draftAt s pos 0) 64) then d.readRecords c j r
      else (d, some (stInvalid, invalidEntry j.badEvent s))

/-- Every draft position of every sequence. -/
def SmpJob.positions (j : SmpJob) : List (Nat × Nat) :=
  if j.gambit then (List.range j.batch).flatMap (fun s => (List.range (j.ndraft s)).map (fun i => (s, i + 1))) else []

/-- The slots that a descriptor uses: bound to its context and one job, else the status (R205, R214). -/
def Dev.smpSlots (d : Dev) (c : Nat) (j : SmpJob) : Option Nat :=
  let x := d.sampler j.sampler
  let ss := (List.range j.nstream).map (fun k => look k x.slots)
  if ss.any (fun o => match o with | some s => decide (s.ctx ≠ c) | none => false) then some stBusy
  else if ss.any (·.isNone) then some stInvalid
  else
    let jobs := ss.filterMap (fun o => o.map (fun s => s.job))
    if jobs.all (fun a => jobs.head? = some a) then none else some stInvalid

/-- The checks of a sampler descriptor (R205, R211, R214). -/
def Dev.smpCheck (d : Dev) (q : Nat) (x : Desc) : Checked :=
  let c := d.queueCtx q
  let j := x.smp
  let bad : Dev → List Nat → Nat → Checked := fun d row res =>
    let d := d.satFld R.SMP_ERR F.SMP_ERR_BAD_DESC 1
    (d.raise { code := j.badEvent, fn := d.queueFn q, ctx := c, job := d.smpJobNo j.sampler, unit := j.sampler, args := row },
      .inl (stInvalid, res))
  match d.smpBody c j with
  | some off => bad d [] (invalidAt j.badEvent (0x10 + off))
  | none =>
    match d.smpSlots c j with
    | some st => if st = stBusy then (d, .inl (stBusy, 0)) else bad d [] (invalidAt j.badEvent 0x10)
    | none =>
      match d.memCheckRead { ctx := c } j.rowtab (j.batch * j.entrySize) with
      | (d, some g) => (d, .inl (stUe, g))
      | (d, none) =>
        match d.memCheckRead { ctx := c } j.strtab (16 * j.nstream) with
        | (d, some g) => (d, .inl (stUe, g))
        | (d, none) =>
          let j : SmpJob := { j with
            table := d.memBytes j.rowtab (j.batch * j.entrySize) ++ d.memBytes j.strtab (16 * j.nstream) }
          let prods : Nat → Nat := fun k => match look k (d.sampler j.sampler).slots with | some s => s.prods | none => 0
          match (List.range j.nstream).find? (fun k => !j.streamEntryOk k (prods k)) with
          | some k => bad d [] (invalidEntry j.badEvent k)
          | none =>
            match (List.range j.batch).find? (fun r => !d.smpEntryOk c j r) with
            | some r => bad d [r] (invalidEntry j.badEvent r)
            | none =>
              match d.readRecords c j j.positions with
              | (d, some (st, res)) => if st = stUe then (d, .inl (st, res)) else bad d [res / 2 ^ 32] res
              | (d, none) => (d, .inr j.table)

/-! ### The sampler's state (R209, R216) -/

/-- The logit rows that the descriptor's table gives the sequence (or row) in hand. -/
def SmpJob.rowsOf (j : SmpJob) (row : Nat) : Nat := if j.gambit then j.ndraft row + 1 else 1

/-- The first message of a producer in a slot. -/
def Slot.first (x : Slot) (p : Nat) : Option (List Byte) := (x.msgs.find? (fun m => m.1 = p)).map (·.2)

/-- Whether a slot holds the first message of every producer. -/
def Slot.complete (x : Slot) : Bool := (List.range x.prods).all (fun p => (x.first p).isSome)

/-- Whether the running descriptor of a sampler finds its next logit row in its slots. -/
def Dev.rowReady (d : Dev) (n : Nat) (j : SmpJob) : Bool :=
  (List.range j.nstream).all (fun k => match look k (d.sampler n).slots with | some s => s.complete | none => false)

/-- SMP_STAT.STATE: no descriptor runs, the running one waits for logits, or it chooses tokens (R216). -/
def Dev.smpState (d : Dev) (n : Nat) : Nat :=
  match (d.sampler n).cmds with
  | [] => 0
  | c :: _ => match d.desc c.q c.n with
    | some y => if d.rowReady n y.smp then 2 else 1
    | none => 1

/-- The first message of each producer, and the rest. -/
def splitFirst : (prods : List Nat) → List (Nat × List Byte) → List (Nat × List Byte) × List (Nat × List Byte)
  | [], ms => ([], ms)
  | p :: r, ms =>
    let first := (ms.find? (fun m => m.1 = p)).toList
    let rest := match ms.findIdx? (fun m => m.1 = p) with | some i => ms.eraseIdx i | none => ms
    let (a, b) := splitFirst r rest
    (first ++ a, b)

/-- The first message of every producer of a slot has been used up. -/
def Dev.slotNext (d : Dev) (n k : Nat) : Dev :=
  match look k (d.sampler n).slots with
  | none => d
  | some s => let (gone, kept) := splitFirst (List.range s.prods) s.msgs; d.slotDrops n k gone kept

/-- A logit row has been used: messages whose rows are all used leave their slots (R203). -/
def Dev.rowUsed (d : Dev) (n : Nat) (j : SmpJob) (lrow : Nat) : Dev :=
  (List.range j.nstream).foldl (fun d k => if (lrow + 1) % j.rpm k = 0 then d.slotNext n k else d) d

/-- The last row of a descriptor is done: what is left of partly used messages leaves the slots. -/
def Dev.smpDone (d : Dev) (n : Nat) (j : SmpJob) (lrow : Nat) (status : Nat) : Dev :=
  let d := (List.range j.nstream).foldl (fun d k => if lrow % j.rpm k = 0 then d else d.slotNext n k) d
  d.smpEnd n status 0

/-- A descriptor is accepted by its sampler. -/
def Dev.smpAccept (d : Dev) (q : Nat) (x : Desc) : Dev :=
  let n := x.smp.sampler
  let c : SampleCmd := {
    gambit := x.typ = 17, q := q, n := x.n, ctx := d.queueCtx q, row := 0, lrow := 0, kept := [], nonfinite := false,
    since := d.now, stopping := false }
  (d.updSampler n (fun x => { x with cmds := x.cmds ++ [c] })).smpShow n

/-- SAMPLE: the sample descriptor at the head of queue q is checked and given to its sampler (R204, R205). -/
def execSample (q : Nat) (s : State) : Out :=
  onUnit "queue" 4096 q s (fun d => d.runHead q (fun x => x.typ = 16) Dev.smpCheck Dev.smpAccept)

/-- GAMBIT: the gambit descriptor at the head of queue q is checked and given to its sampler (R211). -/
def execGambit (q : Nat) (s : State) : Out :=
  onUnit "queue" 4096 q s (fun d => d.runHead q (fun x => x.typ = 17) Dev.smpCheck Dev.smpAccept)

/-! ### Choosing a token (R206, R207) -/

/-- A result held at the largest finite value; an operand of −∞ stays −∞ (R206). -/
def heldAt (x r : F32) : F32 :=
  if x = 0xFF800000 then 0xFF800000 else if r = 0x7F800000 then 0x7F7FFFFF else if r = 0xFF800000 then 0xFF7FFFFF else r

/-- A key that orders FP32 values other than NaN; the two zeros are equal. -/
def orderKey (b : F32) : Int := if b.getLsbD 31 then -((b.toNat % 2 ^ 31 : Nat) : Int) else (b.toNat : Int)

/-- One logit with NaN and +∞ replaced; whether it was. -/
def cleanLogit (b : F32) : F32 × Bool :=
  if f32IsNan b then (0xFF800000, true) else if b = 0x7F800000 then (0x7F7FFFFF, true) else (b, false)

/-- The penalty (R206). -/
def penalize (pen z : F32) : F32 := heldAt z (if 0 < orderKey z then f32Div z pen else f32Mul z pen)

/-- Candidate order (R206). -/
def candFirst (a b : Nat × F32) : Bool :=
  decide (orderKey b.2 < orderKey a.2) || (orderKey a.2 = orderKey b.2 && decide (a.1 < b.1))

/-- EXP as the vector engine gives it. -/
def smpExp (z : F32) : F32 := BitVec.ofNat 32 (boundedPick 0 18 z.toNat 0 2 noAbs (refExp false (ofF32 z)))

/-- The running sums of e (R206). -/
def runningSums : F32 → List F32 → List F32
  | _, [] => []
  | c, e :: r => let c1 := heldAt 0 (f32Add c e); c1 :: runningSums c1 r

/-- U × 2 to the −32 in FP32. -/
def unitDraw (u : Nat) : F32 := toF32 (.fin false u (-32))

/-- Choose from one row (R206): its logits, the history bits under which the penalty applies, and the row-table fields
(DESIGN CHOICE, log entry 72). -/
def pickRow (logits : List F32) (hist : List Bool) (temp pen : F32) (topk : Nat) (topp : F32) : RowPick :=
  let cl := logits.map cleanLogit
  let nf := cl.any (·.2)
  let z := (List.range cl.length).zipWith (fun v e => (v, if hist.getD v false then penalize pen e.1 else e.1)) cl
  if z.all (fun e => e.2 = 0xFF800000) then ⟨[], nf⟩
  else if temp.toNat % 2 ^ 31 = 0 then
    ⟨((sortBy candFirst z).take 1).map (fun e => (e.1, f32One)), nf⟩
  else
    let zt := z.map (fun e => (e.1, heldAt e.2 (f32Div e.2 temp)))
    let kc := min (if topk = 0 then 1024 else topk) logits.length
    let cand := (sortBy candFirst zt).take kc
    let m := ((cand.head?.map (·.2)).getD 0)
    let es := cand.map (fun e => (e.1, smpExp (heldAt e.2 (f32Sub e.2 m))))
    let sums := runningSums 0 (es.map (·.2))
    let lim := heldAt 0 (f32Mul topp (sums.getLastD 0))
    let c := (sums.findIdx? (fun s => decide (orderKey lim ≤ orderKey s))).getD (sums.length - 1)
    ⟨es.take (c + 1), nf⟩

/-- C[c] of a row. -/
def RowPick.total (r : RowPick) : F32 := (runningSums 0 (r.cands.map (·.2))).getLastD 0

/-- The kept probability of a candidate (R206). -/
def RowPick.prob (r : RowPick) (e : F32) : F32 := if r.cands.length = 1 then f32One else f32Div e r.total

/-- The kept distribution at a token. -/
def RowPick.probOf (r : RowPick) (tok : Nat) : F32 :=
  match r.cands.find? (fun c => c.1 = tok) with
  | some c => r.prob c.2
  | none => 0

/-- The last line of R206 with draw U. -/
def RowPick.draw (r : RowPick) (u : Nat) : Nat :=
  let x := f32Mul (unitDraw u) r.total
  let sums := runningSums 0 (r.cands.map (·.2))
  let i := (sums.findIdx? (fun s => decide (orderKey x < orderKey s))).getD (sums.length - 1)
  (r.cands.getD i (0, 0)).1

/-- The 32-bit draw of R207. -/
def smpDraw (seed : Word) (k dd p : Nat) : Nat :=
  (splitMix (seed ^^^ (BitVec.ofNat 64 k <<< 56) ^^^ (BitVec.ofNat 64 dd <<< 48) ^^^ BitVec.ofNat 64 (p % 2 ^ 48)) >>> 32).toNat

/-- A token word (R204): none is NO_CAND. -/
def tokenWord (tok : Option Nat) (nf : Bool) : Nat :=
  (match tok with | some t => t % 2 ^ 18 | none => 2 ^ 31) + b2n nf * 2 ^ 30

/-- The little-endian halves of a run of bytes, widened to FP32. -/
def bf16Of : (fuel : Nat) → List Byte → List F32
  | 0, _ => []
  | k + 1, bs => BitVec.ofNat 32 (natAt bs 0 2 * 65536) :: bf16Of k (bs.drop 2)

/-- The logits of stream k in the current row (R203). -/
def Slot.logits (x : Slot) (j : SmpJob) (k lrow : Nat) : List F32 :=
  let n := j.slice k
  ((List.range x.prods).flatMap (fun p =>
    let bs := ((x.first p).getD []).drop (lrow % j.rpm k * n * j.es)
    if j.bf16 then bf16Of n bs else wordsOf n bs)).take (j.vocab k)

/-- The bits of a bitmap. -/
def bitList (bs : List Byte) : List Bool := bs.flatMap (fun b => (List.range 8).map (fun i => b.getLsbD i))

/-- Whether the penalty of an entry applies. -/
def SmpJob.penalized (j : SmpJob) (r : Nat) : Bool := j.histEn && (natAt (j.entry r) 18 2).testBit 0

/-- The history under which stream k of a row is chosen: the bitmap and tokens emitted before it in its sequence (R208, R212);
the address of an uncorrectable error where the bitmap cannot be read. -/
def Dev.historyOf (d : Dev) (c : Nat) (j : SmpJob) (r k : Nat) (more : List Nat) : Dev × Sum Nat (List Bool) :=
  if j.penalized r = false then (d, .inr [])
  else
    let n := (j.vocab k + 7) / 8
    match d.memCheckRead { ctx := c } (j.bitmap r k) n with
    | (d, some g) => (d, .inl g)
    | (d, none) =>
      let bs := bitList (d.memBytes (j.bitmap r k) n)
      (d, .inr ((List.range bs.length).zipWith (fun v b => b || more.contains v) bs))

/-- The choice of one row and stream (R206), with its counts and events. -/
def Dev.chooseOne (d : Dev) (n : Nat) (c : SampleCmd) (j : SmpJob) (k : Nat) (more : List Nat) : Dev × Sum Nat RowPick :=
  match d.historyOf c.ctx j c.row k more with
  | (d, .inl g) => (d, .inl g)
  | (d, .inr h) =>
    let e := j.entry c.row
    let logits := match look k (d.sampler n).slots with | some s => s.logits j k c.lrow | none => []
    let p := pickRow logits h (BitVec.ofNat 32 (natAt e 12 4)) (BitVec.ofNat 32 (natAt e 24 4)) (natAt e 16 2)
      (BitVec.ofNat 32 (natAt e 20 4))
    let job := match look k (d.sampler n).slots with | some s => s.job | none => 0xFFFF
    let ev : Nat → Ev := fun code => { code := code, fn := d.ctxFn c.ctx, ctx := c.ctx, job := job, unit := n, args := [c.row] }
    let d := if p.nonfinite then
        let d := d.satFld R.SMP_ERR F.SMP_ERR_NONFINITE 1
        if (d.sampler n).cmds.head?.any (·.nonfinite) then d
        else (d.updSampler n (fun x => { x with cmds := match x.cmds with
          | [] => []
          | y :: z => { y with nonfinite := true } :: z })).raise (ev 0x0704)
      else d
    let d := if p.cands.isEmpty then (d.satFld R.SMP_ERR F.SMP_ERR_NO_CAND 1).raise (ev 0x0705) else d
    (d, .inr p)

/-- A bit of a bitmap is set (R208). -/
def Dev.setHistory (d : Dev) (c : Nat) (j : SmpJob) (r k tok : Nat) : Dev × Option Nat :=
  let a := j.bitmap r k + tok / 8
  match d.memCheckRead { ctx := c } a 1 with
  | (d, some g) => (d, some g)
  | (d, none) => d.memWriteRun { ctx := c } a [(d.memBytes a 1).headD 0 ||| BitVec.ofNat 8 (2 ^ (tok % 8))]

/-- The flags of the probabilities written into a record (R54). -/
def RowPick.flags (r : RowPick) : Nat :=
  if r.cands.length = 1 then 0
  else r.cands.foldl (fun f c => f ||| (convert 0 false none ((ofF32 c.2).div (ofF32 r.total))).2) 0

/-- A draft record (R210). -/
def RowPick.bytes (r : RowPick) (tok : Nat) : List Byte :=
  leBytes 4 tok ++ leBytes 2 r.cands.length ++ List.replicate 58 (0 : Byte) ++
    r.cands.flatMap (fun c => leBytes 4 c.1 ++ leBytes 4 (r.prob c.2).toNat)

/-- One stream of a sample row: the token word, the draft record, the history bit (R204, R208, R210). -/
def Dev.sampleOne (d : Dev) (n : Nat) (c : SampleCmd) (j : SmpJob) (k : Nat) : Dev × Option Nat :=
  match d.chooseOne n c j k [] with
  | (d, .inl g) => (d, some g)
  | (d, .inr p) =>
    let e := j.entry c.row
    let tok := if p.cands.isEmpty then none
      else some (p.draw (smpDraw (BitVec.ofNat 64 (natAt e 0 8)) k 0 (natAt e 8 4)))
    let w := (c.row * j.nstream + k)
    match d.memWriteRun { ctx := c.ctx } (j.out + 4 * w) (leBytes 4 (tokenWord tok p.nonfinite)) with
    | (d, some g) => (d, some g)
    | (d, none) =>
      let d := if tok.isSome then d.wrapFld (R.SMP_TOK n) F.SMP_TOK_TOKENS 1 else d
      match (if j.draftRec then
          (d.descFlags c.q c.n p.flags).memWriteRun { ctx := c.ctx } (j.drec + 8256 * w) (p.bytes (tok.getD 0))
        else (d, none)) with
      | (d, some g) => (d, some g)
      | (d, none) =>
        match tok with
        | some v => if j.histEn && (natAt e 18 2).testBit 1 then d.setHistory c.ctx j c.row k v else (d, none)
        | none => (d, none)

/-- All streams of a sample row in order. -/
def Dev.sampleAll (d : Dev) (n : Nat) (c : SampleCmd) (j : SmpJob) : List Nat → Dev × Option Nat
  | [] => (d, none)
  | k :: r =>
    match d.sampleOne n c j k with
    | (d, some g) => (d, some g)
    | (d, none) => d.sampleAll n c j r

/-- The draft tokens of stream k for positions 1 to i; the address of an uncorrectable error. -/
def Dev.draftToks (d : Dev) (c : Nat) (j : SmpJob) (s k : Nat) : List Nat → Dev × Sum Nat (List Nat)
  | [] => (d, .inr [])
  | pos :: r =>
    match d.memCheckRead { ctx := c } (j.draftAt s pos k) 4 with
    | (d, some g) => (d, .inl g)
    | (d, none) =>
      let t := d.memNat (j.draftAt s pos k) 4
      match d.draftToks c j s k r with
      | (d, .inl g) => (d, .inl g)
      | (d, .inr ts) => (d, .inr (t :: ts))

/-- All streams of one gambit row in order (R212): the row's choices. -/
def Dev.gambitRow (d : Dev) (n : Nat) (c : SampleCmd) (j : SmpJob) : List Nat → Dev × Sum Nat (List RowPick)
  | [] => (d, .inr [])
  | k :: r =>
    match d.draftToks c.ctx j c.row k ((List.range c.kept.length).map (· + 1)) with
    | (d, .inl g) => (d, .inl g)
    | (d, .inr more) =>
      match d.chooseOne n c j k more with
      | (d, .inl g) => (d, .inl g)
      | (d, .inr p) =>
        match d.gambitRow n c j r with
        | (d, .inl g) => (d, .inl g)
        | (d, .inr ps) => (d, .inr (p :: ps))

/-- The first message of a wrong size in the slots of a descriptor: slot and producer (R214). -/
def Dev.wrongMessage (d : Dev) (n : Nat) (j : SmpJob) : Option (Nat × Nat) :=
  (List.range j.nstream).findSome? (fun k =>
    match look k (d.sampler n).slots with
    | none => none
    | some s => ((List.range s.prods).find? (fun p => match s.first p with
        | some bs => decide (bs.length ≠ j.msgSize k)
        | none => false)).map (fun p => (k, p)))

/-- The descriptor that a sampler runs, with its tables. -/
def Dev.smpRunning (d : Dev) (n : Nat) : Option (SampleCmd × SmpJob) :=
  match (d.sampler n).cmds with
  | [] => none
  | c :: _ => (d.desc c.q c.n).map (fun x => (c, x.smp))

/-- Change the descriptor that a sampler runs. -/
def Dev.updSmp (d : Dev) (n : Nat) (f : SampleCmd → SampleCmd) : Dev :=
  d.updSampler n (fun x => { x with cmds := match x.cmds with | [] => [] | y :: z => f y :: z })

/-- The event of a running descriptor (R217). -/
def Dev.smpEvent (d : Dev) (n code : Nat) (c : SampleCmd) : Ev :=
  { code := code, fn := d.ctxFn c.ctx, ctx := c.ctx, job := d.smpJobNo n, unit := n, args := [c.row] }

/-- SAMPLE_ROW: a sampler takes its next logit row once the logits of all its streams are there: it chooses a token for each
stream of a sample descriptor, or keeps the choices of the row for a gambit decision (R203, R206, R208, R210, R212, R214). -/
def execSampleRow (n : Nat) (s : State) : Out :=
  onUnit "sampler" 16 n s (fun d =>
    match d.smpRunning n with
    | none => d
    | some (c, j) =>
      if decide (j.batch ≤ c.row) || decide (j.rowsOf c.row ≤ c.kept.length) then d
      else match d.wrongMessage n j with
      | some (k, p) =>
        let d := match look k (d.sampler n).slots with
          | some s => let (gone, kept) := splitFirst [p] s.msgs; d.slotDrops n k gone kept
          | none => d
        (d.raise (d.smpEvent n 0x0702 c)).smpEnd n stInvalid (invalidTable 0x0702)
      | none =>
        if d.rowReady n j = false then d
        else if c.gambit then
          match d.gambitRow n c j (List.range j.nstream) with
          | (d, .inl g) => d.smpEnd n stUe g
          | (d, .inr ps) =>
            let d := d.updSmp n (fun c => { c with lrow := c.lrow + 1, kept := c.kept ++ [ps] })
            d.rowUsed n j c.lrow
        else
          match d.sampleAll n c j (List.range j.nstream) with
          | (d, some g) => d.smpEnd n stUe g
          | (d, none) =>
            let d := d.updSmp n (fun c => { c with row := c.row + 1, lrow := c.lrow + 1 })
            let d := d.rowUsed n j c.lrow
            if c.row + 1 = j.batch then d.smpDone n j (c.lrow + 1) stOk else d)

/-- SMP_TIMEOUT: a slot that the running descriptor waits on has received no message within its pipeline's stream timeout
(R214); a slot that is no longer bound counts with the default timeout of 100 ms. -/
def execSmpTimeout (n slot : Nat) (s : State) : Out :=
  onUnits [("sampler", 16, n), ("slot", 16, slot)] s (fun d =>
    match d.smpRunning n with
    | none => d
    | some (c, j) =>
      let due := match look slot (d.sampler n).slots with
        | some s => !s.complete && decide (max c.since s.lastMsg + s.timeout ≤ d.now)
        | none => decide (c.since + 100000000 ≤ d.now)
      if due && decide (slot < j.nstream) && decide (c.row < j.batch) && decide (c.kept.length < j.rowsOf c.row) then
        let d := (d.satFld R.SMP_ERR F.SMP_ERR_TIMEOUTS 1).raise (d.smpEvent n 0x0703 c)
        d.smpEnd n stTimeout 0
      else d)

/-! ### Gambit (R212, R213) -/

/-- A draft record as read: the token, and its candidates with their probabilities. -/
structure DraftRec where
  tok : Nat
  cands : List (Nat × F32)
  deriving DecidableEq, Repr

/-- A draft record from its bytes. -/
def parseDraft (b : List Byte) : DraftRec :=
  ⟨natAt b 0 4, (List.range (min 1024 (natAt b 4 2))).map (fun i => (natAt b (64 + 8 * i) 4, BitVec.ofNat 32 (natAt b (68 + 8 * i) 4)))⟩

/-- PROB of a token in a record, 0 where it is absent (DESIGN CHOICE, log entry 73). -/
def DraftRec.prob (r : DraftRec) (tok : Nat) : F32 :=
  match r.cands.find? (fun c => c.1 = tok) with
  | some c => c.2
  | none => 0

/-- The residual of a stream (R212). -/
def residual (p : RowPick) (r : DraftRec) (u : Nat) : Nat :=
  let res := p.cands.map (fun c =>
    let x := f32Sub (p.prob c.2) (r.prob c.1)
    (c.1, if 0 < orderKey x then x else 0))
  let sums := runningSums 0 (res.map (·.2))
  let total := sums.getLastD 0
  if 0 < orderKey total then
    let x := f32Mul (unitDraw u) total
    (res.getD ((sums.findIdx? (fun s => decide (orderKey x < orderKey s))).getD (sums.length - 1)) (0, 0)).1
  else p.draw u

/-- One stream at draft position `pos`: whether it accepts its draft token, and the token that it emits if the position is
rejected (R212). -/
def gambitTest (greedy : Bool) (seed : Word) (at_ k : Nat) (p : RowPick) (r : DraftRec) : Bool × Option Nat :=
  match p.cands with
  | [] => (false, none)
  | top :: _ =>
    if greedy then (r.tok = top.1, some top.1)
    else
      let q := r.prob r.tok
      let u := smpDraw seed k 1 at_
      let ok := decide (0 < orderKey q) && decide (orderKey (f32Mul (unitDraw u) q) < orderKey (p.probOf r.tok))
      (ok, some (if ok then r.tok else residual p r (smpDraw seed k 2 at_)))

/-- The tokens that a sequence emits, position after position, and how many drafts it accepted (R212). `rows` are the rows
chosen, `recs` the records of each draft position. -/
def gambitRun (greedy : Bool) (seed : Word) (pos : Nat) : (j : Nat) → List (List RowPick) → List (List DraftRec) →
    List (List (Option Nat)) × Nat
  | j, row :: _, [] =>
    ([(List.range row.length).zipWith (fun k p =>
      if p.cands.isEmpty then none else some (p.draw (smpDraw seed k 0 (pos + j)))) row], j)
  | j, row :: rows, rec_ :: recs =>
    let ts := (List.range row.length).zipWith (fun k e => gambitTest greedy seed (pos + j) k e.1 e.2) (row.zip rec_)
    if ts.all (·.1) then
      let (out, n) := gambitRun greedy seed pos (j + 1) rows recs
      (rec_.map (fun r => some r.tok) :: out, n)
    else (((ts.zip rec_).map (fun e => if e.1.1 then some e.2.tok else e.1.2)) :: [], j)
  | j, [], _ => ([], j)

/-- The records of every draft position of a sequence; the address of an uncorrectable error. -/
def Dev.draftRecs (d : Dev) (c : Nat) (j : SmpJob) (s pos : Nat) : List Nat → Dev × Sum Nat (List DraftRec)
  | [] => (d, .inr [])
  | k :: r =>
    let a := j.draftAt s pos k
    match d.memCheckRead { ctx := c } a (64 + 8 * min 1024 (d.memNat (a + 4) 2)) with
    | (d, some g) => (d, .inl g)
    | (d, none) =>
      let x := parseDraft (d.memBytes a 8256)
      match d.draftRecs c j s pos r with
      | (d, .inl g) => (d, .inl g)
      | (d, .inr xs) => (d, .inr (x :: xs))

/-- The records of a sequence, position after position. -/
def Dev.seqRecs (d : Dev) (c : Nat) (j : SmpJob) (s : Nat) : List Nat → Dev × Sum Nat (List (List DraftRec))
  | [] => (d, .inr [])
  | pos :: r =>
    match d.draftRecs c j s pos (List.range j.nstream) with
    | (d, .inl g) => (d, .inl g)
    | (d, .inr x) =>
      match d.seqRecs c j s r with
      | (d, .inl g) => (d, .inl g)
      | (d, .inr xs) => (d, .inr (x :: xs))

/-- The output record of a sequence (R211). -/
def gambitRecord (nstream pos : Nat) (rows : List (List RowPick)) (out : List (List (Option Nat))) (nacc : Nat) : List Byte :=
  let used := rows.take (nacc + 1)
  let nf := used.any (fun r => r.any (·.nonfinite))
  let nc := out.any (fun ts => ts.any (·.isNone))
  let words := (out.zip rows).flatMap (fun e => (e.1.zip e.2).map (fun x => tokenWord x.1 x.2.nonfinite))
  leBytes 1 nacc ++ leBytes 1 (nacc + 1) ++ leBytes 1 (b2n nf + 2 * b2n nc) ++ leBytes 1 0 ++ leBytes 4 (pos + nacc) ++ leBytes 8 0 ++
    words.flatMap (leBytes 4) ++ List.replicate (36 * nstream - 4 * words.length) (0xFF : Byte)

/-- The history bits of the emitted tokens (R212). -/
def Dev.setHistories (d : Dev) (c : Nat) (j : SmpJob) (s : Nat) : List (Nat × Nat) → Dev × Option Nat
  | [] => (d, none)
  | (k, v) :: r =>
    match d.setHistory c j s k v with
    | (d, some g) => (d, some g)
    | (d, none) => d.setHistories c j s r

/-- Whether a TRUNCATE that a gambit descriptor submitted has still to be done. -/
def Dev.rollsBack (d : Dev) (c : Nat) (j : SmpJob) : Bool :=
  d.kvp.work.any (fun w => match w with
    | .rollback _ c2 _ _ out => c2 = c && decide (j.out ≤ out) && decide (out < j.out + j.batch * j.outSize)
    | .desc _ _ => false)

/-- After a sequence: the end of a descriptor that a resign covers (R214), the next sequence, or the end once every TRUNCATE it
submitted is done (R213) (DESIGN CHOICE, log entry 149). -/
def Dev.gambitNext (d : Dev) (n : Nat) : Dev :=
  match d.smpRunning n with
  | none => d
  | some (c, j) =>
    if c.stopping then (d.slotsDiscard n j.nstream).smpEnd n stResigned 0
    else if decide (c.row < j.batch) || d.rollsBack c.ctx j then d
    else d.smpDone n j c.lrow stOk

/-- GAMBIT_DECISION: once the rows of a sequence are chosen, the longest valid prefix of its draft is accepted, its tokens and
its output record are written, and its tail is rolled back (R212, R213). -/
def execGambitDecision (n : Nat) (s : State) : Out :=
  onUnit "sampler" 16 n s (fun d =>
    match d.smpRunning n with
    | none => d
    | some (c, j) =>
      if c.gambit = false then d
      else if j.batch ≤ c.row then d.gambitNext n
      else if c.kept.length < j.rowsOf c.row then d
      else
        match d.seqRecs c.ctx j c.row ((List.range (j.ndraft c.row)).map (· + 1)) with
        | (d, .inl g) => d.smpEnd n stUe g
        | (d, .inr recs) =>
          let e := j.entry c.row
          let pos := natAt e 8 4
          let (out, nacc) := gambitRun (natAt e 12 4 % 2 ^ 31 = 0) (BitVec.ofNat 64 (natAt e 0 8)) pos 0 c.kept recs
          let at_ := j.out + c.row * j.outSize
          match d.memWriteRun { ctx := c.ctx } at_ (gambitRecord j.nstream pos c.kept out nacc) with
          | (d, some g) => d.smpEnd n stUe g
          | (d, none) =>
            let toks := out.flatMap (fun ts => ((List.range ts.length).zip ts).filterMap (fun e => e.2.map (fun v => (e.1, v))))
            let d := d.wrapFld (R.SMP_TOK n) F.SMP_TOK_TOKENS toks.length
            let d := d.satFld (R.SMP_GAMBIT n) F.SMP_GAMBIT_PROPOSED (min (nacc + 1) (j.ndraft c.row))
            let d := d.satFld (R.SMP_GAMBIT n) F.SMP_GAMBIT_ACCEPTED nacc
            match (if j.histEn then d.setHistories c.ctx j c.row toks else (d, none)) with
            | (d, some g) => d.smpEnd n stUe g
            | (d, none) =>
              let d := if j.rollback then d.kvAccept (.rollback (n, d.smpJobNo n) c.ctx (natAt e 32 2) (pos + nacc) at_) else d
              (d.updSmp n (fun c => { c with row := c.row + 1, kept := [] })).gambitNext n)

/-! ### Resign (R214) -/

/-- A resign covers an accepted descriptor: it stops at the boundary it stands at, or, under gambit with a sequence in hand,
after that sequence; one that has not begun completes at once. -/
def Dev.smpResign (d : Dev) (q n : Nat) : Dev :=
  (List.range 16).foldl (fun d i =>
    match (d.sampler i).cmds with
    | [] => d
    | c :: r =>
      if c.q = q && c.n = n then
        match d.smpRunning i with
        | some (c, j) =>
          if c.gambit && !c.kept.isEmpty then (d.updSmp i (fun c => { c with stopping := true })).smpStarved i
          else (d.slotsDiscard i j.nstream).smpEnd i stResigned 0
        | none => d
      else if r.any (fun y => y.q = q && y.n = n) then
        let d := d.updSampler i (fun x => { x with cmds := x.cmds.filter (fun y => !(y.q = q && y.n = n)) })
        (d.complete q n stResigned 0).smpShow i
      else d) d

end Sys2Proof.Machine
end

