-- ==== Sys2Proof/Machine/Admin.lean ====
section
/-! DEFINITION. The host-interface descriptor types (R306): NOP, contexts, queues, memory, sync objects, sync operations and
copies. Numbers and addresses that the device gives out are the lowest that are free (DESIGN CHOICE, log entry 27). -/

namespace Sys2Proof.Machine

/-- A failed check of a host-interface type: INVALID with EVT 0x0B15 (R309). -/
def Dev.hostBad (d : Dev) (q : Nat) (x : Desc) (off : Nat) : Checked := d.badDesc q x.n 0x0B15 (invalidAt 0x0B15 off)

/-- A row of a type that takes effect at its start and then completes with OK. -/
def effectRow (q limit typ : Nat) (s : State) (check : Dev → Nat → Desc → Checked) (f : Dev → Nat → Desc → Dev × Nat) : Out :=
  onUnit "queue" limit q s (fun d => d.runHead q (fun x => x.typ = typ) check
    (fun d q x => let (d, r) := f d q x; d.complete q x.n stOk r))

/-- NOP completes with OK (R305). -/
def execNop (q : Nat) (s : State) : Out :=
  effectRow q 4096 1 s (fun d _ _ => (d, .inr [])) (fun d _ _ => (d, 0))

/-! ### Contexts -/

/-- Contexts a function may hold: its quota, for a VF at most 64 (R299, R321). -/
def Dev.quotaCtxs (d : Dev) (f : Nat) : Nat :=
  let n := d.fld (R.HIF_FN_QUOTA f) F.HIF_FN_QUOTA_MAXCTX
  if f = 0 then n else min n 64

/-- Queues a function may hold. -/
def Dev.quotaQueues (d : Dev) (f : Nat) : Nat :=
  let n := d.fld (R.HIF_FN_QUOTA f) F.HIF_FN_QUOTA_MAXQ
  if f = 0 then n else min n 64

/-- Whether a mode word sets a reserved bit or encoding (R51). -/
def modeBad (m : Nat) : Bool := decide (8 ≤ m) || decide (2 ≤ bits m 2 1)

/-- The checks of CTX_CREATE. -/
def Dev.ctxCreateCheck (d : Dev) (q : Nat) (x : Desc) : Checked :=
  let f := d.queueFn q
  if decide (d.quotaCtxs f ≤ (d.fnCtxs f).length) || decide (1024 ≤ d.ctxs.length) then (d, .inl (stNoResource, 0))
  else if modeBad (x.body 0 8) then d.hostBad q x 0x10
  else if !(decide (1 ≤ x.body 0x10 1) && decide (x.body 0x10 1 ≤ 64)) then d.hostBad q x 0x20
  else (d, .inr [])

/-- CTX_CREATE: a context is created with its arithmetic mode word and SR seed (R51, R306). -/
def execCtxCreate (q : Nat) (s : State) : Out :=
  effectRow q 4160 2 s Dev.ctxCreateCheck (fun d q x =>
    let f := d.queueFn q
    let c := (lowest 1024 (fun i => (look i d.ctxs).isNone)).getD 0
    let y : Ctx := {
      state := .active, fn := f, maxq := x.body 0x10 1, mode := BitVec.ofNat 64 (x.body 0 8), seed := BitVec.ofNat 64 (x.body 8 8),
      astat := 0, faultEvt := 0, faultPc := 0, faultTile := 0, energy := 0, created := d.now }
    ((({ d with ctxs := put c y d.ctxs } : Dev)).fnShow f, c))

/-- A job is closed: purged, its DETERMINISTIC bit cleared, EVT 0x0C11 (R334). -/
def Dev.closeJob (d : Dev) (job : Nat) : Dev :=
  let c := match look job d.jobs with
    | some j => j.ctx
    | none => 0xFFFF
  let d := d.purge job false
  let off := R.NOC_JOB_DET (job / 64)
  let d := d.setBits off ((1 : Word) <<< (job % 64)) 0
  ({ d with jobs := drop1 job d.jobs } : Dev).raise { code := 0x0C11, ctx := c, job := job, fn := d.ctxFn c }

/-- A general timer whose object is freed is disabled, with EVT 0x0C50 (R345). -/
def Dev.timerFreed (d : Dev) (o : Nat) : Dev :=
  (d.timers.filter (fun e => e.2.enable && e.2.obj = o)).foldl (fun d e =>
    ({ d with timers := put e.1 { e.2 with enable := false } d.timers } : Dev).raise
      { code := 0x0C50, unit := 8 + e.1, args := [8 + e.1, bits (d.reg R.MGT_OWNER).toNat (4 * (8 + e.1) + 3) (4 * (8 + e.1)), 2] }) d

/-- Release a sync object. -/
def Dev.freeSync (d : Dev) (o : Nat) : Dev :=
  let d := d.timerFreed o
  let d := (d.setFld (R.SYN_OBJ o) F.SYN_OBJ_ALLOC 0).setFld (R.SYN_OBJ o) F.SYN_OBJ_JOB 0
  { d with syncJobs := d.syncJobs.filter (· ≠ o) }

/-- The sync objects of a context: those whose registers say so. -/
def Dev.ctxSyncs (d : Dev) (c : Nat) : List Nat :=
  (d.regs.filterMap (fun e => if decide (R.SYN_OBJ 0 ≤ e.1) && decide (e.1 < R.SYN_OBJ 16384) then some ((e.1 - R.SYN_OBJ 0) / 8) else none)).filter
    (fun o => d.syncOwned o c)

/-- Whether a context cannot be destroyed yet (R306): a fetched descriptor, a resign in progress, a bound tile, a waited-on
object. -/
def Dev.ctxBusy (d : Dev) (c : Nat) : Bool :=
  (d.ctxQueues c).any (fun q => (d.queue q).any (fun x => !x.fetched.isEmpty)) ||
    d.pipes.any (fun p => p.2.ctx = c) ||
    (d.ctxSyncs c).any (fun o => d.waits.any (fun w => w.obj = o))

/-- The checks of CTX_DESTROY. -/
def Dev.ctxDestroyCheck (d : Dev) (q : Nat) (x : Desc) : Checked :=
  let c := x.body 0 2
  if (look c d.ctxs).any (fun y => y.fn = d.queueFn q) = false then d.hostBad q x 0x10
  else if d.ctxBusy c then (d, .inl (stBusy, 0))
  else (d, .inr [])

/-- A context is destroyed with everything it holds (R187, R306). -/
def Dev.destroyCtx (d : Dev) (c : Nat) : Dev :=
  let f := d.ctxFn c
  let d := { d with queues := d.queues.filter (fun e => isAdmin e.1 || e.2.ctx ≠ c) }
  let d := d.kvDestroy c
  let d := ((d.jobs.filter (fun j => j.2.ctx = c)).map (·.1)).foldl Dev.closeJob d
  let d := (d.ctxSyncs c).foldl Dev.freeSync d
  let d := { d with
    extents := d.extents.filter (fun e => e.ctx ≠ c)
    ctxs := drop1 c d.ctxs
    tiles := d.tiles.map (fun (e : Nat × Tile) => if e.2.lastCtx = some c then (e.1, { e.2 with lastCtx := none }) else e)
    lnk := { d.lnk with
      mirrors := d.lnk.mirrors.filter (fun e => e.2.ctx ≠ c)
      proxies := d.lnk.proxies.filter (fun e => e.2.ctx ≠ c) } }
  (d.fnShow f).orphanExit f

/-- CTX_DESTROY (R306). -/
def execCtxDestroy (q : Nat) (s : State) : Out :=
  effectRow q 4160 3 s Dev.ctxDestroyCheck (fun d _ x => (d.destroyCtx (x.body 0 2), 0))

/-! ### Queues -/

/-- Vectors of a function's MSI-X table (R292). -/
def vectorsOf (f : Nat) : Nat := if f = 0 then 2048 else 32

/-- Whether a ring base is aligned to 4 KiB (R302). -/
def ringOk (a : Nat) : Bool := a % 4096 = 0

/-- The checks of QUEUE_CREATE. -/
def Dev.queueCreateCheck (d : Dev) (q : Nat) (x : Desc) : Checked :=
  let f := d.queueFn q
  let c := x.body 0x10 2
  let full := match look c d.ctxs with
    | some y => y.fn = f && decide (y.maxq ≤ (d.ctxQueues c).length)
    | none => false
  if full || decide (d.quotaQueues f ≤ (d.fnQueues f).length) || decide (4096 ≤ (d.queues.filter (fun e => !isAdmin e.1)).length) then
    (d, .inl (stNoResource, 0))
  else if ringOk (x.body 0 8) = false then d.hostBad q x 0x10
  else if ringOk (x.body 8 8) = false then d.hostBad q x 0x18
  else if (look c d.ctxs).any (fun y => y.fn = f) = false then d.hostBad q x 0x20
  else if !(decide (6 ≤ x.body 0x12 1) && decide (x.body 0x12 1 ≤ 16)) then d.hostBad q x 0x22
  else if 2 < x.body 0x13 1 then d.hostBad q x 0x23
  else if decide (x.body 0x14 2 = 0) || decide (vectorsOf f ≤ x.body 0x14 2) then d.hostBad q x 0x24
  else (d, .inr [])

/-- QUEUE_CREATE: a work queue is created (R306); RESULT holds its number and, for a VF, its local index (R308). -/
def execQueueCreate (q : Nat) (s : State) : Out :=
  effectRow q 4160 4 s Dev.queueCreateCheck (fun d q x =>
    let f := d.queueFn q
    let k := (lowest 4096 (fun i => (d.queue i).isNone)).getD 0
    let loc := if f = 0 then 0
      else (lowest 64 (fun i => d.queues.all (fun e => isAdmin e.1 || e.2.fn ≠ f || e.2.loc ≠ i))).getD 0
    let y : Queue := {
      state := .active, cls := x.body 0x13 1, base := x.body 0x13 1, fn := f, loc := loc, log2 := x.body 0x12 1,
      ctx := x.body 0x10 2, vector := x.body 0x14 2, sq := x.body 0 8, cq := x.body 8 8, tail := 0, fetch := 0, head := 0,
      written := 0, dropped := 0, lastService := 0, fetched := [], held := [], recordLost := false, resignAtOrphan := false,
      wasOrphaned := false, orphanedDone := 0, epoch := 0 }
    let d := ({ d with pwr := { d.pwr with queueNj := drop1 k d.pwr.queueNj } } : Dev).setReg (R.PWR_Q_ENERGY k) 0
    ((({ d with queues := put k y d.queues } : Dev)).fnShow f, k + loc * 2 ^ 16))

/-- The queue that QUEUE names for the function of an admin queue. -/
def Dev.namedQueue (d : Dev) (q k : Nat) : Option Nat := d.pageQueue (d.queueFn q) k

/-- The checks of QUEUE_DESTROY. -/
def Dev.queueDestroyCheck (d : Dev) (q : Nat) (x : Desc) : Checked :=
  match (d.namedQueue q (x.body 0 2)).bind d.queue with
  | none => d.hostBad q x 0x10
  | some y =>
    if !y.fetched.isEmpty || y.state = .orphaned || y.state = .resigning then (d, .inl (stBusy, 0)) else (d, .inr [])

/-- A queue is removed. -/
def Dev.removeQueue (d : Dev) (k : Nat) : Dev :=
  let f := d.queueFn k
  ((({ d with queues := drop1 k d.queues } : Dev)).fnShow f).orphanExit f

/-- QUEUE_DESTROY (R306). -/
def execQueueDestroy (q : Nat) (s : State) : Out :=
  effectRow q 4160 5 s Dev.queueDestroyCheck (fun d q x =>
    (match d.namedQueue q (x.body 0 2) with
      | some k => d.removeQueue k
      | none => d, 0))

/-- The checks of QUEUE_ADOPT: a queue that is not ORPHANED is refused with BUSY (R319) (DEDUCED, log entry 87). -/
def Dev.queueAdoptCheck (d : Dev) (q : Nat) (x : Desc) : Checked :=
  match (d.namedQueue q (x.body 0x10 2)).bind d.queue with
  | none => d.hostBad q x 0x20
  | some y =>
    if ringOk (x.body 0 8) = false then d.hostBad q x 0x10
    else if ringOk (x.body 8 8) = false then d.hostBad q x 0x18
    else if y.state ≠ .orphaned || y.recordLost then (d, .inl (stBusy, 0))
    else (d, .inr [])

/-- The records held for a queue, in completion order, with HELD set. -/
def Dev.writeHeld (d : Dev) (k : Nat) : List (List Byte) → Dev
  | [] => d
  | r :: rs =>
    match d.queue k with
    | none => d
    | some x => if x.recordLost then d else (d.writeRecord k x r true false).writeHeld k rs

/-- A queue is adopted: new rings, its held records written, ACTIVE, EVT 0x0B31 (R319). -/
def Dev.adopt (d : Dev) (k sq cq : Nat) : Dev :=
  let held := match d.queue k with
    | some x => x.held
    | none => []
  let f := d.queueFn k
  let d := d.updQueue k (fun x => { x with
    state := .active, sq := sq, cq := cq, tail := 0, fetch := 0, head := 0, written := 0, held := [], epoch := x.epoch + 1 })
  let d := (d.writeHeld k held).raise { code := 0x0B31, fn := f, ctx := d.queueCtx k, args := [k] }
  d.orphanExit f

/-- QUEUE_ADOPT (R319). -/
def execQueueAdopt (q : Nat) (s : State) : Out :=
  effectRow q 4160 6 s Dev.queueAdoptCheck (fun d q x =>
    match d.namedQueue q (x.body 0x10 2) with
    | some k => (d.adopt k (x.body 0 8) (x.body 8 8), 0)
    | none => (d, 0))

/-! ### Memory (R130, R157, R306) -/

/-- 2 MiB. -/
def mib2 : Nat := 0x200000

/-- Bytes that a function's contexts hold. -/
def Dev.fnBytes (d : Dev) (f : Nat) : Nat :=
  ((d.extents.filter (fun e => d.ctxFn e.ctx = f)).map (·.len)).foldl (· + ·) 0

/-- The region that KIND and WHERE name: first address and end; none where it admits no extent (R157). -/
def Dev.allocRegion (d : Dev) (kind where_ : Nat) : Option (Nat × Nat) :=
  match kind with
  | 0 => if d.sliceState where_ < 2 then some (where_ * gib, (where_ + 1) * gib) else none
  | 1 =>
    if d.mem.stacksRetired.contains where_ || d.fld (R.MEM_FMC_STAT where_) F.MEM_FMC_STAT_RETIRE_FULL = 1 then none
    else some (stackBase where_ + d.computeBytes, stackBase (where_ + 1))
  | _ => if d.mem.stacksRetired.contains where_ then none else some (stackBase where_, stackBase where_ + d.computeBytes)

/-- What an extent in a PROTECTED region must keep clear of beside the other extents: 2 MiB ranges with a retired page, the
evacuation frames and the page-engine area (R157, R185). -/
def Dev.allocAvoid (d : Dev) (kind : Nat) : List (Nat × Nat) :=
  if kind = 1 then
    d.mem.retired.map (fun p => (p * 4096 / mib2 * mib2, mib2)) ++ d.frames.map (fun f => (f, gib)) ++
      (if d.fld R.KVP_CFG F.KVP_CFG_AVAIL = 1 then [(d.fld R.KVP_CFG F.KVP_CFG_AREA, 512 * 1024 * 1024)] else [])
  else []

/-- The lowest base at which `len` bytes fit in [lo, hi) clear of every taken range. -/
def placeRange (lo hi len : Nat) (taken : List (Nat × Nat)) : Option Nat :=
  let ends := taken.map (fun t => roundUp (t.1 + t.2) mib2)
  let tries := sortBy (fun a b => decide (a < b)) (lo :: ends.filter (fun a => decide (lo ≤ a)))
  tries.find? (fun a => decide (a + len ≤ hi) && taken.all (fun t => apart a len t.1 t.2))

/-- Where an extent would go. -/
def Dev.allocBase (d : Dev) (kind where_ len : Nat) : Option Nat :=
  match d.allocRegion kind where_ with
  | none => none
  | some (lo, hi) => placeRange lo hi len (d.extents.map (fun e => (e.base, e.len)) ++ d.allocAvoid kind)

/-- The checks of MEM_ALLOC. -/
def Dev.memAllocCheck (d : Dev) (q : Nat) (x : Desc) : Checked :=
  let c := d.queueCtx q
  let f := d.queueFn q
  let kind := x.body 0 1
  let len := x.body 8 8
  if decide (1024 ≤ (d.extents.filter (fun e => e.ctx = c)).length) ||
      decide (d.fld (R.HIF_FN_QUOTA f) F.HIF_FN_QUOTA_MEM_GIB * gib < d.fnBytes f + len) then (d, .inl (stNoResource, 0))
  else if 2 < kind then d.hostBad q x 0x10
  else if kind ≠ 0 && decide (16 ≤ x.body 1 1) then d.hostBad q x 0x11
  else if len = 0 || len % mib2 ≠ 0 then d.hostBad q x 0x18
  else if (d.allocBase kind (x.body 1 1) len).isNone then (d, .inl (stNoResource, 0))
  else (d, .inr [])

/-- MEM_ALLOC: an extent is zeroed and granted (R130, R157). -/
def execMemAlloc (q : Nat) (s : State) : Out :=
  effectRow q 4096 7 s Dev.memAllocCheck (fun d q x =>
    let len := x.body 8 8
    match d.allocBase (x.body 0 1) (x.body 1 1) len with
    | none => (d, 0)
    | some a =>
      let d := d.memZero a len
      ({ d with extents := d.extents ++ [⟨a, len, d.queueCtx q, x.body 0 1⟩] }, a))

/-- The arrays of a tensor: the working copy, and those of the owned elements an update uses (R223). -/
def Tensor.arrays (x : Tensor) (update : Bool) : List (Nat × Nat) :=
  [(x.work, x.workBytes), (x.master, 4 * x.owned), (x.urec, 32 * (x.units.2 - x.units.1))] ++
    (if update then [(x.grad, x.gradBytes)] ++ (if x.m1 = 0 then [] else [(x.m1, 4 * x.owned)]) ++
      (if x.m2 = 0 then [] else [(x.m2, 4 * x.owned)]) else [])

/-- A named table as the checks read it, or as memory holds it while they have not. -/
def Dev.tableOf (d : Dev) (x : Desc) (a len : Nat) : List Byte := if x.table.isEmpty then d.memBytes a len else x.table.take len

/-- The memory that an in-stack command uses (R159, R171). -/
def Dev.pimUses (d : Dev) (x : Desc) : List (Nat × Nat) :=
  if pimOp x = 8 then
    [(pimA x, poolTable x), (pimD x, poolOut x), (pimC x, (poolBags x + 1) * 4),
      (pimB x, d.memNat (pimC x + 4 * poolBags x) 4 * (if pimFlag x 4 then 8 else 4))]
  else
    (pimSources x ++ [pimD x]).map (fun a => (a, pimLen x)) ++ (if pimFlag x 2 then [(pimSumAt x, pimLen x / 1024)] else [])

/-- The memory that a page-engine command names: a map, an append list, frames (R189). -/
def Desc.kvUses (x : Desc) : List (Nat × Nat) :=
  match x.body 0 1 with
  | 1 => [(kvAddr x, mapBytes (kvNlayer x) (bits (kvArg x) 47 32))]
  | 3 => [(kvAddr x, kvCount x * frameSize)]
  | 4 => [(kvAddr x, kvCount x * 16)]
  | 5 => [(kvAddr x, 1)]
  | _ => []

/-- The memory that a sampler descriptor names, its history slots and draft records included (R204, R208, R211). -/
def Dev.smpUses (d : Dev) (x : Desc) : List (Nat × Nat) :=
  let j := x.smp
  let table := d.memBytes j.rowtab (j.batch * j.entrySize) ++ d.memBytes j.strtab (16 * j.nstream)
  let j : SmpJob := if x.table.isEmpty then { j with table := table } else j
  [(j.rowtab, j.batch * j.entrySize), (j.strtab, 16 * j.nstream), (j.out, j.batch * j.outSize)] ++
    (if j.histEn then (List.range j.batch).map (fun r => (j.bitmap r 0, 32768 * j.nstream)) else []) ++
    (if j.draftRec then [(j.drec, j.batch * j.nstream * 8256)] else []) ++
    j.positions.flatMap (fun p => (List.range j.nstream).map (fun k => (j.draftAt p.1 p.2 k, 8256)))

/-- The memory that an update or audit descriptor names, with the arrays of its tensors (R223, R224, R239). -/
def Dev.updUses (d : Dev) (x : Desc) : List (Nat × Nat) :=
  let n := 64 * x.body 6 2
  let ts := tensorsOf (d.tableOf x (x.body 8 8) n)
  [(x.body 8 8, n)] ++ ts.flatMap (fun t => t.arrays (x.typ = 18)) ++
    (if x.typ = 18 then
      [(x.body 0x10 8, 16 + 4 * d.memNat (x.body 0x10 8 + 6) 1), (x.body 0x18 8, 44)] ++
        (if x.body 0x20 8 = 0 then [] else [(x.body 0x20 8, 8)])
    else [(x.body 0x10 8, 2 * ((ts.map Tensor.reps).headD 0)), (x.body 0x20 8, 65544)])

/-- The memory that a collective descriptor names, its member table's areas included (R245, R246). -/
def Dev.collUses (d : Dev) (x : Desc) : List (Nat × Nat) :=
  let body := x.raw.drop 16
  let at_ := natAt body 0x18 8
  let n := 64 + 16 * natAt body 0x28 2
  let c : CollDesc := ⟨body, d.tableOf x at_ n⟩
  [(c.src, c.srcLen), (c.dst, c.dstLen), (at_, n), (natAt c.table 0x18 8, natAt c.table 0x20 8), (c.hashesAt, c.hashLen)] ++
    (if c.status = 0 then [] else [(c.status, 0x40 + (c.nmemb + 7) / 8)])

/-- The memory that a descriptor uses, named in its body or in a table it names (R306). -/
def Dev.descUses (d : Dev) (x : Desc) : List (Nat × Nat) :=
  let flag : Nat → Nat → Bool := fun off i => (x.body off 1).testBit i
  match x.typ with
  | 12 =>
    (if flag 0x18 0 then [] else [(x.body 0 8, x.body 0x10 8)]) ++ (if flag 0x18 1 then [] else [(x.body 8 8, x.body 0x10 8)])
  | 14 => d.pimUses x
  | 15 => x.kvUses
  | 16 => d.smpUses x
  | 17 => d.smpUses x
  | 18 => d.updUses x
  | 19 => d.updUses x
  | 20 => d.collUses x
  | 21 => [(x.body 8 8, x.body 0x18 8)]
  | _ => []

/-- Two ranges share a byte. -/
def meet (a la b lb : Nat) : Bool := decide (0 < la) && decide (0 < lb) && !(apart a la b lb)

/-- Whether a running or fetched descriptor of a context uses memory of a range: what a descriptor names, and what the operands of
a pipeline's tiles span (R306). -/
def Dev.rangeUsed (d : Dev) (c a len : Nat) : Bool :=
  (d.ctxQueues c).any (fun q => (d.queue q).any (fun x => x.fetched.any (fun y => (d.descUses y).any (fun m => meet a len m.1 m.2)))) ||
    d.pipes.any (fun p => p.2.ctx = c && p.2.tiles.any (fun t =>
      (d.tile t).opds.any (fun o => o.mem && ((d.tile t).rowAddrs o o.rows).any (fun r => meet a len r o.rowBytes))))

/-- Whether an extent holds frames of a page pool, or the map of an open sequence (R306). -/
def Dev.rangePages (d : Dev) (a len : Nat) : Bool :=
  (d.kvp.pooled.any (fun f => decide (a ≤ f.2) && decide (f.2 < a + len))) ||
    (d.kvp.seqs.any (fun s => !(apart a len s.2.map (mapBytes s.2.layers s.2.maxPages))))

/-- The checks of MEM_FREE. -/
def Dev.memFreeCheck (d : Dev) (q : Nat) (x : Desc) : Checked :=
  let c := d.queueCtx q
  match d.extents.find? (fun e => e.ctx = c && e.base = x.body 0 8) with
  | none => d.hostBad q x 0x10
  | some e => if d.rangePages e.base e.len || d.rangeUsed c e.base e.len then (d, .inl (stBusy, 0)) else (d, .inr [])

/-- MEM_FREE: one whole extent is released (R306). -/
def execMemFree (q : Nat) (s : State) : Out :=
  effectRow q 4096 8 s Dev.memFreeCheck (fun d q x =>
    let c := d.queueCtx q
    ({ d with extents := d.extents.filter (fun e => !(e.ctx = c && e.base = x.body 0 8)) }, 0))

/-! ### Sync objects (R95, R306) -/

/-- Whether an object is allocated. -/
def Dev.syncAlloc (d : Dev) (o : Nat) : Bool := d.fld (R.SYN_OBJ o) F.SYN_OBJ_ALLOC = 1

/-- The lowest run of `n` free objects: it starts at 0 or behind an allocated object. -/
def Dev.freeSyncs (d : Dev) (n : Nat) : Option Nat :=
  let used := (d.regs.filterMap (fun e =>
    if decide (R.SYN_OBJ 0 ≤ e.1) && decide (e.1 < R.SYN_OBJ 16384) then some ((e.1 - R.SYN_OBJ 0) / 8) else none)).filter d.syncAlloc
  let tries := sortBy (fun a b => decide (a < b)) (0 :: used.map (· + 1))
  tries.find? (fun a => decide (a + n ≤ 16384) && used.all (fun o => decide (o < a) || decide (a + n ≤ o)))

/-- The checks of SYNC_ALLOC. -/
def Dev.syncAllocCheck (d : Dev) (q : Nat) (x : Desc) : Checked :=
  let n := x.body 0 2
  if (d.freeSyncs n).isNone then (d, .inl (stNoResource, 0))
  else if decide (n = 0) || decide (1024 < n) then d.hostBad q x 0x10
  else (d, .inr [])

/-- SYNC_ALLOC: contiguous objects are granted at VALUE 0, WAITERS 0, with the JOB of the body (R306). -/
def execSyncAlloc (q : Nat) (s : State) : Out :=
  effectRow q 4096 9 s Dev.syncAllocCheck (fun d q x =>
    match d.freeSyncs (x.body 0 2) with
    | none => (d, 0)
    | some a =>
      let c := d.queueCtx q
      let job := x.body 2 2
      let os := (List.range (x.body 0 2)).map (· + a)
      let d := os.foldl (fun d o =>
        d.setReg (R.SYN_OBJ o) (BitVec.ofNat 64 (c * 2 ^ 32 + 2 ^ 42 + (job % 4096) * 2 ^ 44))) d
      ({ d with syncJobs := if job.testBit 15 then d.syncJobs ++ os else d.syncJobs }, a))

/-- The checks of SYNC_FREE: every object is the context's and no one waits on it. -/
def Dev.syncFreeCheck (d : Dev) (q : Nat) (x : Desc) : Checked :=
  let n := x.body 2 2
  let os := (List.range n).map (· + x.body 0 2)
  if decide (n = 0) || decide (1024 < n) then d.hostBad q x 0x12
  else if os.any (fun o => !d.syncOwned o (d.queueCtx q)) then d.hostBad q x 0x10
  else if os.any (fun o => d.waits.any (fun w => w.obj = o)) then (d, .inl (stBusy, 0))
  else (d, .inr [])

/-- SYNC_FREE: sync objects are released (R306). -/
def execSyncFree (q : Nat) (s : State) : Out :=
  effectRow q 4096 10 s Dev.syncFreeCheck (fun d _ x =>
    (((List.range (x.body 2 2)).map (· + x.body 0 2)).foldl Dev.freeSync d, 0))

/-- The checks of SYNC_OP: a reserved operation, an object that is not the context's (R97, R306), a window out of range. -/
def Dev.syncOpCheck (d : Dev) (q : Nat) (x : Desc) : Checked :=
  if !(decide (1 ≤ x.body 0 1) && decide (x.body 0 1 ≤ 3)) then d.hostBad q x 0x10
  else if d.syncOwned (x.body 2 2 % 2 ^ 14) (d.queueCtx q) = false then d.hostBad q x 0x12
  else if 60000000 < x.body 8 4 then d.hostBad q x 0x18
  else (d, .inr [])

/-- A row of SYNC_OP; a reserved OP is refused by whichever row meets it. -/
def syncOpRow (q op : Nat) (s : State) (f : Dev → Nat → Nat → Dev) : Out :=
  onUnit "queue" 4096 q s (fun d => d.runHead q
    (fun x => x.typ = 11 && (x.body 0 1 = op || x.body 0 1 = 0 || decide (3 < x.body 0 1)))
    Dev.syncOpCheck
    (fun d q x => (f d (x.body 2 2 % 2 ^ 14) (x.body 4 4)).complete q x.n stOk 0))

/-- SYNC_OP SIGNAL: the host adds VALUE to an object (R95, R306). -/
def execSyncOpSignal (q : Nat) (s : State) : Out := syncOpRow q 1 s (fun d o v => d.syncSignal o v)

/-- SYNC_OP WAIT: the host waits for VALUE within WAIT_US; the wait's end completes the descriptor (R95, R96, R306). -/
def execSyncOpWait (q : Nat) (s : State) : Out := syncOpRow q 2 s (fun d _ _ => d)

/-- SYNC_OP SRESET: the object becomes 0 (R95, R306). -/
def execSyncOpSreset (q : Nat) (s : State) : Out := syncOpRow q 3 s (fun d o _ => d.syncReset o)

/-! ### Copies (R143, R144, R295, R306) -/

/-- SRC_HOST. -/
def copySrcHost (x : Desc) : Bool := (x.body 0x18 1).testBit 0
/-- DST_HOST. -/
def copyDstHost (x : Desc) : Bool := (x.body 0x18 1).testBit 1

/-- The checks of COPY. -/
def Dev.copyCheck (d : Dev) (q : Nat) (x : Desc) : Checked :=
  let c := d.queueCtx q
  let len := x.body 0x10 8
  if copySrcHost x && copyDstHost x then d.hostBad q x 0x28
  else if decide (len = 0) || decide (2 ^ 40 < len) then d.hostBad q x 0x20
  else if !copySrcHost x && !d.owns c (x.body 0 8) len then d.hostBad q x 0x10
  else if !copyDstHost x && !d.owns c (x.body 8 8) len then d.hostBad q x 0x18
  else (d, .inr [])

/-- COPY starts (R306); what it moves is COPY_DONE's. -/
def execCopy (q : Nat) (s : State) : Out :=
  onUnit "queue" 4096 q s (fun d => d.runHead q (fun x => x.typ = 12) Dev.copyCheck (fun d _ _ => d))

/-- Move bytes inside device memory in ascending address order: where the destination begins inside the source, what has been
written is read again, so the run before it repeats. -/
def Dev.moveUp (d : Dev) (src dst : Nat) : (fuel len : Nat) → Dev
  | 0, _ => d
  | k + 1, len =>
    if len = 0 then d
    else if decide (src < dst) && decide (dst < src + len) then
      let n := dst - src
      (d.memMove src n dst).moveUp src (dst + n) k (len - n)
    else d.memMove src len dst

/-- Move the first `n` bytes of a copy, unchecked. -/
def Dev.copyMove (d : Dev) (f : Nat) (x : Desc) (n : Nat) : Dev :=
  let src := x.body 0 8
  let dst := x.body 8 8
  if copySrcHost x then { d with mem := { d.mem with cells := copyCells d.host.mem (hostKey f src) n d.mem.cells dst } }
  else if copyDstHost x then
    { d with host := { d.host with mem := copyCells d.mem.cells src n d.host.mem (hostKey f dst) } }
  else d.moveUp src dst 42 n

/-- The checks of device memory that a copy of `n` bytes meets: the bytes that may be moved, and the granule that fails. -/
def Dev.copyGuard (d : Dev) (c : Nat) (x : Desc) (n : Nat) : Dev × Nat × Option Nat :=
  let src := x.body 0 8
  let dst := x.body 8 8
  let reach : Nat → Option Nat → Nat := fun base g => match g with
    | some a => a - base
    | none => n
  let r := if copySrcHost x then n else reach src (d.memCheckRead { ctx := c } src n).2
  let w := if copyDstHost x then n else reach dst (d.writeGranules { ctx := c } dst n (d.special dst (dst + n))).2
  if r ≤ w then
    let (d, g) := if copySrcHost x then (d, none) else d.memCheckRead { ctx := c } src n
    let (d, _) := if copyDstHost x || decide (r = 0) then (d, none) else d.writeGranules { ctx := c } dst r (d.special dst (dst + r))
    (d, r, g)
  else
    let (d, _) := if copySrcHost x || decide (w = 0) then (d, none) else d.memCheckRead { ctx := c } src w
    let (d, g) := d.writeGranules { ctx := c } dst n (d.special dst (dst + n))
    (d, w, g)

/-- The copy is made: the status and result it completes with (R143, R295, R317). -/
def Dev.copyRun (d : Dev) (q : Nat) (x : Desc) : Dev × Nat × Nat :=
  let f := d.queueFn q
  let len := x.body 0x10 8
  let iova := if copySrcHost x then x.body 0 8 else x.body 8 8
  let host := copySrcHost x || copyDstHost x
  if host && d.suppressed q then (d, stOrphaned, 0)
  else if host && !d.hostReach f iova len then (d.hostFailed q x.n, stAccess, iova)
  else
    let (d, n, g) := d.copyGuard (d.queueCtx q) x len
    let d := d.copyMove f x n
    match g with
    | some a => (d, stUe, a)
    | none => (d, stOk, 0)

/-- COPY_DONE: a copy has moved its bytes and completes (R306). -/
def execCopyDone (q n : Nat) (s : State) : Out :=
  onUnit "queue" 4096 q s (fun d =>
    match d.desc q n with
    | none => d
    | some x =>
      if x.typ = 12 && x.phase == Phase.running then
        let (d, st, res) := d.copyRun q x
        d.complete q n st res
      else d)

/-- A resign covers a running copy: it stops at a 4 KiB boundary with every byte before it written (R312). At which one it
stands is a free value (DESIGN CHOICE, log entry 28). -/
def Dev.copyResign (d : Dev) (q : Nat) (x : Desc) : Dev :=
  let f := d.queueFn q
  let len := x.body 0x10 8
  let n := min len (Config.copyPages d.fresh % (len / 4096 + 1) * 4096)
  let d := d.drew
  let host := copySrcHost x || copyDstHost x
  let iova := if copySrcHost x then x.body 0 8 else x.body 8 8
  let ok := n ≠ 0 && (!host || (!d.suppressed q && d.hostReach f iova n))
  let d := if ok then
      let (d, m, _) := d.copyGuard (d.queueCtx q) x n
      d.copyMove f x m
    else d
  d.complete q x.n stResigned 0

end Sys2Proof.Machine
end

