-- ==== Sys2Proof/Machine/Array.lean ====
section
/-! DEFINITION. The matrix array of a tile: weight loads (R58, R59, R66), issues with the scales and the adder tree (R42,
R44 to R46, R55, R83), latent read mode and the distance bias (R67, R68, R181, R182), drains (R60) and the ramp (R61). -/

namespace Sys2Proof.Machine

/-- K rows per issue of a format (R55). -/
def rateK (fmt : Nat) : Nat :=
  match fmtBits fmt with
  | 4 => 128 | 8 => 64 | 6 => 64 | 16 => 32 | _ => 4

/-- Bytes of a K row of 128 elements (R58). -/
def rowBytesOf (fmt : Nat) : Nat := 16 * fmtBits fmt

/-- Whether the stride of a straight load keeps the layout of R58. -/
def strideOk (fmt stride : Nat) : Bool :=
  if fmtBits fmt = 6 then stride = 96
  else stride % 128 = 0 && decide (max 128 (rowBytesOf fmt) ≤ stride)

/-- Where K row r of a straight load lies (R58). -/
def straightRow (fmt base stride r : Nat) : Nat :=
  match fmtBits fmt with
  | 4 => base + r / 2 * stride + r % 2 * 64
  | 6 => base + 96 * r
  | _ => base + r * stride

/-- The fields of the array slot (R82). -/
def aWset (w : Nat) : Nat := b2n (w.testBit 4)
/-- CLR. -/
def aClr (w : Nat) : Bool := w.testBit 5
/-- OPD. -/
def aOpd (w : Nat) : Nat := bits w 13 6
/-- ENT. -/
def aEnt (w : Nat) : Nat := bits w 21 14
/-- CREG. -/
def aCreg (w : Nat) : Nat := bits w 26 22

/-- The count M of an array operation; none when R83 stops the program. -/
def Tile.count (x : Tile) (w : Nat) : Option Nat :=
  let m := if aCreg w = 0 then 64 else (x.reg (aCreg w)).toNat
  if m = 0 || decide (256 < m) || decide (256 < aEnt w + m) then none else some m

/-- A weight set of a tile. -/
def Tile.wset (x : Tile) (i : Nat) : WSet := if i = 0 then x.setA else x.setB

/-- Store a weight set. -/
def Tile.setWset (x : Tile) (i : Nat) (s : WSet) : Tile := if i = 0 then { x with setA := s } else { x with setB := s }

/-- Split a list into runs of n. -/
def runsOf {α : Type} (n : Nat) : (fuel : Nat) → List α → List (List α)
  | 0, _ => []
  | k + 1, l => if l.isEmpty then [] else l.take n :: runsOf n k (l.drop n)

/-- The transpose of rows that all hold n entries. -/
def columnsOf (n : Nat) (rows : List (List Nat)) : List (List Nat) :=
  (List.range n).map (fun j => rows.map (fun r => r.getD j 0))

/-- Read the scale bytes of a weight set: K/32 × 128 bytes in the block order of the elements (R38, R58), as rows by block
(DEDUCED, log entry 35). -/
def Dev.loadScales (d : Dev) (t : Nat) (x : Tile) (o : Operand) (straight : Bool) : Dev × Sum Stop (List (List Nat)) :=
  if o.blocks = false then (d, .inr [])
  else
    let nb := rateK o.fmt / 32
    match d.sramRead t (x.packedAddr o) (nb * 128) with
    | (d, .inl e) => (d, .inl e)
    | (d, .inr bs) =>
      let ns := bs.map BitVec.toNat
      (d, .inr (if straight then runsOf 128 nb ns else columnsOf nb (runsOf nb 128 ns)))

/-- The time of a number of array cycles of a tile in ns, rounded up. -/
def Dev.arrayCycles (d : Dev) (t n : Nat) : Nat :=
  let mhz := max 1 (d.fld (R.CLU_PWR_CFG (t / 16)) F.CLU_PWR_CFG_FREQ_MHZ)
  (n * 1000 + mhz - 1) / mhz

/-- A weight set is filled: its rows and scales (R58, R66); the load is in progress for 64 cycles (R58, R76). -/
def Dev.fillSet (d : Dev) (t i : Nat) (x : Tile) (o : Operand) (straight : Bool) (rows : List (List Nat)) : Dev :=
  match d.loadScales t x o straight with
  | (d, .inl e) => d.tileStop t e
  | (d, .inr sc) =>
    d.opDone t (fun x => { x with loading := some (if straight then 1 else 2, d.now + d.arrayCycles t 64) }.setWset i
      { loaded := true, fmt := o.fmt, tscale := o.scale, bscaled := o.blocks, rows := rows, scales := sc })

/-- LOADW: a straight load; it breaks the layout rule before any cell changes (R58). -/
def execLoadw (t : Nat) (err : Upsets) (s : State) : Out :=
  tileRow t 1 1 s (fun d x w =>
    let d := d.upsets t err
    let o := x.opd (aOpd w)
    let base := x.rowAddr o 0
    match o.fault with
    | some e => d.tileStop t e
    | none =>
      if base % 128 ≠ 0 || strideOk o.fmt o.stride = false then d.tileStop t (.fault 0x0133)
      else
        let addrs := (List.range (rateK o.fmt)).map (straightRow o.fmt base o.stride)
        match d.runsOk t false (rowBytesOf o.fmt) addrs with
        | some e => d.tileStop t e
        | none =>
          match d.runsRead t false (rowBytesOf o.fmt) addrs with
          | (d, .inl e) => d.tileStop t e
          | (d, .inr rows) => d.fillSet t (aWset w) x o true (rows.map (unpackCodes o.fmt 128)))

/-- LOADWT: a transposed load of 128 rows of K elements in one contiguous block (R58) (DEDUCED, log entry 33). -/
def execLoadwt (t : Nat) (err : Upsets) (s : State) : Out :=
  tileRow t 1 2 s (fun d x w =>
    let d := d.upsets t err
    let o := x.opd (aOpd w)
    let base := x.rowAddr o 0
    match o.fault with
    | some e => d.tileStop t e
    | none =>
      if base % 128 ≠ 0 then d.tileStop t (.fault 0x0133)
      else
        let k := rateK o.fmt
        let rb := k * fmtBits o.fmt / 8
        match d.sramRead t base (128 * rb) with
        | (d, .inl e) => d.tileStop t e
        | (d, .inr bs) =>
          let ns := (runsOf rb 128 bs).map (unpackCodes o.fmt k)
          d.fillSet t (aWset w) x o false (columnsOf k ns))

/-! ### Issues -/

/-- A class or format mixture that the array refuses (R37): integers with floats, FP32 with anything else. -/
def pairBad (fa fw : Nat) : Bool := fmtIsInt fa != fmtIsInt fw || ((fa = 0 || fw = 0) && fa ≠ fw)

/-- The values of a block of codes under its scales, or plain (R34, R39). -/
def termValues (fmt : Nat) (blocks : Bool) (codes scales : List Nat) : List Fp :=
  (List.range codes.length).zipWith (fun i c =>
    if blocks then blockDecode fmt c (scales.getD (i / 32) 0) else fpDecode fmt c) codes

/-- The terms of one column: one product per cell, in the 4-bit formats two added exactly (R44, R55). -/
def cellTerms (k : Nat) (ps : List Fp) : List Fp :=
  if k = 128 then (ps.take 64).zipWith Fp.add (ps.drop 64) else ps

/-- An exact integer. -/
def Fp.toInt : Fp → Int
  | .fin s m e => let v : Int := ((if 0 ≤ e then m * 2 ^ e.toNat else m / 2 ^ (-e).toNat : Nat) : Int); if s then -v else v
  | _ => 0

/-- Exact sums of the row groups of 32 products of integers, each scaled by its blocks (R46). -/
def groupTerms (fa fw : Nat) (ba bw : Bool) (ca cw sa sw : List Nat) (k : Nat) : List Fp :=
  (List.range (k / 32)).map (fun g =>
    let ia := ((ca.drop (32 * g)).take 32).map (fun c => (fpDecode fa c).toInt)
    let iw := ((cw.drop (32 * g)).take 32).map (fun c => (fpDecode fw c).toInt)
    let sum := (ia.zipWith (· * ·) iw).foldl (· + ·) 0
    let ea := if ba then blockExp (sa.getD g 0) else some 0
    let ew := if bw then blockExp (sw.getD g 0) else some 0
    match ea, ew with
    | some a, some b => (Fp.ofInt sum).scale (a + b - (if ba then 6 else 0) - (if bw then 6 else 0))
    | _, _ => .nan)

/-- What one issue gives a column: an exact integer, or an FP32 tree result (R44, R46). -/
def columnResult (fa : Nat) (ba : Bool) (ca sa : List Nat) (set : WSet) (k col : Nat) : Sum Int F32 :=
  let cw := (set.rows.take k).map (fun r => r.getD col 0)
  let sw := set.scales.map (fun r => r.getD col 0)
  if fmtIsInt fa then
    if !ba && !set.bscaled then
      .inl ((ca.zipWith (fun a w => (fpDecode fa a).toInt * (fpDecode set.fmt w).toInt) cw).foldl (· + ·) 0)
    else .inr (treeSum (groupTerms fa set.fmt ba set.bscaled ca cw sa sw k))
  else
    let pa := termValues fa ba ca sa
    let pw := termValues set.fmt set.bscaled cw sw
    .inr (treeSum (cellTerms k (pa.zipWith Fp.mul pw)))

/-- An INT32 accumulation: saturates (R46). The flag says whether it did. -/
def intAcc (old : F32) (v : Int) : F32 × Bool :=
  let x := old.toInt + v
  let y := max (-2147483648) (min 2147483647 x)
  (BitVec.ofInt 32 y, x ≠ y)

/-- The accumulator entry of a tile; one never written reads +0 (R45). -/
def Tile.entry (x : Tile) (e : Nat) : Acc := (look e x.acc).getD ⟨List.replicate 128 0, false, false, f32One⟩

/-- One column of an entry takes a result. -/
def accColumn (int : Bool) (old : F32) (r : Sum Int F32) : F32 × Bool :=
  match r with
  | .inl v => intAcc (if int then old else Config.accAs true old) v
  | .inr v => (f32Add (if int then Config.accAs false old else old) v, false)

/-- Add one issue's column results to entry e. `fresh` is set when the entry starts from +0 with this issue; `bias` is what
each column starts from then (R45, R56, R68, R182). -/
def Tile.accumulate (x : Tile) (e : Nat) (fresh latent : Bool) (bias : List F32) (prod : F32)
    (rs : List (Sum Int F32)) : Tile × Bool :=
  let old := x.entry e
  let isInt := rs.any (fun r => match r with | .inl _ => true | .inr _ => false)
  let known := (look e x.acc).isSome
  let start := if fresh then (if bias.isEmpty then List.replicate 128 (0 : F32) else bias) else old.cols
  let int := if (fresh && bias.isEmpty) || !known then isInt else if fresh then false else old.int
  let cs := start.zipWith (fun c r => accColumn int c r) rs
  let cols := cs.map (·.1) ++ start.drop rs.length
  let prod := if fresh || !known || old.prod = prod then prod else Config.mixedScale old.prod prod
  let lat := if latent then true else if fresh then false else old.latent
  ({ x with acc := put e { cols := cols, latent := lat, int := isInt, prod := prod } x.acc }, cs.any (·.2))

/-- Issues 0 to M − 1: issue i takes activation row i and updates entry ENT + i. -/
def Tile.issueRows (x : Tile) (set : WSet) (o : Operand) (k ent width : Nat) (clr latent : Bool) (prod : F32) :
    List (Nat × List Nat × List Nat × List F32) → Tile × Bool
  | [] => (x, false)
  | (i, codes, scales, bias) :: r =>
    let rs := (List.range width).map (columnResult o.fmt o.blocks codes scales set k)
    let (x, sat) := x.accumulate (ent + i) clr latent bias prod rs
    let (x, more) := x.issueRows set o k ent width clr latent prod r
    (x, sat || more)

/-- The array counts its issues and leaves rest (R61). -/
def Dev.countIssues (d : Dev) (t m wset : Nat) : Dev :=
  let d := d.wrapFld (R.TIL_ISSUE_CNT t) F.TIL_ISSUE_CNT_COUNT m
  let d := d.setFld (R.TIL_ARRAY_STAT t) F.TIL_ARRAY_STAT_WSET wset
  let d := if d.fld (R.TIL_ARRAY_STAT t) F.TIL_ARRAY_STAT_LEVEL = 0 then
      (d.setFld (R.TIL_ARRAY_STAT t) F.TIL_ARRAY_STAT_LEVEL 1).updTile t (fun x => { x with credits := 0 })
    else d
  d.updTile t (fun x => { x with slots := x.slots + m })

/-- The checks of an issue before any takes effect: count, format, set, pairing, tensor scale (R33, R37, R41, R59, R83). -/
def Tile.issueCheck (x : Tile) (w : Nat) : Sum Stop Nat :=
  let o := x.opd (aOpd w)
  let set := x.wset (aWset w)
  match x.count w with
  | none => .inl (.fault 0x0208)
  | some m =>
    match o.fault with
    | some e => .inl e
    | none =>
      if set.loaded = false then .inl (.fault 0x0132)
      else if pairBad o.fmt set.fmt then .inl (.fault 0x0141)
      else .inr m

/-- The scale bytes of the first m rows (R85). -/
def Dev.issueScales (d : Dev) (t : Nat) (x : Tile) (o : Operand) (k m : Nat) : Dev × Sum Stop (List (List Nat)) :=
  if o.blocks = false then (d, .inr (List.replicate m []))
  else
    match d.runsRead t false ((k + 31) / 32) ((List.range m).map (x.scaleAddr o k)) with
    | (d, .inl e) => (d, .inl e)
    | (d, .inr bs) => (d, .inr (bs.map (fun b => b.map BitVec.toNat)))

/-- The oldest n rows leave the latent buffer, and waiting rows take their slots (R67). -/
def Tile.latTaken (x : Tile) (n : Nat) : Tile :=
  let all := (x.latbuf ++ x.latwait).drop n
  { x with latbuf := all.take 64, latwait := all.drop 64 }

/-- The scale bytes of an issue in latent read mode: the slot that holds the operand holds them too, with no SRAM read (R67);
where in the slot they lie no rule says, so each is a free value of the slot (DESIGN CHOICE, log entry 140). -/
def latentScales (o : Operand) (k : Nat) (slot : List Byte) : List Nat :=
  if o.blocks then (List.range ((k + 31) / 32)).map (fun b => (Config.latentScale o.fmt b slot).toNat) else []

/-- The issues of one operation take effect (DESIGN CHOICE, log entry 42). -/
def Dev.issueAll (d : Dev) (t w k : Nat) (x : Tile) (o : Operand) (latent : Bool) (rows scales : List (List Nat))
    (bias : List (List F32)) : Dev :=
  let set := x.wset (aWset w)
  let prod := f32Mul o.scale set.tscale
  let work := (List.range rows.length).map (fun i => (i, rows.getD i [], scales.getD i [], bias.getD i []))
  let (y, sat) := x.issueRows set o k (aEnt w) (d.width t) (aClr w) latent prod work
  let d := if sat then d.tileFlags t flagIntSat else d
  let d := d.countIssues t rows.length (aWset w)
  d.opDone t (fun z => { (if latent then z.latTaken rows.length else z) with acc := y.acc })

/-- ISSUE: M issues from the named set, activations from SRAM (R55, R82) (DEDUCED, log entry 38). -/
def execIssue (t : Nat) (err : Upsets) (s : State) : Out :=
  tileRow t 1 3 s (fun d x w =>
    let d := d.upsets t err
    match x.issueCheck w with
    | .inl e => d.tileStop t e
    | .inr m =>
      let o := x.opd (aOpd w)
      let k := min (rateK o.fmt) (rateK (x.wset (aWset w)).fmt)
      let rb := packedBytes o.fmt k
      match d.runsOk t false rb (x.rowAddrs o m) with
      | some e => d.tileStop t e
      | none =>
        match d.runsRead t false rb (x.rowAddrs o m) with
        | (d, .inl e) => d.tileStop t e
        | (d, .inr rows) =>
          match d.issueScales t x o k m with
          | (d, .inl e) => d.tileStop t e
          | (d, .inr sc) => d.issueAll t w k x o false (rows.map (unpackCodes o.fmt k)) sc [])

/-! ### Latent read mode and the distance bias (R67, R68, R180 to R182) -/

/-- The table index of a distance (R181). -/
def biasIndex (d : Int) : Nat :=
  if d < 0 then 4095
  else
    let n := d.toNat
    if n < 2048 then n
    else let l := Nat.log2 n; 2048 + min 2046 (128 * (l - 11) + n / 2 ^ (l - 7) % 128)

/-- Whether G29 breaks R182: a reserved bit, or TBITS = 7. -/
def biasBad (g : Nat) : Bool := decide (2 ^ 14 ≤ g) || bits g 10 8 = 7

/-- The offset of the bias entry of column c in issue i (R180, R182). -/
def biasOffset (g29 : Nat) (g30 g31 : Int) (i c : Nat) : Nat :=
  let d : Int := g30 + ((c / 2 ^ bits g29 13 11 : Nat) : Int) - (g31 + (i : Int))
  let t := (bits g29 7 2 + c % 2 ^ bits g29 10 8) % 64
  0x780000 + biasIndex d * 128 + 2 * t

/-- What each column of each issue starts from, read from the bias store: an issue reads one line for each distinct index (R182, R183). -/
def Dev.biasRows (d : Dev) (t : Nat) (x : Tile) (m : Nat) : Dev × Sum Stop (List (List F32)) :=
  let g29 := (x.reg 29).toNat
  let offs := (List.range m).map (fun i =>
    (List.range 128).map (fun c => biasOffset g29 (x.reg 30).toInt (x.reg 31).toInt i c))
  let lines := offs.flatMap (fun row => (row.map (fun a => a / 128 * 128)).eraseDups)
  match d.runsRead t false 128 lines with
  | (d, .inl e) => (d, .inl e)
  | (d, .inr bs) =>
    let tab := lines.zip bs
    (d, .inr (offs.map (fun row => row.map (fun a =>
      let code := match look (a / 128 * 128) tab with
        | some l => natAt l (a % 128) 2
        | none => 0
      f32Add 0 (toF32 (fpDecode (if g29.testBit 1 then 1 else 2) code))))))

/-- ISSUEL: as ISSUE with activations from the latent buffer; it waits, with LATENT at 1,
while a slot it needs is empty (R67, R68) (DESIGN CHOICE, log entry 136). -/
def execIssuel (t : Nat) (s : State) : Out :=
  tileRow t 1 4 s (fun d x w =>
    match x.issueCheck w with
    | .inl e => d.tileStop t e
    | .inr m =>
      let o := x.opd (aOpd w)
      let k := min (rateK o.fmt) (rateK (x.wset (aWset w)).fmt)
      let biased := aClr w && (x.reg 29).getLsbD 0
      if biased && biasBad (x.reg 29).toNat then d.tileStop t (.fault 0x0610)
      else if (x.latbuf ++ x.latwait).length < m then
        if x.halting then d.haltNow t else d.setFld (R.TIL_ARRAY_STAT t) F.TIL_ARRAY_STAT_LATENT 1
      else
        let slots := (x.latbuf ++ x.latwait).take m
        match (if biased then d.biasRows t x m else (d, .inr [])) with
        | (d, .inl e) => d.tileStop t e
        | (d, .inr bias) =>
          (d.setFld (R.TIL_ARRAY_STAT t) F.TIL_ARRAY_STAT_LATENT 0).issueAll t w k x o true (slots.map (unpackCodes o.fmt k))
            (slots.map (latentScales o k)) bias)

/-! ### Drains (R60) -/

/-- DRAINV: one entry to a vector register; lanes at or above the width receive +0 (DEDUCED, log entry 36). -/
def execDrainv (t : Nat) (s : State) : Out :=
  tileRow t 1 5 s (fun d x w =>
    let wd := d.width t
    let cols := (x.entry (aEnt w)).cols.take wd ++ List.replicate (128 - wd) (0 : F32)
    d.opDone t (fun z => { z with v := put (aCreg w) cols z.v }))

/-- The value of an accumulator column at drain: times the product of tensor scales in FP32 (R42) (DESIGN CHOICE, log entry 132). -/
def drainValue (a : Acc) (c : F32) : Fp :=
  if a.int then
    let v := Fp.ofInt c.toInt
    if a.prod = f32One then v else ofF32 (toF32 (v.mul (ofF32 a.prod)))
  else ofF32 (f32Mul c a.prod)

/-- Multiply by 1/T_out, formed once in FP32; without a tensor scale the value stands (R42). -/
def outValue (o : Operand) (v : Fp) : Fp :=
  if o.hasT then ofF32 (toF32 (v.mul (ofF32 (f32Div f32One o.tscale)))) else v

/-- DRAINS: M entries through the store path to rows 0 to M − 1 of the operand (R42, R43, R53, R60, R68). -/
def execDrains (t : Nat) (s : State) : Out :=
  tileRow t 1 6 s (fun d x w =>
    let o := x.opd (aOpd w)
    match x.count w with
    | none => d.tileStop t (.fault 0x0208)
    | some m =>
      match o.fault with
      | some e => d.tileStop t e
      | none =>
        let n := d.width t
        let entries := (List.range m).map (fun i => x.entry (aEnt w + i))
        if entries.any (fun a => a.latent) then d.tileStop t (.fault 0x0130)
        else
          let rule := d.storeRule (d.tileCtx t) o
          let rows := (List.range m).zipWith (fun r a =>
            storeRow rule o (x.srIndex o n r) ((a.cols.take n).map (fun c => outValue o (drainValue a c)))) entries
          let scales := if o.blocks then (List.range m).zipWith (fun r p => (x.scaleAddr o n r, p.1)) rows else []
          let writes := ((List.range m).zipWith (fun r p => (x.rowAddr o r, p.2.1)) rows) ++ scales
          match writes.find? (fun e => sramIn e.1 e.2.length = false) with
          | some _ => d.tileStop t (.fault 0x0207)
          | none =>
            match d.runsWrite t false writes with
            | (d, some e) => d.tileStop t e
            | (d, none) => (d.tileFlags t (rows.foldl (fun f p => f ||| p.2.2) 0)).opDone t id)

/-! ### The activity ramp (R61, R63) -/

/-- The cycles of one ramp step: credits, real issues owed, shadow issues made. -/
def rampCycles (level : Nat) : Nat → Nat × Nat × Nat → Nat × Nat × Nat
  | 0, c => c
  | k + 1, (credits, owed, shadow) =>
    let c := min 15 (credits + level)
    if 8 ≤ c then rampCycles level k (c - 8, owed - 1, if owed = 0 then shadow + 1 else shadow)
    else rampCycles level k (c, owed, shadow)

/-- RAMP_STEP: a ramp step ends; L rises if a real issue was ready in its last cycle, else falls; at rest the timer is
stopped (R61). Only a tile with a stage bound and running has real issues: a halted one runs down with shadow issues (R64). A changed
period takes effect here (R63); the step timer does not run in a throttle bubble (DESIGN CHOICE, log entry 135). -/
def execRampStep (t : Nat) (ready : Bool) (s : State) : Out :=
  onUnit "tile" 256 t s (fun d =>
    let level := d.fld (R.TIL_ARRAY_STAT t) F.TIL_ARRAY_STAT_LEVEL
    if level = 0 then d
    else
      let p := if d.fld (R.TIL_ARRAY_STAT t) F.TIL_ARRAY_STAT_RAMP_SHORT = 1 then 2 else 4
      let x := d.tile t
      let (c, owed, shadow) := rampCycles level p (x.credits, x.slots, 0)
      let next := if ready && d.fld (R.TIL_STATE t) F.TIL_STATE_STATE = 2 then min 8 (level + 1) else level - 1
      let d := d.wrapFld (R.TIL_SHADOW_CNT t) F.TIL_SHADOW_CNT_COUNT shadow
      let d := d.setFld (R.TIL_ARRAY_STAT t) F.TIL_ARRAY_STAT_LEVEL next
      let d := d.rampPeriod t
      d.updTile t (fun x => { x with credits := if next = 0 then 0 else c, slots := if next = 0 then 0 else owed }))

end Sys2Proof.Machine
end

