-- ==== Sys2Proof/Machine/Recovery.lean ====
section
/-! DEFINITION. Resign (R311 to R315) and what ends in one: expired descriptors (R310), function-level resets (R294), a failed
mesh link (R125). -/

namespace Sys2Proof.Machine

/-! ### What a resign covers -/

/-- Every work queue. -/
def Dev.workQueues (d : Dev) : List Nat := (d.queues.filter (fun e => !isAdmin e.1)).map (·.1)

/-- The queues that a scope and target cover; the target of a QUEUE resign is a global number here. -/
def Dev.covered (d : Dev) (scope target : Nat) : List Nat :=
  match scope with
  | 0 => [target]
  | 1 => d.ctxQueues target
  | 2 => d.fnQueues target
  | _ => d.workQueues

/-- The contexts that a scope and target cover. -/
def Dev.coveredCtxs (d : Dev) (scope target : Nat) : List Nat :=
  match scope with
  | 0 => []
  | 1 => [target]
  | 2 => d.fnCtxs target
  | _ => d.ctxs.map (·.1)

/-- The queue that TARGET names for a writer: a global number for the PF, whosever the queue is, a local index for a VF. -/
def Dev.resignQueueOf (d : Dev) (fn target : Nat) : Option Nat :=
  if fn = 0 then (if isAdmin target then none else (d.queue target).map (fun _ => target)) else d.pageQueue fn target

/-! ### Stopping what runs (R312) -/

/-- Every open collective of the job of a collective that a resign covers ends too (R314). -/
def Dev.collJobResign (d : Dev) (q n : Nat) : Dev :=
  match d.col.open_.find? (fun e => e.2.q = q && e.2.n = n) with
  | none => d
  | some (_, x) =>
    ((d.col.open_.filter (fun e => e.2.job = x.job)).map (fun e => (e.2.q, e.2.n))).foldl (fun d p => d.collResign p.1 p.2) d

/-- A pipeline that a resign covers: its tiles halt, remote writes that await an ACK are abandoned. -/
def Dev.pipeResign (d : Dev) (q n : Nat) : Dev :=
  match d.pipes.find? (fun p => p.2.q = q && p.2.n = n) with
  | none => d
  | some (pid, p) =>
    let mine : Outstanding → Bool := fun o => match o.tile with
      | some t => p.tiles.contains t
      | none => false
    let d := { d with lnk := { d.lnk with outstanding := d.lnk.outstanding.filter (fun o => !mine o) } }
    d.haltPipe pid stResigned 0

/-- A running descriptor stops under its own chapter's rules (R312). -/
def Dev.stopRunning (d : Dev) (q n : Nat) : Dev :=
  match d.desc q n with
  | none => d
  | some x =>
    match x.typ with
    | 12 => d.copyResign q x
    | 13 => d.pipeResign q n
    | 14 => d.pimResign q n
    | 15 => d.kvResign q n
    | 16 => d.smpResign q n
    | 17 => d.smpResign q n
    | 18 => d.updResign q n
    | 19 => d.updResign q n
    | 20 => d.collJobResign q n
    | _ => d.complete q n stResigned 0

/-- The running descriptors of a queue. -/
def Dev.runningOf (d : Dev) (q : Nat) : List Nat :=
  match d.queue q with
  | some x => (x.fetched.filter (fun y => y.phase == Phase.running)).map (·.n)
  | none => []

/-- A covered queue stops: RESIGNING, its unfetched descriptors dropped, its fetched ones that have not started ended. -/
def Dev.queueStops (d : Dev) (q : Nat) : Dev :=
  let d := d.updQueue q (fun x => { x with
    state := .resigning
    wasOrphaned := x.wasOrphaned || x.state = .orphaned
    dropped := mod32 (x.dropped + sub32 x.tail x.fetch)
    fetch := x.tail })
  ((d.unstarted q).foldl (fun d n => d.completeRaw q n stResigned 0) d).orphanExit (d.queueFn q)

/-- The numbers that HIF_RESIGN_STAT will show: descriptors ended, descriptors skipped. -/
def Dev.resignCounts (d : Dev) (qs : List Nat) : Nat × Nat :=
  qs.foldl (fun (a : Nat × Nat) q => match d.queue q with
    | some x => (a.1 + x.fetched.length, a.2 + sub32 x.tail x.fetch)
    | none => a) (0, 0)

/-- A resign stops everything it covers (R312). -/
def Dev.resignStops (d : Dev) (scope target : Nat) : Dev :=
  let qs := d.covered scope target
  let d := (d.coveredCtxs scope target).foldl (fun d c => d.updCtx c (fun x => { x with state := .resigning })) d
  let d := qs.foldl Dev.queueStops d
  let d := if 3 ≤ scope then d.abandonWakes else d
  let run := qs.flatMap (fun q => (d.runningOf q).map (fun n => (q, n)))
  (run.foldl (fun d p => d.stopRunning p.1 p.2) d).pass

/-- A resign begins: EVT 0x0B20, HIF_RESIGN_STAT, and everything it covers stops (R311, R312). -/
def Dev.resignStart (d : Dev) (fn scope target shown : Nat) : Dev :=
  let qs := d.covered scope target
  let (stopped, dropped) := d.resignCounts qs
  let off := R.HIF_RESIGN_STAT fn
  let d := (d.setFld off F.HIF_RESIGN_STAT_BUSY 1).setFld off F.HIF_RESIGN_STAT_SCOPE scope
  let d := (d.setFld off F.HIF_RESIGN_STAT_TARGET shown).setFld off F.HIF_RESIGN_STAT_STOPPED 0
  let d := (d.setFld off F.HIF_RESIGN_STAT_DROPPED 0).raise { code := 0x0B20, fn := fn, args := [scope, shown] }
  let d := { d with resigns := d.resigns ++ [({ fn := fn, scope := scope, target := target, queues := qs, stopped := stopped, dropped := dropped } : Resign)] }
  d.resignStops scope target

/-- A refused resign write: REFUSED, EVT 0x0B22 (R311) (DESIGN CHOICE, log entry 121). -/
def Dev.resignRefused (d : Dev) (fn scope target : Nat) : Dev :=
  (d.setFld (R.HIF_RESIGN_STAT fn) F.HIF_RESIGN_STAT_REFUSED 1).raise { code := 0x0B22, fn := fn, args := [scope, target] }

/-- A write to HIF_RESIGN: who may issue which scope, and on what (R311). -/
def Dev.resignWrite (d : Dev) (fn scope target : Nat) : Dev :=
  match scope with
  | 0 =>
    match d.resignQueueOf fn target with
    | some q => d.resignStart fn 0 q target
    | none => d.resignRefused fn 0 target
  | 1 =>
    if (look target d.ctxs).any (fun c => fn = 0 || c.fn = fn) then d.resignStart fn 1 target target else d.resignRefused fn 1 target
  | 2 => if d.fnExists target && (fn = 0 || target = fn) then d.resignStart fn 2 target target else d.resignRefused fn 2 target
  | _ => if fn = 0 then d.resignStart fn 3 0 target else d.resignRefused fn 3 target

/-- RESIGN_QUEUE (R311). -/
def execResignQueue (fn target : Nat) (s : State) : Out := fnRow fn s (fun d => d.resignWrite fn 0 target)

/-- RESIGN_CONTEXT (R311). -/
def execResignContext (fn target : Nat) (s : State) : Out := fnRow fn s (fun d => d.resignWrite fn 1 target)

/-- RESIGN_FUNCTION (R311). -/
def execResignFunction (fn target : Nat) (s : State) : Out := fnRow fn s (fun d => d.resignWrite fn 2 target)

/-- RESIGN_DEVICE (R311): names no target. -/
def execResignDevice (fn : Nat) (s : State) : Out := fnRow fn s (fun d => d.resignWrite fn 3 0)

/-- A device-wide resign that the device makes itself (R125, R323). -/
def Dev.deviceResign (d : Dev) : Dev := d.resignStart 0 3 0 0

/-! ### The end of a resign (R312) -/

/-- Whether all work that a resign covers has ended. -/
def Dev.resignOver (d : Dev) (r : Resign) : Bool :=
  r.queues.all (fun q => match d.queue q with
    | some x => x.fetched.isEmpty
    | none => true)

/-- Whether an orderly stop holds the device's queues and contexts (R389). -/
def Dev.stopping (d : Dev) : Bool := d.resigns.any (fun r => r.scope = 4)

/-- Where a covered queue ends: destroyed, in ERROR, or ACTIVE (R295, R300, R312). -/
def Dev.queueResumes (d : Dev) (q : Nat) : Dev :=
  match d.queue q with
  | none => d
  | some x =>
    if x.state ≠ .resigning && x.state ≠ .error then d
    else if x.recordLost then
      (d.updQueue q (fun y => { y with state := .error, resignAtOrphan := false, wasOrphaned := false })).orphanExit x.fn
    else if x.resignAtOrphan || x.wasOrphaned then d.removeQueue q
    else d.updQueue q (fun y => { y with state := .active })

/-- A covered context ends ACTIVE, its fault record cleared (R301, R312). -/
def Dev.ctxResumes (d : Dev) (c : Nat) : Dev :=
  d.updCtx c (fun x => { x with state := .active, faultEvt := 0, faultPc := 0, faultTile := 0 })

/-- A resign covers every target of another (R314). -/
def Dev.covers (d : Dev) (a b : Resign) : Bool :=
  b.queues.all (fun q => a.queues.contains q) &&
    (d.coveredCtxs b.scope b.target).all (fun c => (d.coveredCtxs a.scope a.target).contains c)

/-- Queues and contexts that no other running resign covers resume (R312, R314). -/
def Dev.resignResumes (d : Dev) (r : Resign) : Dev :=
  let qs := r.queues.filter (fun q => !(d.resigns.any (fun x => x.queues.contains q)))
  let cs := (d.coveredCtxs r.scope r.target).filter (fun c =>
    !(d.resigns.any (fun x => (d.coveredCtxs x.scope x.target).contains c)))
  cs.foldl Dev.ctxResumes (qs.foldl Dev.queueResumes d)

/-- The device goes back to having no configuration: PERSONA NONE, CFG_STATE UNCONFIGURED (R30). -/
def Dev.unconfigure (d : Dev) : Dev :=
  let d := (d.setFld R.MGT_PERSONA F.MGT_PERSONA_PERSONA 0).setFld R.MGT_PERSONA F.MGT_PERSONA_CFG_STATE 0
  { d with fw := { d.fw with config := [], configNew := [] } }

/-- A resign ends: queues and contexts resume unless a stop holds them; a device-wide one that met a configuration in progress
leaves the device unconfigured (R30); BUSY falls, EVT 0x0B21, vector 0 (R312, R389). -/
def Dev.resignEnd (d : Dev) (r : Resign) : Dev :=
  let d := { d with resigns := d.resigns.filter (fun x => x ≠ r) }
  let d := if d.stopping then d else d.resignResumes r
  let d := if r.scope = 3 && (d.cfgState = 1 || d.cfgState = 3) then d.unconfigure else d
  let off := R.HIF_RESIGN_STAT r.fn
  let d := (d.setFld off F.HIF_RESIGN_STAT_STOPPED r.stopped).setFld off F.HIF_RESIGN_STAT_DROPPED r.dropped
  let d := if d.resigns.any (fun x => x.fn = r.fn && x.scope ≠ 4) then d else d.setFld off F.HIF_RESIGN_STAT_BUSY 0
  ((d.raise { code := 0x0B21, fn := r.fn, args := [r.scope, r.target] }).msix r.fn 0).pass

/-- The running resigns in order, with whether an earlier one covers each (R314). -/
def Dev.resignsHeld (d : Dev) : (earlier rest : List Resign) → List (Resign × Bool)
  | _, [] => []
  | e, r :: rs => (r, e.any (fun a => d.covers a r)) :: d.resignsHeld (e ++ [r]) rs

/-- A resign that has run ends, and with it each later one whose targets it covers (R314). -/
def Dev.resignRunOut (d : Dev) (r : Resign) : Dev :=
  let later := ((d.resigns.dropWhile (fun x => x ≠ r)).drop 1).filter (fun x => x.scope ≠ 4 && x ≠ r && d.covers r x)
  (r :: later).foldl Dev.resignEnd d

/-- RESIGN_DONE: every resign of a function whose work has ended is over, but one that an earlier running one covers, which ends
with that (R312, R314). -/
def execResignDone (fn : Nat) (s : State) : Out :=
  onUnit "function" 64 fn s (fun d =>
    (((d.resignsHeld [] d.resigns).filter (fun e => e.2 = false && e.1.fn = fn && e.1.scope ≠ 4 && d.resignOver e.1)).map (·.1)).foldl
      Dev.resignRunOut d)

/-! ### Expired descriptors (R310) -/

/-- DESCRIPTOR_TIMEOUT: TIMEOUT_US of a work descriptor expires and its queue is resigned, its own record carrying TIMEOUT; an
admin descriptor that has not taken effect completes with TIMEOUT alone. EVT 0x0B17 (R310). -/
def execDescriptorTimeout (q n : Nat) (s : State) : Out :=
  onUnit "queue" 4160 q s (fun d =>
    match d.desc q n with
    | none => d
    | some x =>
      if x.timeoutUs = 0 || x.phase != Phase.running || decide (d.now < x.start + x.timeoutUs * 1000) || x.expired then d
      else if isAdmin q then (d.raise (d.descEvent 0x0B17 q n)).complete q n stTimeout 0
      else
        let d := (d.raise (d.descEvent 0x0B17 q n)).updDesc q n (fun y => { y with expired := true })
        d.resignStart (d.queueFn q) 0 q (if d.queueFn q = 0 then q else ((d.queue q).map (fun y => y.loc)).getD 0))

/-! ### Function-level resets (R294) -/

/-- A function's configuration space is reset. -/
def Dev.fnConfigReset (d : Dev) (f : Nat) : Dev :=
  { d with host := { d.host with bme := d.host.bme.filter (· ≠ f), cfg := drop1 f d.host.cfg } }

/-- FLR_VF: a function-level reset of a VF (R294). -/
def execFlrVf (f : Nat) (s : State) : Out :=
  onUnit "function" 64 f s (fun d =>
    if f ≠ 0 && d.fnExists f then (d.fnConfigReset f).resignStart f 2 f f else d)

/-- VF Enable falls: the VFs vanish, each with a function resign. -/
def Dev.vfsVanish (d : Dev) : Dev :=
  let fs := (List.range d.host.vfs).map (· + 1)
  let d := { d with host := { d.host with vfs := 0, bme := d.host.bme.filter (· = 0), cfg := d.host.cfg.filter (fun e => e.1 = 0) } }
  fs.foldl (fun d f => d.resignStart f 2 f f) d

/-- FLR_PF: a function-level reset of the PF; the VFs vanish (R294). -/
def execFlrPf (s : State) : Out := onDev s (fun d => ((d.fnConfigReset 0).vfsVanish).resignStart 0 2 0 0)

/-- VF_ENABLE_CLEARED (R294). -/
def execVfEnableCleared (s : State) : Out := onDev s Dev.vfsVanish

/-! ### Link failures of the mesh (R125) -/

/-- The failures in a row of one flit on a link, and its recent retries. -/
def Dev.linkRetries (d : Dev) (node dir : Nat) : Nat × List Nat := (look (node, dir) d.noc.retries).getD (0, [])

/-- FLIT_CRC_FAIL: a flit that a router sends by one of its ports fails its CRC at the other end and is resent: counted; 64 retries of
one link within 1 ms raise EVT 0x0340; the 16th failure in succession of one flit fails the link: both its routers stop it, EVT
0x0341, a device-wide resign, a defect (R125, R127). A link that has stopped carries no flit. -/
def execFlitCrcFail (node dir : Nat) (again : Bool) (s : State) : Out :=
  onUnits [("router", 320, node), ("router port", 5, dir)] s (fun d =>
    if d.linkFailed node (neighbour node dir) || linkDir node (neighbour node dir) ≠ dir then d
    else
      let (row, times) := d.linkRetries node dir
      let row := if again then row + 1 else 1
      let old := recent d.now times
      let d := { d with noc := { d.noc with retries := put (node, dir) (row, d.now :: old) d.noc.retries } }
      let d := d.satFld R.NOC_LINK_ERR F.NOC_LINK_ERR_RETRIES 1
      let d := if old.length = 63 then d.raise { code := 0x0340, unit := routerUnit node, args := [dir, node] } else d
      if row = 16 then
        let d := { d with noc := { d.noc with failed := (node, dir) :: d.noc.failed } }
        let d := d.setFld R.NOC_LINK_ERR F.NOC_LINK_ERR_FAILED 1
        let d := (d.setFld R.NOC_LINK_ERR F.NOC_LINK_ERR_NODE node).setFld R.NOC_LINK_ERR F.NOC_LINK_ERR_DIR dir
        let d := d.raise { code := 0x0341, unit := routerUnit node, args := [dir, node] }
        d.deviceResign.addDefect 10 node dir 3
      else d)

end Sys2Proof.Machine
end

