-- ==== Sys2Proof/Machine/Firmware.lean ====
section
/-! DEFINITION. The mailboxes and what the firmware answers there (chapter 14): the exchange (R328 to R331), versions, jobs,
tracing, scheduling, timers, and the messages of the forerunner that belong to these (R336). -/

namespace Sys2Proof.Machine

/-! ### Statuses beside those of R308 (R331) -/

/-- VERSION. -/
def mbVersion : Nat := 0x0050
/-- UNKNOWN_OP. -/
def mbUnknown : Nat := 0x0051
/-- SEQUENCE. -/
def mbSequence : Nat := 0x0052
/-- AUTH. -/
def mbAuth : Nat := 0x0053
/-- ROLLBACK. -/
def mbRollback : Nat := 0x0054
/-- RESTARTED. -/
def mbRestarted : Nat := 0x0055
/-- NOT_SUPPORTED. -/
def mbNotSupported : Nat := 0x0056

/-! ### The exchange (R328) -/

/-- A mailbox that nothing has used since reset. -/
def Mailbox.blank : Mailbox := { expected := none, door := none, req := none }

/-- A mailbox. -/
def Dev.mbox (d : Dev) (mb : Nat) : Mailbox := (look mb d.mboxes).getD Mailbox.blank

/-- Change a mailbox. -/
def Dev.updMbox (d : Dev) (mb : Nat) (f : Mailbox → Mailbox) : Dev := { d with mboxes := put mb (f (d.mbox mb)) d.mboxes }

/-- Whether a mailbox carries the format of the forerunner (R328, R330). -/
def isZ8 (mb : Nat) : Bool := decide (2 ≤ mb) && decide (mb ≤ 5)

/-- Whether a request that holds up the others is being served: the firmware takes requests one at a time, and serves other mailboxes
while a DEV_CONFIG runs (R328). -/
def Dev.serving (d : Dev) : Bool := d.mboxes.any (fun e => e.2.req.any (fun r => isZ8 e.1 || r.opcode ≠ 0x10))

/-- The mailboxes served now: all while the firmware runs; while the boot ROM waits for an image, 0 and 2; else none
(R323, R328, R400). -/
def Dev.served (d : Dev) (mb : Nat) : Bool :=
  d.fwRuns || (d.boot.stage = 3 && d.fwState = 0 && (mb = 0 || mb = 2))

/-- The response: the header, which repeats MAJOR, MINOR, OPCODE and SEQ, and the body (R329). -/
def responseBytes (major minor opcode seq status : Nat) (body : List Byte) : List Byte :=
  leBytes 1 major ++ leBytes 1 minor ++ leBytes 2 opcode ++ leBytes 4 seq ++ leBytes 4 body.length ++ leBytes 2 status ++
    leBytes 2 0 ++ body

/-- Write a response, set MGT_MB_STAT to DONE and raise vector 0 of the PF (R328). -/
def Dev.respond (d : Dev) (mb status : Nat) (bytes : List Byte) : Dev :=
  let (d, lost) := match d.hostWrite 0 (d.reg (R.MGT_MB_RSP mb)).toNat bytes with
    | some d => (d, 0)
    | none => (d.accessFailed, 1)
  let d := (d.setFld (R.MGT_MB_STAT mb) F.MGT_MB_STAT_STATE 2).setFld (R.MGT_MB_STAT mb) F.MGT_MB_STAT_RSP_LOST lost
  let d := d.setFld (R.MGT_MB_STAT mb) F.MGT_MB_STAT_STATUS status
  let d := d.updMbox mb (fun x => { x with door := none, req := none })
  ({ d with fw := { d.fw with order := d.fw.order.filter (· ≠ mb) } } : Dev).msix 0 0

/-- Opcodes of the native catalogue with the format that introduced each, as 16 × major + minor (R332). -/
def nativeSince (op : Nat) : Option Nat :=
  match op with
  | 0x01 => some 0x20
  | 0x02 => some 0x20
  | 0x03 => some 0x20
  | 0x04 => some 0x20
  | 0x05 => some 0x30
  | 0x10 => some 0x20
  | 0x11 => some 0x20
  | 0x20 => some 0x20
  | 0x21 => some 0x20
  | 0x30 => some 0x20
  | 0x40 => some 0x31
  | 0x50 => some 0x30
  | 0x51 => some 0x30
  | 0x60 => some 0x20
  | 0x61 => some 0x20
  | 0x70 => some 0x32
  | 0x71 => some 0x32
  | _ => none

/-- Whether a version is accepted on a mailbox (R330). -/
def versionOk (mb major minor : Nat) : Bool :=
  if isZ8 mb then major = 1 && decide (minor ≤ 4) else major = 2 || (major = 3 && decide (minor ≤ 2))

/-- The oldest and the newest version a mailbox accepts (R330). -/
def versionRange (mb : Nat) : List Byte := if isZ8 mb then [1, 0, 1, 4] else [2, 0, 3, 2]

/-- Whether the catalogue of a mailbox holds a native opcode (R328). -/
def nativeOn (mb op : Nat) : Bool :=
  match mb with
  | 0 => op = 1 || op = 2
  | 1 => true
  | 6 => op = 1 || op = 0x30 || op = 0x40
  | _ => op ≠ 0x10 && op ≠ 0x03 && op ≠ 0x05

/-- Whether a mailbox knows an opcode in a version: after the firmware runs its catalogue, before it the load messages that
the boot ROM serves (R328, R332, R336). -/
def mbKnows (running : Bool) (mb major minor op : Nat) : Bool :=
  if running then
    match mb with
    | 2 => op = 0x0101 || op = 0x0102 || op = 0x0103
    | 3 => op = 0x0201 || op = 0x0202
    | 4 => op = 0x0301 || op = 0x0302
    | 5 => op = 0x0401 || op = 0x0402 || op = 0x0403
    | _ => (nativeSince op).any (fun v => decide (v ≤ 16 * major + (if major = 2 then 0 else minor))) && nativeOn mb op
  else if mb = 2 then op = 0x0103 else op = 2

/-- A refused JOB_OPEN. -/
def Dev.jobRefused (d : Dev) (mb job ctx : Nat) : Dev :=
  d.raise { code := 0x0C12, job := job, ctx := ctx, fn := d.ctxFn ctx, args := [mb, 0x20] }

/-- The events that a native request whose LEN is beyond any body raises: those of its message's refusal (R333, R334). -/
def Dev.lenRefused (d : Dev) (mb op : Nat) : Dev :=
  if isZ8 mb then d
  else if op = 0x10 then d.raise { code := 0x0C22, args := [8, mb, op] }
  else if op = 0x20 then d.jobRefused mb 0xFFFF 0xFFFF
  else d

/-- Take one request: read it, and answer it when it fails one of the first three checks (R328, R329). A FW_LOAD that the
boot ROM takes sets STAGE to LOADING (R400). -/
def Dev.takeOne (d : Dev) (mb seq tempo : Nat) : Dev :=
  let base := (d.reg (R.MGT_MB_REQ mb)).toNat
  let d := d.setFld (R.MGT_MB_STAT mb) F.MGT_MB_STAT_SEQ seq
  let running := d.fwRuns
  let whole := (d.hostRead 0 base 16).bind (fun h =>
    let len := natAt h 8 4
    if len ≤ 4080 then (d.hostRead 0 (base + 16) len).map (fun b => (h, b)) else some (h, []))
  match whole with
  | none => (d.accessFailed).respond mb stAccess (responseBytes 0 0 0 seq stAccess [])
  | some (h, b) =>
    let major := natAt h 0 1
    let minor := natAt h 1 1
    let op := natAt h 2 2
    let sq := natAt h 4 4
    let refuse := fun (d : Dev) (st : Nat) (body : List Byte) => d.respond mb st (responseBytes major minor op sq st body)
    if sq ≠ seq || ((d.mbox mb).expected).any (fun e => sq ≠ e) then
      refuse (d.raise { code := 0x0C03, args := [mb, op] }) mbSequence []
    else
      let d := d.updMbox mb (fun x => { x with expected := some (mod32 (sq + 1)) })
      if versionOk mb major minor = false then refuse (d.raise { code := 0x0C02, args := [mb, op] }) mbVersion (versionRange mb)
      else if mbKnows running mb major minor op = false then refuse (d.raise { code := 0x0C03, args := [mb, op] }) mbUnknown []
      else if 4080 < natAt h 8 4 then refuse (d.lenRefused mb op) stInvalid (leBytes 4 8)
      else
        let d := d.updMbox mb (fun x => { x with req := some ⟨major, minor, op, sq, b, tempo⟩ })
        if running then d
        else
          ({ d with boot := { d.boot with stage := 4, tLoad := tempo } } : Dev).setFld R.MGT_FW_STAT F.MGT_FW_STAT_STATE 1

/-- Take the requests that wait, in doorbell order, until one is being served (R328). -/
def Dev.takeNext : (fuel : Nat) → Dev → Dev
  | 0, d => d
  | k + 1, d =>
    if d.serving then d
    else
      match d.fw.order.find? (fun mb => d.served mb && (d.mbox mb).req.isNone) with
      | none => d
      | some mb =>
        match (d.mbox mb).door with
        | none => d
        | some (seq, tempo) => takeNext k (d.takeOne mb seq tempo)

/-- Every mailbox that waits has its turn. -/
def Dev.takeRequests (d : Dev) : Dev := Dev.takeNext 9 d

/-- Answer the request being served on a mailbox, and take the next. -/
def Dev.mbAnswer (d : Dev) (mb : Nat) (r : MbReq) (status : Nat) (body : List Byte) : Dev :=
  (d.respond mb status (responseBytes r.major r.minor r.opcode r.seq status body)).takeRequests

/-- An INVALID response: the offset of the failing field, counted from the start of the request (R331). -/
def Dev.answerBad (d : Dev) (mb : Nat) (r : MbReq) (off : Nat) : Dev := d.mbAnswer mb r stInvalid (leBytes 4 (16 + off))

/-- INVALID at the LEN field of the header. -/
def Dev.answerLen (d : Dev) (mb : Nat) (r : MbReq) : Dev := d.mbAnswer mb r stInvalid (leBytes 4 8)

/-- A field of the body. -/
def MbReq.fld (r : MbReq) (off size : Nat) : Nat := natAt r.body off size

/-- MAILBOX_DOORBELL: the driver writes the SEQ of a request to a mailbox (R328). An access that is not of 64 bits is a
host-range event (R6), a reserved bit a reserved-write event (R7). -/
def Dev.doorMailbox (d : Dev) (mb : Nat) (val : Word) : Dev :=
  let d := if 2 ^ 32 ≤ val.toNat then d.reservedWrite 0 (R.MGT_MB_DOOR mb) else d
  if d.fld (R.MGT_MB_STAT mb) F.MGT_MB_STAT_STATE = 1 then d.satFld R.HIF_ERR F.HIF_ERR_BADDOOR 1
  else
    let d := (d.setFld (R.MGT_MB_STAT mb) F.MGT_MB_STAT_STATE 1).updMbox mb (fun x => { x with door := some (mod32 val.toNat, d.now) })
    ({ d with fw := { d.fw with order := d.fw.order ++ [mb] } } : Dev).takeRequests

/-- MAILBOX_DOORBELL (R328, R329, R330, R331). -/
def execMailboxDoorbell (mb size : Nat) (val : Word) (hw : HostWrites) (s : State) : Out :=
  onUnit "mailbox" 8 mb s (fun d =>
    let d := d.hostPosts 0 hw
    if d.host.linkUp = false then d
    else if size ≠ 8 then d.hostRange 0 (R.MGT_MB_DOOR mb)
    else d.doorMailbox mb val)

/-- The request that the firmware serves on a mailbox, when it is the one a row is about. -/
def Dev.fwRequest (d : Dev) (mb : Nat) (pick : MbReq → Bool) : Option MbReq :=
  if d.alive && d.fwRuns then (d.mbox mb).req.filter pick else none

/-- A message row: its message is the one being served on the mailbox. -/
def mbRow (mb : Nat) (pick : MbReq → Bool) (s : State) (f : Dev → MbReq → Dev) : Out :=
  onUnit "mailbox" 8 mb s (fun d =>
    match d.fwRequest mb pick with
    | some r => f d r
    | none => d)

/-- A message row that a mailbox serves in both formats: `native` on the native mailboxes, `z8` on the others. -/
def isOp (op : Nat) (r : MbReq) : Bool := r.opcode = op

/-- The fields of a message body, in order: each is a failing offset with whether the field there is bad. -/
def firstBad : List (Nat × Bool) → Option Nat
  | [] => none
  | (off, bad) :: r => if bad then some off else firstBad r

/-- A message whose body must have a length and fields in range (R329, check 4) (DEDUCED, log entry 89). -/
def Dev.bodyRow (d : Dev) (mb : Nat) (r : MbReq) (len : Nat) (checks : List (Nat × Bool)) (f : Dev → Dev) : Dev :=
  if r.body.length ≠ len then d.answerLen mb r
  else
    match firstBad checks with
    | some off => d.answerBad mb r off
    | none => f d

/-! ### Versions (R327, R332) -/

/-- VERSION_GET: the running release and SVN, the fused counter, the formats, LEVEL_MAX and the Bamat versions (R332). -/
def execVersionGet (mb : Nat) (s : State) : Out :=
  mbRow mb (isOp 1) s (fun d r =>
    d.bodyRow mb r 0 [] (fun d =>
      d.mbAnswer mb r stOk (leBytes 2 d.fw.release ++ leBytes 1 d.fw.svn ++ leBytes 1 s.trust.svn ++ [2, 0, 3, 2] ++
        leBytes 1 (d.fld R.COL_CFG F.COL_CFG_LEVEL_MAX) ++ leBytes 1 (d.fld R.LNK_CFG F.LNK_CFG_VERS))))

/-- SVN_COMMIT: the fused counter rises to the SVN of the running image, with EVT 0x0F12 when it rises (R327). -/
def execSvnCommit (mb : Nat) (s : State) : Out :=
  if mb < 8 then
    match s.dev.fwRequest mb (isOp 3) with
    | none => .next s
    | some r =>
      if r.body.length ≠ 0 then .next { s with dev := s.dev.answerLen mb r }
      else if s.trust.svn < s.dev.fw.svn && decide (s.dev.fw.svn ≤ 64) then
        .next { s with
          trust := { s.trust with svn := s.dev.fw.svn }
          dev := (s.dev.raise { code := 0x0F12, args := [s.dev.fw.svn] }).mbAnswer mb r stOk [] }
      else .next { s with dev := s.dev.mbAnswer mb r stOk [] }
  else .fault (.noSuchUnit "mailbox" mb)

/-! ### Jobs (R334) -/

/-- The first field of a JOB_OPEN out of range. Under 2.x LEVEL is reserved. -/
def Dev.jobOpenBad (d : Dev) (r : MbReq) : Option Nat :=
  firstBad [(0, decide (4096 ≤ r.fld 0 2)), (2, decide (1024 ≤ r.fld 2 2) || (look (r.fld 2 2) d.ctxs).isNone),
    (4, r.major = 2 && r.fld 4 1 ≠ 0), (5, decide (3 ≤ r.fld 5 1)), (6, decide (2 ≤ r.fld 6 1)), (7, r.fld 7 1 ≠ 0)]

/-- A job is opened: bound to its context, its level pinned, its policy kept, its DETERMINISTIC bit set (R334). -/
def Dev.jobOpens (d : Dev) (job ctx level policy : Nat) (det : Bool) : Dev :=
  let d := { d with jobs := put job ⟨ctx, level, policy, det, d.now⟩ d.jobs }
  let d := if det then d.setBits (R.NOC_JOB_DET (job / 64)) ((1 : Word) <<< (job % 64)) ((1 : Word) <<< (job % 64)) else d
  d.raise { code := 0x0C10, job := job, ctx := ctx, fn := d.ctxFn ctx }

/-- JOB_OPEN (R334): BUSY, INVALID, LEVEL, in the order of the rule's table. -/
def execJobOpen (mb : Nat) (s : State) : Out :=
  mbRow mb (isOp 0x20) s (fun d r =>
    let job := r.fld 0 2
    let ctx := r.fld 2 2
    let level := if r.major = 2 then 1 else r.fld 4 1
    if r.body.length ≠ 8 then (d.jobRefused mb 0xFFFF 0xFFFF).answerLen mb r
    else if d.cfgState ≠ 2 || (look job d.jobs).isSome then (d.jobRefused mb job ctx).mbAnswer mb r stBusy []
    else
      match d.jobOpenBad r with
      | some off => (d.jobRefused mb job ctx).answerBad mb r off
      | none =>
        if level = 0 || decide (d.fld R.COL_CFG F.COL_CFG_LEVEL_MAX < level) then (d.jobRefused mb job ctx).mbAnswer mb r stLevel []
        else (d.jobOpens job ctx level (r.fld 5 1) (r.fld 6 1 = 1)).mbAnswer mb r stOk [])

/-- Whether something of a job keeps it open: a collective, a pipeline, a mirror or a proxy (R334). -/
def Dev.jobInUse (d : Dev) (job : Nat) : Bool :=
  d.col.open_.any (fun e => e.2.job = job) || d.pipes.any (fun e => e.2.job = job) ||
    d.lnk.mirrors.any (fun e => e.2.job = job) || d.lnk.proxies.any (fun e => e.2.job = job)

/-- JOB_CLOSE (R334). Closing a job that is not open is INVALID. -/
def execJobClose (mb : Nat) (s : State) : Out :=
  mbRow mb (isOp 0x21) s (fun d r =>
    d.bodyRow mb r 2 [(0, (look (r.fld 0 2) d.jobs).isNone)] (fun d =>
      if d.jobInUse (r.fld 0 2) then d.mbAnswer mb r stBusy []
      else (d.closeJob (r.fld 0 2)).mbAnswer mb r stOk []))

/-! ### Shared resources (R343, R344) -/

/-- The owner of a resource. -/
def Dev.owner (d : Dev) (res : Nat) : Nat := bits (d.reg R.MGT_OWNER).toNat (4 * res + 3) (4 * res)

/-- A feature asks for a resource it does not own: BUSY with EVT 0x0C50 naming resource, owner and feature; the driver is the
feature HOST (R344). -/
def Dev.resourceBusy (d : Dev) (mb : Nat) (r : MbReq) (res : Nat) : Dev :=
  (d.raise { code := 0x0C50, unit := res, args := [res, d.owner res, 2] }).mbAnswer mb r stBusy []

/-! ### Tracing (R341, R342) -/

/-- The trace points that a mask may not name: kinds 6 to 15 (R341). -/
def maskReserved (m : Nat) : Bool := m &&& 0xFFC0FFC0FFC0FFC0 ≠ 0

/-- Tracing set; enabling it clears the buffer (R342). -/
def Dev.traceSet (d : Dev) (enable mode : Nat) (mask : List Nat) : Dev :=
  let d := (d.setFld R.MGT_TRACE F.MGT_TRACE_ENABLE enable).setFld R.MGT_TRACE F.MGT_TRACE_MODE mode
  let d := ((List.range 4).zip mask).foldl (fun d e => d.setReg (R.MGT_TRACE_MASK e.1) (BitVec.ofNat 64 e.2)) d
  if enable = 1 then
    ((({ d with trace := [] } : Dev).setFld R.MGT_TRACE F.MGT_TRACE_FULL 0).setFld R.MGT_TRACE F.MGT_TRACE_WRITE 0)
  else d

/-- TRACE_CFG (R342): subject to R344, the trace buffer being resource 12 (DEDUCED, log entry 91). -/
def execTraceCfg (mb : Nat) (s : State) : Out :=
  mbRow mb (isOp 0x40) s (fun d r =>
    let mask := (List.range 4).map (fun j => r.fld (4 + 8 * j) 8)
    d.bodyRow mb r 36 [(0, decide (2 ≤ r.fld 0 1)), (1, decide (2 ≤ r.fld 1 1)), (2, r.fld 2 2 ≠ 0), (4, mask.any maskReserved)] (fun d =>
      if r.fld 0 1 = 1 && d.owner 12 ≠ 2 then d.resourceBusy mb r 12
      else (d.traceSet (r.fld 0 1) (r.fld 1 1) mask).mbAnswer mb r stOk []))

/-- TRACE_FULL: a STOP-mode buffer has filled: EVT 0x0C51, and ENABLE is cleared (R342). -/
def execTraceFull (s : State) : Out :=
  onDev s (fun d =>
    if d.fld R.MGT_TRACE F.MGT_TRACE_FULL = 1 && d.fld R.MGT_TRACE F.MGT_TRACE_ENABLE = 1 && d.fwRuns then
      (d.raise { code := 0x0C51 }).setFld R.MGT_TRACE F.MGT_TRACE_ENABLE 0
    else d)

/-! ### Scheduling (R332, R337, R339) -/

/-- SCHED_CFG: the aging interval, 10 to 1,000 ms (R332). -/
def execSchedCfg (mb : Nat) (s : State) : Out :=
  mbRow mb (isOp 0x50) s (fun d r =>
    d.bodyRow mb r 2 [(0, decide (r.fld 0 2 < 10) || decide (1000 < r.fld 0 2))] (fun d =>
      (d.setFld R.MGT_SCHED F.MGT_SCHED_AGING_MS (r.fld 0 2)).mbAnswer mb r stOk []))

/-- The base class of a queue; one with no ready head shows it at once (R337). -/
def Dev.setClass (d : Dev) (q c : Nat) : Dev :=
  d.updQueue q (fun x => { x with base := c, cls := if x.readyHead.isSome then x.cls else c })

/-- QUEUE_CLASS (R332, R337). -/
def execQueueClass (mb : Nat) (s : State) : Out :=
  mbRow mb (isOp 0x51) s (fun d r =>
    d.bodyRow mb r 3 [(0, decide (4096 ≤ r.fld 0 2) || (d.queue (r.fld 0 2)).isNone), (2, decide (3 ≤ r.fld 2 1))] (fun d =>
      (d.setClass (r.fld 0 2) (r.fld 2 1)).mbAnswer mb r stOk []))

/-- URGENT_WINDOW: a window of 40 ms ends; the share starts anew and urgent_spent is 0 (R339). -/
def execUrgentWindow (s : State) : Out :=
  onDev s (fun d => if d.fw.urgentWindow < d.now / 40000000 then d.urgentAccount.pass else d)

/-- URGENT_SPENT: the share has run out in this window: urgent_spent becomes 1, with EVT 0x0C41 once (R339). -/
def execUrgentSpent (s : State) : Out :=
  onDev s (fun d =>
    let d := d.urgentAccount
    if decide (2560000000 ≤ d.fw.urgentNs) && d.urgentSpent = false && d.fwRuns then
      (d.setFld R.MGT_SCHED F.MGT_SCHED_SPENT 1).raise { code := 0x0C41 }
    else d)

/-! ### Timers (R345) -/

/-- A general timer. -/
def Dev.timer (d : Dev) (i : Nat) : Timer := (look i d.timers).getD ⟨false, 0, 0, 0, 0⟩

/-- A timer set: it next expires at the next tempo multiple of its period. -/
def Dev.timerSet (d : Dev) (i : Nat) (enable : Bool) (obj periodUs value : Nat) : Dev :=
  let p := periodUs * 1000
  { d with timers := put i ⟨enable, obj, p, value, (d.now / p + 1) * p⟩ d.timers }

/-- TIMER_CFG (R345): subject to R344, timer i being resource 8 + i. -/
def execTimerCfg (mb : Nat) (s : State) : Out :=
  mbRow mb (isOp 0x71) s (fun d r =>
    let i := r.fld 0 1
    let on := r.fld 1 1 = 1
    let obj := r.fld 2 2
    d.bodyRow mb r 12
      [(0, decide (4 ≤ i)), (1, decide (2 ≤ r.fld 1 1)), (2, decide (16384 ≤ obj)),
        (4, decide (r.fld 4 4 < 10) || decide (60000000 < r.fld 4 4)),
        (2, on && d.fld (R.SYN_OBJ obj) F.SYN_OBJ_ALLOC ≠ 1)] (fun d =>
      if on && d.owner (8 + i) ≠ 2 then d.resourceBusy mb r (8 + i)
      else (d.timerSet i on obj (r.fld 4 4) (r.fld 8 4)).mbAnswer mb r stOk []))

/-- TIMER_EXPIRY: an enabled timer expires: it signals VALUE to its object as a host operation of the context that owns the
object (R345) (DESIGN CHOICE, log entry 122). -/
def execTimerExpiry (i : Nat) (s : State) : Out :=
  onUnit "timer" 4 i s (fun d =>
    let x := d.timer i
    if x.enable && decide (x.next ≤ d.now) && decide (0 < x.period) then
      let d := { d with timers := put i { x with next := (d.now / x.period + 1) * x.period } d.timers }
      d.syncSignal x.obj x.value
    else d)

/-! ### The messages of the forerunner that need no power or heat (R336) -/

/-- Z8_INFO: VERSION_GET that gives RELEASE and SVN only. -/
def execZ8Info (mb : Nat) (s : State) : Out :=
  mbRow mb (isOp 0x0101) s (fun d r =>
    d.bodyRow mb r 0 [] (fun d => d.mbAnswer mb r stOk (leBytes 2 d.fw.release ++ leBytes 1 d.fw.svn)))

/-- The class of a priority of the forerunner: 0 and 1 REALTIME, 2 to 5 NORMAL, 6 and 7 BULK (R336). -/
def z8Class (p : Nat) : Nat := if p ≤ 1 then 0 else if p ≤ 5 then 1 else 2

/-- Z8_PRIO_SET: QUEUE_CLASS by priority (R336) (PRESUMED, log entry 90). -/
def execZ8PrioSet (mb : Nat) (s : State) : Out :=
  mbRow mb (isOp 0x0301) s (fun d r =>
    d.bodyRow mb r 3 [(0, decide (4096 ≤ r.fld 0 2) || (d.queue (r.fld 0 2)).isNone), (2, decide (8 ≤ r.fld 2 1))] (fun d =>
      (d.setClass (r.fld 0 2) (z8Class (r.fld 2 1))).mbAnswer mb r stOk []))

/-- Z8_AGING_SET: SCHED_CFG (R336). -/
def execZ8AgingSet (mb : Nat) (s : State) : Out :=
  mbRow mb (isOp 0x0302) s (fun d r =>
    d.bodyRow mb r 2 [(0, decide (r.fld 0 2 < 10) || decide (1000 < r.fld 0 2))] (fun d =>
      (d.setFld R.MGT_SCHED F.MGT_SCHED_AGING_MS (r.fld 0 2)).mbAnswer mb r stOk []))

/-- Z8_GATE: the personality decides gating: NOT_SUPPORTED with EVT 0x0C60 (R336). -/
def execZ8Gate (mb : Nat) (s : State) : Out :=
  mbRow mb (isOp 0x0402) s (fun d r => (d.raise { code := 0x0C60, args := [mb, r.opcode] }).mbAnswer mb r mbNotSupported [])

end Sys2Proof.Machine
end

