-- ==== Sys2Proof/Machine/Stop.lean ====
section
/-! DEFINITION. The orderly stop and the hardware trip (R388, R389, R391), which heat, coolant, a leak and the converter rule start,
and the row STOP_DONE. -/

namespace Sys2Proof.Machine

/-- THM_STAT.STOP: 0 RUNNING, 1 STOPPING, 2 STOPPED (R395). -/
def Dev.stopState (d : Dev) : Nat := d.fld R.THM_STAT F.THM_STAT_STOP

/-- The cause of a stop is written (R389, R395). -/
def Dev.stopRecord (d : Dev) (cause kind unit temp : Nat) : Dev :=
  let d := (d.setFld R.THM_STOP F.THM_STOP_CAUSE cause).setFld R.THM_STOP F.THM_STOP_KIND kind
  let d := (d.setFld R.THM_STOP F.THM_STOP_UNIT unit).setFld R.THM_STOP F.THM_STOP_TEMP temp
  (d.satFld R.THM_STOP F.THM_STOP_COUNT 1).setReg R.THM_STOP_TEMPO (BitVec.ofNat 64 d.now)

/-- An orderly stop starts, unless one has: it acts on all work as a device-wide resign that is part of the stop; a castling
and wakes in progress are abandoned; EVT 0x0E20 (R388, R389). `keepsMem` says whether memory stays powered (DESIGN CHOICE,
log entry 105). -/
def Dev.stopBegin (d : Dev) (cause kind unit temp : Nat) (keepsMem : Bool) : Dev :=
  if d.stopState ≠ 0 then d
  else
    let d := (d.castleAbandon.setFld R.THM_STAT F.THM_STAT_STOP 1).stopRecord cause kind unit temp
    let d := d.raise { code := 0x0E20, unit := unit, args := [kind, temp, cause] }
    let stage := if decide (5 ≤ d.boot.stage) && decide (d.boot.stage ≤ 7) then 9 else d.boot.stage
    let r : Resign := { fn := 0, scope := 4, target := 0, queues := d.workQueues, stopped := 0, dropped := 0 }
    let d := { d with
      boot := { d.boot with stage := stage }
      thm := { d.thm with stopKeepsMem := keepsMem }
      resigns := d.resigns ++ [r] }
    (allClusters.foldl Dev.warmPause d).resignStops 4 0

/-- TRIP: the cause is recorded in THM_TRIP_REC, every other domain drops, THERMTRIP_N is released; the module stays dark until a
reset (R391). -/
def Dev.trip (d : Dev) (cause kind unit temp : Nat) : Dev :=
  let off := R.THM_TRIP_REC
  let d := ((d.setFld off F.THM_TRIP_REC_VALID 1).setFld off F.THM_TRIP_REC_CAUSE cause).setFld off F.THM_TRIP_REC_KIND kind
  let d := ((d.setFld off F.THM_TRIP_REC_UNIT unit).setFld off F.THM_TRIP_REC_TEMP temp).satFld off F.THM_TRIP_REC_COUNT 1
  { d with
    pins := { d.pins with dark := true, thermtrip := false }
    host := { d.host with linkUp := false } }

/-- The domains that a stop gates: every cluster but the fenced, the optics, and memory unless the cause keeps it; what memory
held is then lost, the log ring included (R389). -/
def Dev.stopGates (d : Dev) : Dev :=
  let d := allClusters.foldl (fun d c => if d.cluWake c = 4 then d else d.gate c 0) d
  let d := (List.range 32).foldl (fun d k => if d.portState k = 0 then d else d.portTo k 4) d
  if d.thm.stopKeepsMem then d
  else { d with mem := { d.mem with cells := [], err := [], wbPend := [] }, log := { d.log with ring := [] } }

/-- Every context and work queue is destroyed; PERSONA and CFG_STATE are cleared (R30, R389) (DESIGN CHOICE, log entry 130). -/
def Dev.stopClears (d : Dev) : Dev :=
  let d := { d with resigns := d.resigns.filter (fun r => r.scope ≠ 4) }
  let d := (d.ctxs.map (·.1)).foldl Dev.destroyCtx d
  let d := ({ d with queues := d.queues.filter (fun e => isAdmin e.1) } : Dev).unconfigure
  d.setFld R.MGT_PERSONA F.MGT_PERSONA_ACTIVE_CLUSTERS 0

/-- STOP_DONE: all work has ended; the domains are gated, STOP reads STOPPED, EVT 0x0E21; every record has been written and
contexts and queues go (R389). -/
def execStopDone (s : State) : Out :=
  onDev s (fun d =>
    if d.stopState = 1 && (d.resigns.filter (fun r => r.scope = 4)).all d.resignOver then
      let off := R.THM_STOP
      let d := (d.stopGates.setFld R.THM_STAT F.THM_STAT_STOP 2).raise { code := 0x0E21, unit := d.fld off F.THM_STOP_UNIT, args := [d.fld off F.THM_STOP_KIND, d.fld off F.THM_STOP_TEMP, d.fld off F.THM_STOP_CAUSE] }
      (d.resigns.filter (fun r => r.scope ≠ 4)).foldl (fun d r => if d.resignOver r then d.resignEnd r else d) d.stopClears
    else d)

end Sys2Proof.Machine
end

