-- ==== Sys2Proof/Machine/Thermal.lean ====
section
/-! DEFINITION. Heat (chapter 16): samples, levels and rates (R376 to R382), disagreeing sensors and the middle layers (R383 to R385),
what they make of refresh (R138), clocking (R133), in-stack sequences (R168), edge routers (R124) and castling (R393, R394); the
coolant (R386, R387), the leak input (R424) and keep-warm (R392). Temperatures are in 1/16 °C. -/

namespace Sys2Proof.Machine

/-! ### Spots -/

/-- A spot that has not been sampled. -/
def SpotSt.blank : SpotSt :=
  { last := none, hist := [], level := 0, cool := 0, rate := false, rateCool := 0, rateStop := false, fast := false, slow := 0,
    ft := 0, hits := [], invalid := [], told := [], apart := 0, agree := 0, source := 0, refCool := 0, holdCool := 0 }

/-- A spot. -/
def Dev.spot (d : Dev) (p : Spot) : SpotSt := (look p d.thm.spots).getD SpotSt.blank

/-- Change a spot. -/
def Dev.updSpot (d : Dev) (p : Spot) (f : SpotSt → SpotSt) : Dev :=
  { d with thm := { d.thm with spots := put p (f (d.spot p)) d.thm.spots } }

/-- KIND of a spot (R395). -/
def spotKind : Spot → Nat
  | .tile _ => 0
  | .near _ _ => 1
  | .far _ => 2
  | .edge _ => 3

/-- The unit index of a spot. -/
def spotUnit : Spot → Nat
  | .tile t => t
  | .near t k => 4 * t + k
  | .far n => n
  | .edge e => e

/-- Sensors of a spot. -/
def spotSensors : Spot → Nat
  | .tile _ => 2
  | .near _ _ => 1
  | .far _ => 12
  | .edge _ => 1

/-- The index of sensor i of a spot in the defect list (R402). -/
def spotSensor (p : Spot) (i : Nat) : Nat := (spotSensors p) * (spotUnit p) + i

/-- Whether a spot is DRAM. -/
def spotDram : Spot → Bool
  | .near _ _ => true
  | .far _ => true
  | _ => false

/-- Whether a spot names a unit of the device. -/
def spotExists : Spot → Bool
  | .tile t => decide (t < 256)
  | .near t k => decide (t < 256) && decide (k < 4)
  | .far n => decide (n < 16)
  | .edge e => decide (e < 64)

/-- The threshold of a level, 1 WATCH to 4 TRIP, in 1/16 °C (R380). -/
def threshold (dram : Bool) (level : Nat) : Nat :=
  match level with
  | 1 => if dram then 1360 else 1440
  | 2 => if dram then 1520 else 1600
  | 3 => if dram then 1680 else 1760
  | _ => if dram then 1760 else 1920

/-- The level a value reaches. -/
def levelOf (dram : Bool) (v : Nat) : Nat :=
  if threshold dram 4 ≤ v then 4 else if threshold dram 3 ≤ v then 3 else if threshold dram 2 ≤ v then 2
  else if threshold dram 1 ≤ v then 1 else 0

/-! ### Readings (R376, R405) -/

/-- A reading is valid from 0 °C to 150 °C (R376). -/
def validReading : Option Int → Option Nat
  | some r => if decide (0 ≤ r) && decide (r ≤ 2400) then some r.toNat else none
  | none => none

/-- How a register shows a reading: below 0 °C as 0, no valid reading as 0xFFF (R376). -/
def shownReading : Option Int → Nat
  | some r => if r < 0 then 0 else if r ≤ 2400 then r.toNat else 0xFFF
  | none => 0xFFF

/-- Whether a sensor is listed as failed by the defect merge: listed by a source other than RUNTIME (R391, R405). -/
def Dev.sensorListed (d : Dev) (p : Spot) (i : Nat) : Bool :=
  d.boot.defects.any (fun x => x.kind = 13 && x.unit = (spotKind p) && x.index = spotSensor p i && x.source % 8 ≠ 0)

/-- The valid readings of a sample that the rules use, by sensor: a listed sensor gives none. -/
def Dev.usable (d : Dev) (p : Spot) (raw : List (Option Int)) : List (Option Nat) :=
  (List.range (spotSensors p)).map (fun i => if d.sensorListed p i then none else validReading (raw.getD i none))

/-- The sensors whose conversion failed or whose reading is out of range. -/
def Dev.invalidOf (d : Dev) (p : Spot) (raw : List (Option Int)) : List Nat :=
  (List.range (spotSensors p)).filter (fun i => !d.sensorListed p i && (validReading (raw.getD i none)).isNone)

/-- Invalid sensors are counted, and each reported once (R376). -/
def Dev.noteInvalid (d : Dev) (p : Spot) (raw : List (Option Int)) : Dev :=
  let bad := d.invalidOf p raw
  let new := bad.filter (fun i => !(d.spot p).told.contains i)
  let d := d.updSpot p (fun x => { x with invalid := bad, told := x.told ++ new })
  new.foldl (fun d i => d.raise { code := 0x0E14, unit := spotSensor p i, args := [(spotKind p), spotSensor p i] }) d

/-- The highest of some readings. -/
def highest : List (Option Nat) → Option Nat
  | [] => none
  | none :: r => highest r
  | some v :: r => some (match highest r with | some w => max v w | none => v)

/-- A value of a THM register: none for 0xFFF. -/
def shownValue (v : Nat) : Option Nat := if v = 0xFFF then none else some v

/-- The level-driving value of a tile, as THM_TILE shows it. -/
def Dev.tileValue (d : Dev) (t : Nat) : Option Nat := shownValue (d.fld (R.THM_TILE t) F.THM_TILE_VALUE)

/-- The edge-adjacent tiles (R18). -/
def tileNeighbours (t : Nat) : List Nat :=
  let f := 4 * (t / 16 % 4) + t % 4
  let r := 4 * (t / 64) + t % 16 / 4
  let at_ : Nat → Nat → Nat := fun f r => 16 * (4 * (r / 4) + f / 4) + 4 * (r % 4) + f % 4
  (if f = 0 then [] else [at_ (f - 1) r]) ++ (if f = 15 then [] else [at_ (f + 1) r]) ++
    (if r = 0 then [] else [at_ f (r - 1)]) ++ (if r = 15 then [] else [at_ f (r + 1)])

/-- The adjacent edge routers on the same edge (R106). -/
def edgeNeighbours (e : Nat) : List Nat :=
  (if e % 16 = 0 then [] else [e - 1]) ++ (if e % 16 = 15 then [] else [e + 1])

/-! ### The middle layers (R378, R384, R385) -/

/-- A middle layer's judgement. -/
def Dev.mid (d : Dev) (t k : Nat) : MidSt := (look (t, k) d.thm.mids).getD ⟨0, 0, 0, false, false⟩

/-- The last reading of a near layer: none before its first sample, else what it gave. -/
def Dev.nearLast (d : Dev) (t k : Nat) : Option (Option Nat) := look (t, k) d.thm.near

/-- A model value M1 or M2, as THM_NM_MODEL shows it. -/
def Dev.modelValue (d : Dev) (t k : Nat) : Option Nat :=
  shownValue (d.fld (R.THM_NM_MODEL t) (if k = 1 then F.THM_NM_MODEL_MODEL1 else F.THM_NM_MODEL_MODEL2))

/-- Mk from the readings of N0 and N3 and the granules moved on N1 and N2 in dt ns: with RL = 6 K/W, EG = 0.16 nJ and
PS = 0.05 W, in 1/16 °C, rounded down (R384). -/
def stackModel (k t0 t3 g1 g2 dt : Nat) : Nat :=
  let dt := max dt 1
  if k = 1 then ((2 * t0 + t3) * 100 * dt + (4 * g1 + 2 * g2) * 1536 + 2880 * dt) / (300 * dt)
  else ((t0 + 2 * t3) * 100 * dt + (2 * g1 + 4 * g2) * 1536 + 2880 * dt) / (300 * dt)

/-- A sample of a column at a tempo, with the granules that its first layer to be sampled there brings (R384) (DESIGN
CHOICE, log entry 153). -/
def Dev.columnSample (d : Dev) (t g1 g2 : Nat) : Column :=
  match look t d.thm.columnAt with
  | some x => if x.stamp = d.now then x else ⟨d.now, d.now - x.stamp, g1, g2⟩
  | none => ⟨d.now, 100000, g1, g2⟩

/-- The firmware computes the model of a column; while the core is down the last values stay (R378, R384). -/
def Dev.columnModel (d : Dev) (t g1 g2 : Nat) : Dev :=
  if d.fwRuns = false then d
  else
    let x := d.columnSample t g1 g2
    let d := { d with thm := { d.thm with columnAt := put t x d.thm.columnAt } }
    let off := R.THM_NM_MODEL t
    match d.nearLast t 0, d.nearLast t 3 with
    | some (some t0), some (some t3) =>
      (d.setFld off F.THM_NM_MODEL_MODEL1 (min 0xFFE (stackModel 1 t0 t3 x.g1 x.g2 x.dt))).setFld off F.THM_NM_MODEL_MODEL2
        (min 0xFFE (stackModel 2 t0 t3 x.g1 x.g2 x.dt))
    | _, _ => (d.setFld off F.THM_NM_MODEL_MODEL1 0xFFF).setFld off F.THM_NM_MODEL_MODEL2 0xFFF

/-- DRIVESk: the model drives the layer, its reading being suspect or invalid. -/
def Dev.showDrives (d : Dev) (t k : Nat) (v : Bool) : Dev :=
  d.setFld (R.THM_NM_MODEL t) (if k = 1 then F.THM_NM_MODEL_DRIVES1 else F.THM_NM_MODEL_DRIVES2) (b2n v)

/-- A middle layer's reading is judged against its model value (R385). -/
def Dev.judgeMid (d : Dev) (t k r m : Nat) : Dev :=
  let p := Spot.near t k
  let x := d.mid t k
  let above := if r + 96 < m then x.above + 1 else 0
  let below := if m + 96 < r then x.below + 1 else 0
  let hit := above = 3 || below = 3
  let near := decide (m ≤ r + 48) && decide (r ≤ m + 48)
  let agree := if hit || !x.suspect then 0 else if near then x.agree + 1 else 0
  let clear := x.suspect && !hit && decide (100 ≤ agree)
  let suspect := (x.suspect || hit) && !clear
  let drives := if above = 3 then true else if below = 3 || clear then false else x.drives
  let y : MidSt := ⟨above, below, if clear then 0 else agree, suspect, drives⟩
  let ev : Nat → Ev := fun c => { code := c, unit := (spotUnit p), args := [1, r, m] }
  let d := { d with thm := { d.thm with mids := put (t, k) y d.thm.mids } }
  let d := if hit && !x.suspect then (d.raise (ev 0x0E11)).addDefect 13 1 (spotUnit p) 4 else d
  let d := if above = 3 && !x.drives then d.raise (ev 0x0E12) else d
  let d := if clear then d.raise (ev 0x0E13) else d
  d.showDrives t k drives

/-- The value of a near layer and its source (R378, R385). -/
def Dev.nearValue (d : Dev) (t k : Nat) (r : Option Nat) : Option Nat × Nat :=
  if d.nearLast t 0 = some none || d.nearLast t 3 = some none then ((d.tileValue t).map (· + 80), 2)
  else if (k = 1 || k = 2) && (r.isNone || (d.mid t k).drives) then ((d.modelValue t k).map (· + 48), 1)
  else (r, 0)

/-! ### What a spot's level and value act on (R382) -/

/-- Refresh follows the value at once upwards, and downwards after 10 samples at least 2 °C below the range in force (R138). -/
def refreshStep (old cool v : Nat) : Nat × Nat :=
  let now := if 1520 ≤ v then 2 else if 1360 ≤ v then 1 else 0
  if old < now then (now, 0)
  else if old = 0 then (0, 0)
  else
    let bound := if old = 2 then 1520 else 1360
    if v + 32 ≤ bound then (if cool = 9 then (old - 1, 0) else (old, cool + 1)) else (old, 0)

/-- The REFRESH field of a DRAM spot: its register, its place. -/
def spotRefreshAt : Spot → Option (Nat × Field)
  | .near t k => some (R.MEM_NCH_STAT t, ⟨F.MEM_NCH_STAT_REFRESH.lo + 2 * k, 2⟩)
  | .far n => some (R.MEM_FMC_STAT n, F.MEM_FMC_STAT_REFRESH)
  | _ => none

/-- The refresh rate of a DRAM spot (R138): a change raises EVT 0x0421. -/
def Dev.refreshRate (d : Dev) (p : Spot) (v : Nat) : Dev :=
  match (spotRefreshAt p) with
  | none => d
  | some (off, f) =>
    let old := d.fld off f
    let (new, cool) := refreshStep old (d.spot p).refCool v
    let d := d.updSpot p (fun x => { x with refCool := cool })
    if new = old then d
    else (d.setFld off f new).raise { code := 0x0421, unit := (spotUnit p), args := [(spotKind p), 2 ^ new] }

/-- A near layer at 95 °C starts the switch of every channel from COMMON to LAYER clocking (R133). -/
def Dev.clockFallback (d : Dev) (p : Spot) (v : Nat) : Dev :=
  match p with
  | .near t _ =>
    if decide (1520 ≤ v) && d.fld R.MEM_CFG F.MEM_CFG_NM_CLOCK = 0 && d.fld R.MEM_CFG F.MEM_CFG_CLK_FALLBACK = 0 && !d.mem.clkPend then
      { d with mem := { d.mem with clkPend := true, clkTile := t, switched := [] } } else d
  | _ => d

/-- A stack at CHECK, or in rate CHECK, starts no sequence until 10 samples at least 2 °C below (R168, R381). -/
def Dev.thermHold (d : Dev) (p : Spot) (v : Nat) : Dev :=
  match p with
  | .far n =>
    let x := d.spot p
    let off := R.PIM_STK_STAT n
    let held := d.fld off F.PIM_STK_STAT_THERM_HOLD = 1
    let hot := decide (1520 ≤ v) || x.rate
    if hot then
      let d := d.updSpot p (fun x => { x with holdCool := 0 })
      if held then d else (d.setFld off F.PIM_STK_STAT_THERM_HOLD 1).raise { code := 0x0512, unit := n, args := [v] }
    else if held = false then d
    else if 1488 < v then d.updSpot p (fun x => { x with holdCool := 0 })
    else if x.holdCool = 9 then
      ((d.updSpot p (fun x => { x with holdCool := 0 })).setFld off F.PIM_STK_STAT_THERM_HOLD 0).raise { code := 0x0513, unit := n, args := [v] }
    else d.updSpot p (fun x => { x with holdCool := x.holdCool + 1 })
  | _ => d

/-- Cycles that thinning has blanked in an edge router are counted up to now: APPLIED of every 100 CLK_NOC cycles, two a ns
(R124, R126). -/
def Dev.edgeAccount (d : Dev) (e : Nat) : Dev :=
  let (since, part) := (look e d.thm.edgeAcc).getD (d.now, 0)
  let all := part + (d.now - since) * 2 * d.fld (R.NOC_EDGE_CTL e) F.NOC_EDGE_CTL_APPLIED
  let d := { d with thm := { d.thm with edgeAcc := put e (d.now, all % 100) d.thm.edgeAcc } }
  d.wrapFld (R.NOC_EDGE_CNT e) F.NOC_EDGE_CNT_BUBBLES (all / 100)

/-- An edge router's APPLIED thinning: FW_PCT below CHECK, the larger of FW_PCT and CHECK_PCT at CHECK or in rate CHECK (R124, R381,
R382). -/
def Dev.edgeThin (d : Dev) (p : Spot) : Dev :=
  match p with
  | .edge e =>
    let off := R.NOC_EDGE_CTL e
    let x := d.spot p
    let fw := d.fld off F.NOC_EDGE_CTL_FW_PCT
    let new := if decide (2 ≤ x.level) || x.rate then max fw (d.fld off F.NOC_EDGE_CTL_CHECK_PCT) else fw
    let old := d.fld off F.NOC_EDGE_CTL_APPLIED
    if new = old then d
    else
      let d := (d.edgeAccount e).setFld off F.NOC_EDGE_CTL_APPLIED new
      let d := d.traceAt (tracePoint 0x03 5) e 0xFFFF 0xFFFF e new
      if old = 0 then d.raise { code := 0x0310, unit := e, args := [new] }
      else if new = 0 then d.raise { code := 0x0311, unit := e, args := [new] } else d
  | _ => d

/-- The thermal fraction of a cluster: the largest FT among its tiles and their near layers (R382). -/
def Dev.clusterFt (d : Dev) (c : Nat) : Nat :=
  d.thm.spots.foldl (fun m e => match e.1 with
    | .tile t => if t / 16 = c then max m e.2.ft else m
    | .near t _ => if t / 16 = c then max m e.2.ft else m
    | _ => m) 0

/-- A spot of a cluster at WATCH or above suspends keep-warm there (R392). -/
def Dev.warmWatch (d : Dev) (p : Spot) : Dev :=
  if (d.spot p).level = 0 then d
  else
    match p with
    | .tile t => d.warmPause (t / 16)
    | .near t _ => d.warmPause (t / 16)
    | _ => d

/-- The cluster of a tile or near spot takes its thermal fraction; a stack's controller shows its own. -/
def Dev.thermalFraction (d : Dev) (p : Spot) : Dev :=
  match p with
  | .tile t => (d.setFld (R.THM_CLU (t / 16)) F.THM_CLU_FT (d.clusterFt (t / 16))).applyF (t / 16)
  | .near t _ => (d.setFld (R.THM_CLU (t / 16)) F.THM_CLU_FT (d.clusterFt (t / 16))).applyF (t / 16)
  | .far n =>
    let old := d.fld (R.THM_FAR n) F.THM_FAR_FT
    let ft := (d.spot p).ft
    let d := d.setFld (R.THM_FAR n) F.THM_FAR_FT ft
    if ft = old then d else d.traceAt (tracePoint 0x05 5) n 0xFFFF 0xFFFF n (ft * 100 / 1024)
  | .edge _ => d

/-! ### Levels and rates (R380, R381, R388) -/

/-- The value of the latest sample taken at or before a time. -/
def valueAt (hist : List (Nat × Nat)) (t : Nat) : Option Nat := (hist.find? (fun e => decide (e.1 ≤ t))).map (·.2)

/-- The rise of a spot over a span, against its latest sample at or before that span ago (R381). -/
def riseOver (hist : List (Nat × Nat)) (now span v : Nat) : Option Int :=
  if now < span then none else (valueAt hist (now - span)).map (fun w => (v : Int) - w)

/-- The part of a spot's history that the next samples can need. -/
def keepHist (now : Nat) : List (Nat × Nat) → List (Nat × Nat)
  | [] => []
  | e :: r => if e.1 + 1000000 ≤ now then [e] else e :: keepHist now r

/-- The level after a sample, and the samples towards a lower one (R380). -/
def levelStep (dram : Bool) (level cool v : Nat) : Nat × Nat :=
  let up := levelOf dram v
  if level < up then (up, 0)
  else if level = 0 then (0, 0)
  else if v + 32 ≤ threshold dram level then (if cool = 9 then (level - 1, 0) else (level, cool + 1))
  else (level, 0)

/-- The event of a level entered (R380). -/
def levelEvent (level : Nat) : Option Nat :=
  match level with
  | 1 => some 0x0E01
  | 2 => some 0x0E02
  | 3 => some 0x0E03
  | _ => none

/-- FT of a spot: at CHECK by the excess over the CHECK threshold, in rate CHECK with no excess (R381, R382). -/
def ftOf (dram : Bool) (level : Nat) (rate : Bool) (v : Nat) : Nat :=
  if 2 ≤ level then min 921 (205 + 102 * (v - threshold dram 2) / 16) else if rate then 205 else 0

/-- A spot takes its new level, with the event (R380). -/
def Dev.spotLevel (d : Dev) (p : Spot) (v : Nat) : Dev :=
  let x := d.spot p
  let (level, cool) := levelStep (spotDram p) x.level x.cool v
  let d := d.updSpot p (fun y => { y with level := level, cool := cool })
  let ev : Nat → Ev := fun c => { code := c, unit := (spotUnit p), args := [(spotKind p), v] }
  if x.level < level then
    match levelEvent level with
    | some c => d.raise (ev c)
    | none => d
  else if x.level ≠ 0 && level = 0 then d.raise (ev 0x0E04) else d

/-- A spot's rates: rate CHECK from 2 °C/ms over 1 ms until 10 samples below 1 °C/ms; STOP from 5 °C/ms over 0.5 ms (R381). -/
def Dev.spotRates (d : Dev) (p : Spot) (v : Nat) (r1 r05 : Option Int) : Dev :=
  let x := d.spot p
  let enter := r1.any (fun r => decide (32 ≤ r))
  let slow := r1.any (fun r => decide (r < 16))
  let cool := if enter || !x.rate then 0 else if slow then x.rateCool + 1 else 0
  let rate := enter || (x.rate && decide (cool < 10))
  let stop := r05.any (fun r => decide (40 ≤ r))
  let d := d.updSpot p (fun y => { y with rate := rate, rateCool := if rate then cool else 0, rateStop := stop })
  let ev : Nat → Option Int → Ev := fun c r => { code := c, unit := (spotUnit p), args := [(spotKind p), (r.getD 0).toNat, v] }
  let d := if enter && !x.rate then d.raise (ev 0x0E05 r1) else d
  if stop && !x.rateStop then (d.raise (ev 0x0E06 r05)).stopBegin 2 (spotKind p) (spotUnit p) v ((spotKind p) = 0 || (spotKind p) = 3) else d

/-- Fast sampling: from the first sample near CHECK or rising at 1 °C/ms, until 10 samples that are neither (R379). -/
def Dev.spotFast (d : Dev) (p : Spot) (test : Nat) (r1 : Option Int) : Dev :=
  let near := decide (threshold (spotDram p) 2 ≤ test + 80) || r1.any (fun r => decide (16 ≤ r))
  d.updSpot p (fun x =>
    if near then { x with fast := true, slow := 0 }
    else if x.fast then (if x.slow = 9 then { x with fast := false, slow := 0 } else { x with slow := x.slow + 1 })
    else x)

/-- The projected time to TRIP is under 2 ms: (TRIP − v)/r05 with r05 over half a ms (R388). -/
def projected (dram : Bool) (v : Nat) (r05 : Option Int) : Bool :=
  r05.any (fun r => decide (0 < r) && decide ((threshold dram 4 : Int) - v < 4 * r))

/-- A spot with a value is judged: level, rates, what both act on, sampling; then the stop, and the trip if it is near (R379 to R382,
R388) (DESIGN CHOICE, log entry 102). -/
def Dev.judge (d : Dev) (p : Spot) (v source test : Nat) : Dev :=
  let x := d.spot p
  let hist := if x.source = source then x.hist else []
  let r1 := riseOver hist d.now 1000000 v
  let r05 := riseOver hist d.now 500000 v
  let d := d.updSpot p (fun y => { y with hist := (d.now, v) :: keepHist d.now hist, source := source })
  if projected (spotDram p) v r05 then d.trip 2 (spotKind p) (spotUnit p) v
  else
    let d := d.spotLevel p v
    let d := d.spotRates p v r1 r05
    let d := d.updSpot p (fun y => { y with ft := ftOf (spotDram p) y.level y.rate v })
    let d := (((d.refreshRate p v).clockFallback p v).thermHold p v).edgeThin p
    let d := ((d.thermalFraction p).warmWatch p).spotFast p test r1
    if decide (x.level < 3) && decide (3 ≤ (d.spot p).level) then d.stopBegin 1 (spotKind p) (spotUnit p) v ((spotKind p) = 0 || (spotKind p) = 3) else d

/-- The TRIP comparators: a sensor that reads TRIP at two consecutive samples (R391). -/
def Dev.comparators (d : Dev) (p : Spot) (readings : List (Option Nat)) : Dev :=
  let hits := (List.range (spotSensors p)).filter (fun i => (readings.getD i none).any (fun r => decide (threshold (spotDram p) 4 ≤ r)))
  match hits.find? (fun i => (d.spot p).hits.contains i) with
  | some i => d.trip 1 (spotKind p) (spotUnit p) ((readings.getD i none).getD 0)
  | none => d.updSpot p (fun x => { x with hits := hits })

/-! ### Showing a spot (R395) -/

/-- A value as a register shows it. -/
def shown12 : Option Nat → Nat
  | some v => min v 0xFFE
  | none => 0xFFF

/-- A tile's pair of sensors (R383): EVT 0x0E10 when they have been apart for 10 samples, until they have agreed for 10. -/
def Dev.pairJudge (d : Dev) (t : Nat) (readings : List (Option Nat)) : Dev :=
  let p := Spot.tile t
  let x := d.spot p
  match readings.getD 0 none, readings.getD 1 none with
  | some a, some b =>
    if a + 64 < b || b + 64 < a then
      let d := d.updSpot p (fun x => { x with apart := x.apart + 1, agree := 0 })
      if x.apart + 1 = 10 && d.fld (R.THM_TILE t) F.THM_TILE_DISAGREE = 0 then
        (d.setFld (R.THM_TILE t) F.THM_TILE_DISAGREE 1).raise { code := 0x0E10, unit := t, args := [0, a, b] }
      else d
    else
      let d := d.updSpot p (fun x => { x with apart := 0, agree := x.agree + 1 })
      if decide (10 ≤ x.agree + 1) then d.setFld (R.THM_TILE t) F.THM_TILE_DISAGREE 0 else d
  | _, _ => d.updSpot p (fun x => { x with apart := 0, agree := 0 })

/-- The registers of a spot. -/
def Dev.showSpot (d : Dev) (p : Spot) (raw : List (Option Int)) (readings : List (Option Nat)) (value : Option Nat) : Dev :=
  let x := d.spot p
  match p with
  | .tile t =>
    let off := R.THM_TILE t
    let d := (d.setFld off F.THM_TILE_TEMP_A (shownReading (raw.getD 0 none))).setFld off F.THM_TILE_TEMP_B (shownReading (raw.getD 1 none))
    let d := (d.setFld off F.THM_TILE_VALUE (shown12 value)).setFld off F.THM_TILE_LEVEL x.level
    (d.setFld off F.THM_TILE_FAST (b2n x.fast)).setFld off F.THM_TILE_RATE (b2n x.rate)
  | .near t k =>
    let off := R.THM_NM t
    let d := (d.setFld off ⟨12 * k, 12⟩ (shown12 value)).setFld off ⟨48 + 3 * k, 3⟩ x.level
    let d := d.setFld off ⟨60 + k, 1⟩ (b2n ((readings.getD 0 none).isNone || (d.mid t k).suspect))
    if k = 1 then d.setFld (R.THM_NM_MODEL t) F.THM_NM_MODEL_RAW1 (shownReading (raw.getD 0 none))
    else if k = 2 then d.setFld (R.THM_NM_MODEL t) F.THM_NM_MODEL_RAW2 (shownReading (raw.getD 0 none)) else d
  | .far n =>
    let die := ((List.range 12).find? (fun i => readings.getD i none = highest readings)).getD 0
    let d := (d.setFld (R.THM_FAR n) F.THM_FAR_VALUE (shown12 value)).setFld (R.THM_FAR n) F.THM_FAR_DIE die
    let d := (d.setFld (R.THM_FAR n) F.THM_FAR_LEVEL x.level).setFld (R.THM_FAR n) F.THM_FAR_RATE (b2n x.rate)
    (List.range 12).foldl (fun d i => d.setFld (R.THM_FAR_DIE n (i / 4)) ⟨12 * (i % 4), 12⟩ (shownReading (raw.getD i none))) d
  | .edge e =>
    let d := (d.setFld (R.THM_EDGE e) F.THM_EDGE_VALUE (shown12 value)).setFld (R.THM_EDGE e) F.THM_EDGE_LEVEL x.level
    d.setFld (R.THM_EDGE e) F.THM_EDGE_RATE (b2n x.rate)

/-- The value of a spot now. -/
def SpotSt.value (x : SpotSt) : Nat := (x.hist.head?.map (·.2)).getD 0

/-- The spot that sets THM_STAT: the highest level, then the highest value. -/
def worstSpot : List (Spot × SpotSt) → Option (Spot × SpotSt)
  | [] => none
  | e :: r =>
    match worstSpot r with
    | none => some e
    | some w => if e.2.level < w.2.level || (e.2.level = w.2.level && decide (e.2.value < w.2.value)) then some w else some e

/-- THM_STAT follows the spots; FAST counts the sensors of fast spots, the flow sensor, and the two coolant temperatures when the
hottest spot is fast (R379, R395). -/
def Dev.showStat (d : Dev) : Dev :=
  let off := R.THM_STAT
  let ss := d.thm.spots
  let d := match worstSpot ss with
    | none => d
    | some (p, x) =>
      let d := ((d.setFld off F.THM_STAT_LEVEL x.level).setFld off F.THM_STAT_KIND (spotKind p)).setFld off F.THM_STAT_UNIT (spotUnit p)
      d.setFld off F.THM_STAT_TEMP x.value
  let d := d.setFld off F.THM_STAT_RATE (b2n (ss.any (fun e => e.2.rate)))
  let hot := ss.foldl (fun (m : Nat × Bool) e => if m.1 < e.2.value then (e.2.value, e.2.fast) else m) (0, false)
  let fast := ss.foldl (fun n e => if e.2.fast then n + (spotSensors e.1) else n) (1 + 2 * b2n hot.2)
  let bad := ss.foldl (fun n e => n + e.2.invalid.length) 0 +
    (d.thm.mids.filter (fun e => e.2.suspect && (d.spot (.near e.1.1 e.1.2)).invalid.isEmpty)).length
  (d.setFld off F.THM_STAT_FAST (min fast 0xFFFF)).setFld off F.THM_STAT_SUSPECT (min bad 0xFFFF)

/-! ### Castling (R393) -/

/-- The file and rank indices of a tile (R18). -/
def filePlace (t : Nat) : Nat × Nat := (4 * (t / 16 % 4) + t % 4, 4 * (t / 64) + t % 16 / 4)

/-- The pipeline and stage of a tile when the stage may be castled. -/
def Dev.swappableStage (d : Dev) (t : Nat) : Option (Nat × Stage) :=
  match d.tilePipe t with
  | none => none
  | some (pid, p) => if p.released && p.ending.isNone then ((p.stages.find? (fun g => g.tiles.contains t)).filter Stage.swappable).map (fun g => (pid, g)) else none

/-- The clusters a stage of a pipeline permits and the width it needs, from its descriptor (R100). -/
def Dev.stageNeed (d : Dev) (pid : Nat) (g : Stage) : StageNeed :=
  match look pid d.pipes with
  | none => ⟨0, 0, 0⟩
  | some p =>
    let i := (p.stages.findIdx? (fun s => s = g)).getD 0
    ((d.desc p.q p.n).map (fun x => (stageNeeds x.table).getD i ⟨0, 0, 0⟩)).getD ⟨0, 0, 0⟩

/-- Whether two tiles are equal for castling: usable, of one width, apart in file and rank, and both bound to castleable stages of one
pipeline, or the second IDLE and permitted for the first's stage (R393). -/
def Dev.castleEqual (d : Dev) (h c : Nat) : Bool :=
  d.width h = d.width c && d.fld (R.TIL_WIDTH c) F.TIL_WIDTH_RETIRED = 0 && (filePlace h).1 ≠ (filePlace c).1 && (filePlace h).2 ≠ (filePlace c).2 &&
    match d.swappableStage h with
    | none => false
    | some (pid, g) =>
      (d.swappableStage c).any (fun e => e.1 = pid) ||
        (d.tileFree c && (let n := d.stageNeed pid g; d.tileEligible n.minWidth n.clusters d.cacheMode c))

/-- How long each tile of a castleable stage has led an equal one by more than 8 °C, after a sample of tile t (R393). -/
def Dev.hotPairs (d : Dev) (t : Nat) : Dev :=
  let hs := (d.pipes.flatMap (fun e => (e.2.stages.filter Stage.swappable).flatMap (fun g => g.tiles))).eraseDups
  let pairs := (if hs.contains t then allTiles.map (fun c => (t, c)) else []) ++ hs.map (fun h => (h, t))
  pairs.foldl (fun d p =>
    let leads := match d.tileValue p.1, d.tileValue p.2 with
      | some a, some b => decide (b + 128 < a) && d.castleEqual p.1 p.2
      | _, _ => false
    let l := d.thm.hotSince
    let l := if leads then (if (look p l).isSome then l else put p d.now l) else drop1 p l
    { d with thm := { d.thm with hotSince := l } }) d

/-- The firmware starts a castling: of a tile that has led an equal one for 20 ms, neither castled for 100 ms, with the equal tile
of lowest value, ties to the lower number (R393). -/
def Dev.castleStart (d : Dev) (t : Nat) : Dev :=
  if d.pipes.isEmpty then d
  else
    let d := d.hotPairs t
    if d.thm.castle.isSome || d.stopState ≠ 0 || d.fwRuns = false then d
    else
      let rested : Nat → Bool := fun x => (look x d.thm.castledAt).all (fun a => decide (a + 100000000 ≤ d.now))
      let ripe := (d.thm.hotSince.filter (fun e => decide (e.2 + 20000000 ≤ d.now) && rested e.1.1 && rested e.1.2 && d.castleEqual e.1.1 e.1.2)).map (·.1)
      let key : Nat × Nat → Nat := fun p => ((d.tileValue p.2).getD 0xFFF) * 65536 + p.2 * 256 + p.1
      match sortBy (fun a b => decide (key a < key b)) ripe with
      | [] => d
      | p :: _ => { d with thm := { d.thm with castle := some ⟨p.1, p.2, d.now⟩ } }

/-! ### Keep-warm's record (R392) -/

/-- The hottest tile value of a cluster is kept while it has a bound tile, for the last 10 ms of such time; ACTIVE_AVG shows its
mean. -/
def Dev.warmRecord (d : Dev) (c : Nat) : Dev :=
  let bound := (clusterTiles c).any (fun t => (d.tile t).pipe.isSome)
  let x := d.clu c
  if bound = false then d.updClu c (fun x => { x with boundMark := none })
  else
    let ns := x.boundNs + (match x.boundMark with | some a => d.now - a | none => 0)
    let warm := ((ns, d.hottestTile c) :: x.warm).filter (fun e => decide (ns < e.1 + 10000000))
    let d := d.updClu c (fun x => { x with boundNs := ns, boundMark := some d.now, warm := warm })
    let sum := warm.foldl (fun n e => n + e.2) 0
    d.setFld (R.THM_CLU c) F.THM_CLU_ACTIVE_AVG (sum / warm.length)

/-! ### SENSOR_SAMPLE -/

/-- Whether a sample of a spot is due: at the tempo multiples of its period (R379). -/
def Dev.sampleDue (d : Dev) (p : Spot) : Bool :=
  let x := d.spot p
  let period := if x.fast then 10000 else 100000
  match x.last with
  | none => true
  | some t => decide (t / period < d.now / period)

/-- The value that a sample gives a spot, with its source (R378, R405). -/
def Dev.spotValue (d : Dev) (p : Spot) (readings : List (Option Nat)) : Option Nat × Nat :=
  match p with
  | .tile t =>
    if d.sensorListed p 0 && d.sensorListed p 1 then ((highest ((tileNeighbours t).map d.tileValue)).map (· + 80), 3)
    else (highest readings, 0)
  | .near t k => d.nearValue t k (readings.getD 0 none)
  | .far _ =>
    if (List.range 12).any (d.sensorListed p) then ((highest readings).map (· + 48), 3) else (highest readings, 0)
  | .edge e =>
    if d.sensorListed p 0 then
      ((highest ((edgeNeighbours e).map (fun i => shownValue (d.fld (R.THM_EDGE i) F.THM_EDGE_VALUE)))).map (· + 80), 3)
    else (highest readings, 0)

/-- What comes before a spot's value: the tile pair, or the layer's reading kept, its column's model, its judgement. -/
def Dev.beforeValue (d : Dev) (p : Spot) (readings : List (Option Nat)) (granules : List Nat) : Dev :=
  match p with
  | .tile t => (d.stressAccount (t / 16)).pairJudge t readings
  | .near t k =>
    let r := readings.getD 0 none
    let d := { d with thm := { d.thm with near := put (t, k) r d.thm.near } }
    let d := d.columnModel t (granules.getD 0 0) (granules.getD 1 0)
    if k = 1 || k = 2 then
      match r, d.modelValue t k with
      | some r, some m => d.judgeMid t k r m
      | none, _ => d.showDrives t k true
      | _, none => d
    else d
  | _ => d

/-- The larger of reading and model, by which fast sampling of a middle layer is judged (R379). -/
def Dev.fastTest (d : Dev) (p : Spot) (readings : List (Option Nat)) (v : Nat) : Nat :=
  match p with
  | .near t k =>
    if k = 1 || k = 2 then
      match readings.getD 0 none, d.modelValue t k with
      | some r, some m => max r m
      | none, some m => m
      | some r, none => r
      | none, none => v
    else v
  | _ => v

/-- What follows the value of a tile: keep-warm's record, castling. -/
def Dev.afterValue (d : Dev) (p : Spot) : Dev :=
  match p with
  | .tile t => (d.warmRecord (t / 16)).castleStart t
  | _ => d

/-- One sample of a spot. THERMTRIP_N sinks from the first (R420). -/
def Dev.sample (d : Dev) (p : Spot) (raw : List (Option Int)) (granules : List Nat) : Dev :=
  let d := { d with pins := { d.pins with thermtrip := true } }
  let d := (d.noteInvalid p raw).updSpot p (fun x => { x with last := some d.now })
  let readings := d.usable p raw
  let d := d.comparators p readings
  if d.alive = false then d
  else
    let d := d.beforeValue p readings granules
    let (value, source) := d.spotValue p readings
    let d := match value with
      | some v => d.judge p v source (d.fastTest p readings v)
      | none => d
    if d.alive = false then d
    else ((d.showSpot p raw readings value).afterValue p).showStat

/-- SENSOR_SAMPLE: the sequencer samples a spot: readings by sensor in 1/16 °C, none for a failed conversion; of a near layer, also the
granules moved on N1 and N2 since the column's last sample (R376 to R385, R388, R391). -/
def execSensorSample (spot : Spot) (raw : List (Option Int)) (granules : List Nat) (s : State) : Out :=
  if spotExists spot then onDev s (fun d => if d.sampleDue spot then d.sample spot raw granules else d)
  else .fault (.noSuchUnit "spot" (spotUnit spot))

/-! ### Coolant and leak (R386, R387, R424) -/

/-- A coolant sensor without a valid reading is reported once (R376). -/
def Dev.coolantInvalid (d : Dev) (i : Nat) : Dev :=
  if d.thm.coolantTold.contains i then d
  else ({ d with thm := { d.thm with coolantTold := i :: d.thm.coolantTold } } : Dev).raise { code := 0x0E14, unit := i, args := [4, i] }

/-- A flow or an inlet sample counts in the coolant window it falls into (R286, R386). -/
def Dev.coolantTakes (d : Dev) (kind v : Nat) : Dev :=
  let x := d.thm
  if d.windowOver 2 0 then { d with thm := { x with later := x.later ++ [(kind, v)] } }
  else if kind = 0 then { d with thm := { x with flowN := x.flowN + 1, flowSum := x.flowSum + v } }
  else { d with thm := { x with inletN := x.inletN + 1, inletSum := x.inletSum + v } }

/-- An inlet or outlet reading: one above 150 °C, as a failed conversion gives, or below 0 °C is not valid (R376). -/
def Dev.coolantTemp (d : Dev) (i : Nat) (v : Int) (f : Field) : Dev :=
  let d := d.setFld R.THM_COOLANT f (shownReading (some v))
  match validReading (some v) with
  | none => d.coolantInvalid i
  | some n => if i = 0 then d.coolantTakes 1 n else d

/-- FLOW_SAMPLE: the flow sensor in 0.001 L/min, none for no valid reading, and the inlet and outlet in 1/16 °C when they are sampled
with it; three flow samples in a row below 0.2 L/min are a flow stop (R379, R387). -/
def execFlowSample (flow : Option Nat) (inlet outlet : Option Int) (s : State) : Out :=
  onDev s (fun d =>
    let d := match inlet with | some v => d.coolantTemp 0 v F.THM_COOLANT_INLET | none => d
    let d := match outlet with | some v => d.coolantTemp 1 v F.THM_COOLANT_OUTLET | none => d
    match flow with
    | none => d.coolantInvalid 2
    | some q =>
      let low := if q < 200 then d.thm.flowLow + 1 else 0
      let d := ({ d with thm := { d.thm with flowLow := low } } : Dev).coolantTakes 0 q
      let d := d.setFld R.THM_COOLANT F.THM_COOLANT_FLOW (min q 0xFFF)
      if low = 3 then (d.raise { code := 0x0E33, unit := 2, args := [4, 2, q] }).stopBegin 4 4 2 0 false else d)

/-- The flow limit after a window of mean flow sum/n: in force below 1.6 L/min; it ends after 10 windows at 1.6 L/min or more (R386). -/
def Dev.flowLimitStep (d : Dev) (n sum : Nat) : Dev :=
  let x := d.thm
  if sum < 1600 * n then
    let d := { d with thm := { x with flowLimit := some (150 * sum / (1000 * n) * 10), flowGood := 0 } }
    if x.flowLimit.isNone then d.raise { code := 0x0E30, unit := 2, args := [4, 2, sum / n] } else d
  else if x.flowLimit.isSome then
    if x.flowGood + 1 = 10 then
      ({ d with thm := { x with flowLimit := none, flowGood := 0 } } : Dev).raise { code := 0x0E31, unit := 2, args := [4, 2, sum / n] }
    else { d with thm := { x with flowGood := x.flowGood + 1 } }
  else d

/-- Mean flow below 1.0 L/min: an orderly stop with EVT 0x0E32, reported on entry (R386). -/
def Dev.flowLowStep (d : Dev) (n sum : Nat) : Dev :=
  let low := decide (sum < 1000 * n)
  let was := d.thm.lowOn
  let d := { d with thm := { d.thm with lowOn := low } }
  if low && !was then (d.raise { code := 0x0E32, unit := 2, args := [4, 2, sum / n] }).stopBegin 3 4 2 0 false else d

/-- The inlet after a window of mean temperature sum/n: a limit between 45 °C and 55 °C, a stop from 55 °C, an event once per boot
below 20 °C (R386). -/
def Dev.inletStep (d : Dev) (n sum : Nat) : Dev :=
  let warm := decide (720 * n < sum) && decide (sum < 880 * n)
  let hot := decide (880 * n ≤ sum)
  let cold := decide (sum < 320 * n)
  let x := d.thm
  let ev : Ev := { code := 0x0E34, unit := 0, args := [4, 0, sum / n] }
  let d := { d with thm := { x with inletOn := warm, hotOn := hot, coldTold := x.coldTold || cold } }
  let d := if (warm && !x.inletOn) || (cold && !x.coldTold) then d.raise ev else d
  if hot && !x.hotOn then (d.raise ev).stopBegin 6 4 0 (min 0xFFE (sum / n)) false else d

/-- The limit of the inlet in W, if one is in force. -/
def inletLimit (n sum : Nat) : Option Nat :=
  if decide (720 * n < sum) && decide (sum < 880 * n) then some (30 * (880 * n - sum) / (16 * n) * 10) else none

/-- The lower of two limits. -/
def lowerLimit : Option Nat → Option Nat → Option Nat
  | some a, some b => some (min a b)
  | some a, none => some a
  | none, b => b

/-- COOLANT_WINDOW: a window of 1 ms ends; the coolant limit from its mean flow and mean inlet temperature (R386). It takes effect
from the next 10 µs window. A window without a sample of one of the two leaves that one's limit (DESIGN CHOICE, log entry 104). -/
def execCoolantWindow (s : State) : Out :=
  onDev s (fun d => d.atWindow 2 0 (fun d =>
    let x := d.thm
    let d := if x.flowN = 0 then d else (d.flowLimitStep x.flowN x.flowSum).flowLowStep x.flowN x.flowSum
    let inl : Nat × Nat := if x.inletN = 0 then
        (let v := d.fld R.THM_COOLANT F.THM_COOLANT_INLET; if v = 0xFFF then (0, 0) else (1, v)) else (x.inletN, x.inletSum)
    let d := if inl.1 = 0 then d else d.inletStep inl.1 inl.2
    let limit := lowerLimit d.thm.flowLimit (if inl.1 = 0 then none else inletLimit inl.1 inl.2)
    let d := { d with
      thm := { d.thm with flowN := 0, flowSum := 0, inletN := 0, inletSum := 0, later := [] }
      pwr := { d.pwr with coolLimit := limit } }
    let d := x.later.foldl (fun d e => d.coolantTakes e.1 e.2) d
    (d.setFld R.THM_COOLANT F.THM_COOLANT_LIMIT_W (match limit with | some w => min w 0xFFE | none => 0xFFF)).setFld
      R.THM_COOLANT F.THM_COOLANT_DERATING (b2n limit.isSome)))

/-- LEAK: GPIO0, while LEAK_DETECT owns it, has read high for 100 µs, or reads low again: EVT 0x0E35 and an orderly stop when the
input asserts (R387, R424). -/
def execLeak (high : Bool) (s : State) : Out :=
  onDev s (fun d =>
    if d.owner 0 ≠ 1 then d
    else
      let was := d.fld R.THM_COOLANT F.THM_COOLANT_LEAK = 1
      let d := { d with pins := { d.pins with gpio := setAt d.pins.gpio 0 { d.pins.gpio.getD 0 Gpio.reset with level := high } } }
      let d := d.setFld R.THM_COOLANT F.THM_COOLANT_LEAK (b2n high)
      if high && !was then (d.raise { code := 0x0E35, unit := 0, args := [5, 0, 1] }).stopBegin 5 5 0 0 false else d)

/-! ### Keep-warm (R392) -/

/-- Whether a cluster is kept warm: ungated, had a bound tile since reset, its usable tiles all IDLE (DESIGN CHOICE, log
entry 103). -/
def Dev.keptWarm (d : Dev) (c : Nat) : Bool :=
  d.powered c && (d.clu c).everBound && (clusterTiles c).all (fun t =>
    let st := d.fld (R.TIL_STATE t) F.TIL_STATE_STATE
    st = 1 || st = 4 || st = 5)

/-- Whether keep-warm is suspended: while F > 0, a spot of the cluster at WATCH or above, an orderly stop. -/
def Dev.warmSuspended (d : Dev) (c : Nat) : Bool :=
  decide (0 < d.fCap) || d.stopState ≠ 0 || d.thm.spots.any (fun e => decide (1 ≤ e.2.level) && match e.1 with
    | .tile t => t / 16 = c
    | .near t _ => t / 16 = c
    | _ => false)

/-- The shadow issues of keep-warm in a window of 1 ms: the duty's fraction of its CLK_ARR cycles, in each usable tile's array; they
are no slots (R392) (DESIGN CHOICE, log entry 152). -/
def Dev.warmIssues (d : Dev) (c : Nat) : Dev :=
  let n := d.fld (R.CLU_PWR_CFG c) F.CLU_PWR_CFG_FREQ_MHZ * 1000 * d.fld (R.THM_CLU c) F.THM_CLU_KW_DUTY / 32
  (clusterTiles c).foldl (fun d t =>
    if d.fld (R.TIL_WIDTH t) F.TIL_WIDTH_RETIRED = 1 then d else d.wrapFld (R.TIL_SHADOW_CNT t) F.TIL_SHADOW_CNT_COUNT n) d

/-- KEEP_WARM: every 1 ms the firmware moves the duty of a keep-warm cluster by 1/32 toward its target max(45 °C, A − 15 °C) (R392). -/
def execKeepWarm (c : Nat) (s : State) : Out :=
  onUnit "cluster" 16 c s (fun d => d.atWindow 3 c (fun d =>
    let off := R.THM_CLU c
    let d := if d.fld off F.THM_CLU_KW_DUTY = 0 then d else d.warmIssues c
    if d.fwRuns = false then d
    else if d.keptWarm c = false then d.warmNone c
    else
      let target := max 720 (d.fld off F.THM_CLU_ACTIVE_AVG - 240)
      let duty := d.fld off F.THM_CLU_KW_DUTY
      let hot := d.hottestTile c
      let next := if d.warmSuspended c then 0 else if hot < target then min 32 (duty + 1) else if target + 32 < hot then duty - 1 else duty
      ((d.setFld off F.THM_CLU_KW_ACTIVE 1).setFld off F.THM_CLU_KW_TARGET target).setFld off F.THM_CLU_KW_DUTY next))

/-! ### The end of a castling (R394) -/

/-- Whether a stream has a message in flight from or to one of two tiles. -/
def Stream.inFlight (st : Stream) (a b : Nat) : Bool :=
  st.flight.any (fun f => f.prod = a || f.prod = b || (st.sampler.isNone && (f.cons = a || f.cons = b)))

/-- Whether both tiles stand still and nothing of theirs is under way. -/
def Dev.castleStill (d : Dev) (k : Castle) : Bool :=
  [k.hot, k.cool].all (fun t => let x := d.tile t; x.seq ≠ .run || x.atBoundary) &&
    d.streams.all (fun e => !e.2.inFlight k.hot k.cool) &&
    d.lnk.outstanding.all (fun o => o.tile ≠ some k.hot && o.tile ≠ some k.cool)

/-- The name of a tile after two have changed places. -/
def swapTile (k : Castle) (t : Nat) : Nat := if t = k.hot then k.cool else if t = k.cool then k.hot else t

/-- A stream after two tiles have changed places. -/
def Stream.swap (k : Castle) (st : Stream) : Stream :=
  let f := swapTile k
  let g : Nat → Nat := if st.sampler.isSome then id else f
  let pair : ((Nat × Nat) × Nat) → ((Nat × Nat) × Nat) := fun e => ((f e.1.1, g e.1.2), e.2)
  { st with
    prods := st.prods.map f, conss := st.conss.map g, credits := st.credits.map pair, returning := st.returning.map pair,
    flight := st.flight.map (fun m => { m with prod := f m.prod, cons := g m.cons }) }

/-- Two registers change places in the bits of a mask. -/
def Dev.swapRegs (d : Dev) (a b : Nat) (mask : Word) : Dev :=
  let x := d.reg a
  let y := d.reg b
  (d.setBits a mask y).setBits b mask x

/-- Two tiles change places: what they hold, their routes, groups and waits, TIL_STATE and the array's mode (R103, R394). What is
moved passes the check code, so that no stored error moves with it. -/
def Dev.castleSwap (d : Dev) (k : Castle) : Dev :=
  let f := swapTile k
  let hot := { d.tile k.hot with sramErr := [], ceTimes := (d.tile k.cool).ceTimes }
  let cool := { d.tile k.cool with sramErr := [], ceTimes := (d.tile k.hot).ceTimes }
  let who : Waiter → Waiter := fun w => match w with
    | .tile t => .tile (f t)
    | w => w
  let d := { d with
    tiles := put k.cool hot (put k.hot cool d.tiles)
    streams := d.streams.map (fun (e : Nat × Stream) => (e.1, e.2.swap k))
    pipes := d.pipes.map (fun (e : Nat × Pipe) => (e.1, { e.2 with stages := e.2.stages.map (fun (g : Stage) => { g with tiles := g.tiles.map f }) }))
    waits := d.waits.map (fun (w : SyncWait) => { w with who := who w.who })
    noc := { d.noc with groups := d.noc.groups.map (fun (e : Nat × List Nat) => (e.1, e.2.map f)) } }
  let d := d.swapRegs (R.TIL_STATE k.hot) (R.TIL_STATE k.cool) 0xFFFFFFFFFFFFFFFF
  d.swapRegs (R.TIL_ARRAY_STAT k.hot) (R.TIL_ARRAY_STAT k.cool) 0x1E0

/-- Tiles that waited to send go on where they can. -/
def Dev.resumeSends (d : Dev) : Dev :=
  (d.tiles.map (·.1)).foldl (fun d t =>
    let x := d.tile t
    match x.seq with
    | .waitStream port _ =>
      match (x.portStream port true).bind (fun sid => look sid d.streams) with
      | some st => if d.canSend st t x.index (lineCount x.slotBytes) then d.updTile t (fun x => { x with seq := .run }) else d
      | none => d
    | _ => d) d

/-- CASTLED: the state has been moved: the two stages have changed places, both tiles resume, EVT 0x0E40 (R394). -/
def execCastled (s : State) : Out :=
  onDev s (fun d =>
    match d.thm.castle with
    | none => d
    | some k =>
      if d.castleStill k = false then d
      else
        let d := d.castleSwap k
        let d := { d with thm := { d.thm with
          castle := none, castledAt := put k.hot d.now (put k.cool d.now d.thm.castledAt)
          hotSince := d.thm.hotSince.filter (fun (e : (Nat × Nat) × Nat) => e.1.1 ≠ k.hot && e.1.1 ≠ k.cool && e.1.2 ≠ k.hot && e.1.2 ≠ k.cool) } }
        let d := (d.wrapFld R.THM_CASTLE F.THM_CASTLE_COUNT 1).setFld R.THM_CASTLE F.THM_CASTLE_LAST_HOT k.hot
        let d := (d.setFld R.THM_CASTLE F.THM_CASTLE_LAST_COOL k.cool).raise { code := 0x0E40, unit := k.hot, args := [0, k.hot, k.cool] }
        d.resumeSends)

/-- CASTLE_ABANDONED: operations or messages remain 4,000 ns after the start: both tiles resume, EVT 0x0E41 (R394). -/
def execCastleAbandoned (s : State) : Out :=
  onDev s (fun d =>
    match d.thm.castle with
    | none => d
    | some k => if decide (k.start + 4000 ≤ d.now) && !d.castleStill k then d.castleAbandon.resumeSends else d)

end Sys2Proof.Machine
end

