-- ==== Sys2Proof/Machine/Power.lean ====
section
/-! DEFINITION. Power (chapter 15): converter and cluster regulator phases (R350, R354), ageing (R352), droop (R356), the slope token
(R357), the input meter and the cap (R358 to R366), energy accounting (R370 to R372) and the power messages (R368, R369, R336). -/

namespace Sys2Proof.Machine

/-! ### Phases (R350, R354) -/

/-- The converter ceiling of n working phases: 3,000 W × n × 155 A/1,700 A, down to a multiple of 100 W (R350). -/
def convCeiling (n : Nat) : Nat := 3000 * n * 155 / 1700 / 100 * 100

/-- CONV_PHASE_FAILED: a working converter phase fails and is disabled until reset (R350). The ceiling enters the effective cap from
the next 10 µs window. -/
def execConvPhaseFailed (i : Nat) (s : State) : Out :=
  onUnit "converter phase" 12 i s (fun d =>
    let good := d.fld R.PWR_CONV F.PWR_CONV_GOOD
    if good.testBit i = false then d
    else
      let n := d.fld R.PWR_CONV F.PWR_CONV_COUNT - 1
      let d := (d.setFld R.PWR_CONV F.PWR_CONV_GOOD (good - 2 ^ i)).setFld R.PWR_CONV F.PWR_CONV_COUNT n
      let d := d.addDefect 12 0 i 1
      if n < 7 then (d.raisePwr 0x0D15 i [n]).stopBegin 7 6 i 0 false
      else if n ≤ 10 then
        let d := (d.raisePwr 0x0D13 i [n]).raisePwr 0x0D14 i [n]
        { d with pwr := { d.pwr with convCeil := some (convCeiling n) } }
      else d.raisePwr 0x0D13 i [n])

/-- The tier of a count of failed phases: 0 FULL, 1 LIMITED, 2 FENCED (R354). -/
def ivrTier (failed : Nat) : Nat := if failed ≤ 4 then 0 else if failed ≤ 8 then 1 else 2

/-- IVR_PHASE_FAILED: a working regulator phase of a cluster fails; the cluster enters the tier its count gives (R354, R355). -/
def execIvrPhaseFailed (c i : Nat) (s : State) : Out :=
  onUnits [("cluster", 16, c), ("regulator phase", 32, i)] s (fun d =>
    let off := R.CLU_IVR c
    let failed := d.fld off F.CLU_IVR_FAILED
    if failed.testBit i then d
    else
      let n := d.fld off F.CLU_IVR_NFAILED + 1
      let was := d.fld off F.CLU_IVR_TIER
      let tier := ivrTier n
      let d := (d.setFld off F.CLU_IVR_FAILED (failed + 2 ^ i)).setFld off F.CLU_IVR_NFAILED n
      let d := (d.setFld off F.CLU_IVR_TIER tier).addDefect 11 c i 1
      let d := d.raisePwr 0x0D10 c [i, n]
      if tier = 2 then (if was = 2 then d else (d.raisePwr 0x0D12 c [i, n]).fence c)
      else if tier = 1 then (if was = 1 then d else d.raisePwr 0x0D11 c [i, n]).clampPoint c
      else d)

/-- AGE_STEP: a second has passed without a frequency change; the firmware applies a margin that has risen (R352). -/
def execAgeStep (c : Nat) (s : State) : Out :=
  onUnit "cluster" 16 c s (fun d =>
    let d := d.stressAccount c
    let off := R.CLU_PWR_CFG c
    let age := if d.pwr.stressRestored then ageMargin (d.fld (R.CLU_STRESS c) F.CLU_STRESS_EFF_HOURS) else 25
    let old := d.fld off F.CLU_PWR_CFG_AGE_MV
    if d.fwRuns && decide (old < age) then
      let d := d.setFld off F.CLU_PWR_CFG_AGE_MV age
      let d := if d.powered c then d.setFld off F.CLU_PWR_CFG_VOLT_MV (d.fld off F.CLU_PWR_CFG_VOLT_MV + (age - old)) else d
      d.raisePwr 0x0D31 c [age]
    else d)

/-! ### Droop (R356) -/

/-- DROOP_BOOST: the rail of an ungated cluster is 25 mV or more below target; the boost is counted and changes no result (R356). -/
def execDroopBoost (c : Nat) (s : State) : Out :=
  onUnit "cluster" 16 c s (fun d => if d.powered c then d.satFld (R.CLU_DROOP c) F.CLU_DROOP_BOOSTS 1 else d)

/-- CLOCK_STRETCH: 50 mV or more below target; the thousandth stretch in a window of 1 ms raises EVT 0x0D20 (R356). -/
def execClockStretch (c : Nat) (s : State) : Out :=
  onUnit "cluster" 16 c s (fun d =>
    if d.powered c = false then d
    else
      let x := d.clu c
      let w := d.now / 1000000
      let n := if x.stretchWindow = w then x.stretchCount + 1 else 1
      let d := (d.updClu c (fun x => { x with stretchWindow := w, stretchCount := n })).satFld (R.CLU_DROOP c) F.CLU_DROOP_STRETCHES 1
      if n = 1000 then d.raisePwr 0x0D20 c [n, w] else d)

/-- SHUNT_CLAMP: 25 mV or more above target (R356). -/
def execShuntClamp (c : Nat) (s : State) : Out :=
  onUnit "cluster" 16 c s (fun d => if d.powered c then d.satFld (R.CLU_DROOP c) F.CLU_DROOP_CLAMPS 1 else d)

/-- SLOPE_TOKEN_RETURN: a quadrant's token is back, 12 µs after it was spent; the first waiting cluster takes it (R357). -/
def execSlopeTokenReturn (quad : Nat) (s : State) : Out := onUnit "quadrant" 4 quad s (fun d => d.takeToken quad)

/-! ### The capping fraction (R359 to R362) -/

/-- F takes a value, in force in every ungated cluster; leaving 0 and returning to 0 raise events that name the window; while it is not
0 keep-warm is suspended (R360, R375, R392). -/
def Dev.setF (d : Dev) (f : Nat) : Dev :=
  let old := d.fCap
  let d := d.setFld R.PWR_CAP F.PWR_CAP_F f
  let w := d.now / 10000
  let d := if old = 0 && f ≠ 0 then d.raisePwr 0x0D02 0xFFFF [w] else if old ≠ 0 && f = 0 then d.raisePwr 0x0D03 0xFFFF [w] else d
  (if f = 0 then d else allClusters.foldl Dev.warmPause d).applyAllF

/-- POWER_SAMPLE: input voltage in 10 mV and current in 10 mA over 1 µs, so that their product is in units of 0.1 nJ (R359). Above
3,600 W F goes to its top at once and stays there until the window ends (R362). -/
def execPowerSample (vin10mV current10mA : Nat) (s : State) : Out :=
  onDev s (fun d =>
    let nj := vin10mV * current10mA / 10
    let p := d.pwr
    let d := { d with pwr := { p with
      windowNj := if d.windowOver 0 0 then p.windowNj else p.windowNj + nj
      laterNj := if d.windowOver 0 0 then p.laterNj + nj else p.laterNj
      inputNj := p.inputNj + nj
      msNj := if d.windowOver 1 0 then p.msNj else p.msNj + nj
      laterMsNj := if d.windowOver 1 0 then p.laterMsNj + nj else p.laterMsNj } }
    let d := d.setReg R.PWR_E_INPUT (BitVec.ofNat 64 (d.pwr.inputNj / 1000))
    let d := d.setFld R.PWR_CONV F.PWR_CONV_VIN (min vin10mV 0xFFFF)
    if decide (36000000 < vin10mV * current10mA) && !d.pwr.guard then
      let d := d.satFld R.PWR_STAT F.PWR_STAT_PEAK_GUARDS 1
      ({ d with pwr := { d.pwr with guard := true, fMaxAll := d.pwr.fMaxAll && d.fCap = 921 } } : Dev).setF 921
    else d)

/-- The capping law: F + (GAIN/256) (P − CAP)/CAP to the nearest multiple of 1/1,024, ties up, kept between 0 and 921 (R360). The
energy is that of a window of 10 µs in nJ, so that P = energy/10,000 W. A cap of 0 W gives no quotient: a free value (DESIGN
CHOICE, log entry 94). -/
def cappingLaw (f gain energy cap draw : Nat) : Nat :=
  if cap = 0 then min 921 (Config.capAtZero draw).toNat
  else
    let den : Int := 10000 * cap
    let num : Int := f * den + 4 * gain * ((energy : Int) - den)
    min 921 (Int.toNat ((2 * num + den).fdiv (2 * den)))

/-! ### The setting at a window boundary (R63, R358, R366) -/

/-- The effective cap and what sets it: 0 the driver, 1 the converter, 2 the coolant; ties to the lower number (R358). -/
def effectiveCap (cap : Nat) (conv cool : Option Nat) : Nat × Nat :=
  let a : Nat × Nat := match conv with
    | some w => if w < cap then (w, 1) else (cap, 0)
    | none => (cap, 0)
  match cool with
  | some w => if w < a.1 then (w, 2) else a
  | none => a

/-- The limits that stand form the effective cap. -/
def Dev.showCap (d : Dev) : Dev :=
  let e := effectiveCap (d.fld R.PWR_CFG F.PWR_CFG_CAP_W) d.pwr.convCeil d.pwr.coolLimit
  (d.setFld R.PWR_CAP F.PWR_CAP_EFF_W e.1).setFld R.PWR_CAP F.PWR_CAP_LIMIT e.2

/-- All tiles take the short or the long ramp, with its event; arrays at rest at once, the others at their next step boundary
(R63) (DESIGN CHOICE, log entry 101). -/
def Dev.setRamp (d : Dev) (short : Bool) : Dev :=
  if d.pwr.shortRamp = short then d
  else
    let d := { d with pwr := { d.pwr with shortRamp := short } }
    allTiles.foldl (fun d t => if d.fld (R.TIL_ARRAY_STAT t) F.TIL_ARRAY_STAT_LEVEL = 0 then d.rampPeriod t else d) d

/-- Whether a setting has the short ramp: repeatable mode at a cap of 2.4 kW or lower (R63). -/
def PowerSetting.short (p : PowerSetting) : Bool := p.mode = 1 && decide (p.cap ≤ 2400)

/-- Every ungated cluster runs at a frequency, or at its ceiling if that is lower. -/
def Dev.setFreqs (d : Dev) (mhz : Nat) : Dev :=
  allClusters.foldl (fun d c =>
    if d.powered c && d.fld (R.CLU_PWR_CFG c) F.CLU_PWR_CFG_FREQ_MHZ ≠ mhz then
      d.setPoint c (highestPoint (fun i => decide (Config.vfFreq i ≤ min mhz (d.ceilMhz c)))) else d) d

/-- An accepted setting takes effect: the long ramp first if it must come back, then frequencies, then mode, cap and gain, then the
short ramp (R63, R366). -/
def Dev.applySetting (d : Dev) (p : PowerSetting) : Dev :=
  let entered := p.mode = 1 && !d.repeatable
  let d := { d with pwr := { d.pwr with pendingSet := none, bubbled := d.pwr.bubbled && !entered } }
  let d := if p.short then d else d.setRamp false
  let d := if p.mode = 1 then d.setFreqs p.freq else d
  let d := (d.setFld R.PWR_CFG F.PWR_CFG_MODE p.mode).setFld R.PWR_CFG F.PWR_CFG_FREQ_MHZ p.freq
  let d := (d.setFld R.PWR_CFG F.PWR_CFG_GAIN p.gain).setFld R.PWR_CFG F.PWR_CFG_CAP_W p.cap
  let d := if p.short then d.setRamp true else d
  d.repeatJudge

/-! ### Energy (R370 to R372) -/

/-- Energy in nJ goes to a context. -/
def Dev.chargeCtx (d : Dev) (c nj : Nat) : Dev := d.updCtx c (fun x => { x with energy := x.energy + nj })

/-- Energy in nJ goes to a descriptor, unless it has completed, to its queue and to its context (R371, R372). -/
def Dev.chargeDesc (d : Dev) (q n c nj : Nat) : Dev :=
  let total := (look q d.pwr.queueNj).getD 0 + nj
  let d := if (d.queue q).isSome && !isAdmin q then
      ({ d with pwr := { d.pwr with queueNj := put q total d.pwr.queueNj } } : Dev).setReg (R.PWR_Q_ENERGY q) (BitVec.ofNat 64 (total / 1000))
    else d
  (d.updDesc q n (fun x => { x with energy := x.energy + nj })).chargeCtx c nj

/-- The descriptor of the stage that a tile is bound to, or was bound to in this window, with its context. -/
def Dev.tileWork (d : Dev) (t : Nat) : Option (Nat × Nat × Nat) :=
  match (d.tile t).pipe.bind (fun i => look i d.pipes) with
  | some p => some (p.q, p.n, p.ctx)
  | none => look t d.pwr.lastWork

/-- A share of an amount of energy in proportion to a count: rounded down. -/
def shareOf (nj count total : Nat) : Nat := if total = 0 then 0 else nj * count / total

/-- A cluster's energy is divided among its tiles by their slots; what no tile takes is idle energy (R371). -/
def Dev.chargeCluster (d : Dev) (slots : List (Nat × Nat)) (c nj : Nat) : Dev :=
  let mine := slots.filter (fun e => e.1 / 16 = c)
  let total := mine.foldl (fun n e => n + e.2) 0
  let (d, given) := mine.foldl (fun (a : Dev × Nat) e =>
    match a.1.tileWork e.1 with
    | some (q, n, x) => (a.1.chargeDesc q n x (shareOf nj e.2 total), a.2 + shareOf nj e.2 total)
    | none => a) (d, 0)
  let d := d.updClu c (fun x => { x with energyNj := x.energyNj + nj, idleNj := x.idleNj + (nj - given) })
  let d := d.setReg (R.CLU_ENERGY c) (BitVec.ofNat 64 ((d.clu c).energyNj / 1000))
  d.setReg (R.CLU_IDLE_ENERGY c) (BitVec.ofNat 64 ((d.clu c).idleNj / 1000))

/-- Energy goes to the consumer of granules; the flag says whether someone took it (R371). -/
def Dev.chargeConsumer (d : Dev) (w : Consumer) (nj : Nat) : Dev × Bool :=
  match w with
  | .tile t =>
    match d.tileWork t with
    | some (q, n, c) => (d.chargeDesc q n c nj, true)
    | none => (d, false)
  | .engine q n => if (d.queue q).isSome then (d.chargeDesc q n (d.queueCtx q) nj, true) else (d, false)
  | .remote _ c => if (look c d.ctxs).isSome then (d.chargeCtx c nj, true) else (d, false)
  | .scrubber => (d, false)

/-- A memory domain's energy is divided by the granules moved at the controllers it feeds; what was charged is counted. -/
def Dev.chargeMem (d : Dev) (granules : List (Nat × Consumer × Nat)) (feeds : Nat → Bool) (nj : Nat) : Dev × Nat :=
  let mine := granules.filter (fun e => feeds e.1)
  let total := mine.foldl (fun n e => n + e.2.2) 0
  mine.foldl (fun (a : Dev × Nat) e =>
    let share := shareOf nj e.2.2 total
    match a.1.chargeConsumer e.2.1 share with
    | (d, true) => (d, a.2 + share)
    | (d, false) => (d, a.2)) (d, 0)

/-- The controllers that memory domain j feeds: 0 MC all, 1 NMEM the near channels, 2 + n FARn stack n (R349). -/
def domainFeeds (j k : Nat) : Bool := j = 0 || (j = 1 && decide (k < 256)) || (decide (2 ≤ j) && k = 256 + (j - 2))

/-- The attribution of a window's energy (R371): cluster domains, memory domains, the rest to overhead (DESIGN CHOICE, log
entry 97). -/
def Dev.attribute (d : Dev) (clusterNj : List Nat) (slots : List (Nat × Nat)) (granules : List (Nat × Consumer × Nat))
    (memNj : List Nat) : Dev :=
  let d := allClusters.foldl (fun d c => d.chargeCluster slots c (clusterNj.getD c 0)) d
  let (d, mem) := (List.range 18).foldl (fun (a : Dev × Nat) j =>
    let (d, n) := a.1.chargeMem granules (domainFeeds j) (memNj.getD j 0)
    (d, a.2 + n)) (d, 0)
  let clusters := allClusters.foldl (fun n c => n + clusterNj.getD c 0) 0
  let rest := d.pwr.overheadNj + (d.pwr.windowNj - clusters - mem)
  let d := { d with pwr := { d.pwr with overheadNj := rest, lastWork := [] } }
  d.setReg R.PWR_E_OVERHEAD (BitVec.ofNat 64 (rest / 1000))

/-- CURRENT and POWER_W of the clusters: a window of 10 µs, so that W = nJ/10,000 (R374). -/
def Dev.showClusters (d : Dev) (clusterNj currents : List Nat) : Dev :=
  allClusters.foldl (fun d c =>
    let off := R.CLU_PWR_STAT c
    if d.powered c then
      (d.setFld off F.CLU_PWR_STAT_CURRENT (min (currents.getD c 0) 0xFFF)).setFld off F.CLU_PWR_STAT_POWER_W
        (min (clusterNj.getD c 0 / 10000) 0xFFFF)
    else d) d

/-- CAPPING_WINDOW: a window of 10 µs ends: the capping law with the cap in force in it, the energy attributed, then the settings and
limits that wait take effect (R358, R360, R366, R371). Operands: by cluster, energy in nJ and current in 0.1 A; slots by tile; granules
by controller and consumer; energy of MC, NMEM and FAR0 to FAR15 in nJ (DESIGN CHOICE, log entry 93) (DESIGN CHOICE, log
entry 95). -/
def execCappingWindow (clusterNj currents : List Nat) (slots : List (Nat × Nat)) (granules : List (Nat × Consumer × Nat))
    (memNj : List Nat) (s : State) : Out :=
  onDev s (fun d => d.atWindow 0 0 (fun d =>
    let f := d.fCap
    let p := d.pwr
    let cap := d.fld R.PWR_CAP F.PWR_CAP_EFF_W
    let new := cappingLaw f (d.fld R.PWR_CFG F.PWR_CFG_GAIN) p.windowNj cap d.fresh
    let d := if cap = 0 then d.drew else d
    let d := d.setFld R.PWR_CAP F.PWR_CAP_P_LAST_W (min (p.windowNj / 10000) 0xFFFF)
    let d := if f = 0 then d else d.satFld R.PWR_STAT F.PWR_STAT_THROTTLED 1
    let d := (d.attribute clusterNj slots granules memNj).showClusters clusterNj currents
    let d := { d with pwr := { d.pwr with
      windowNj := p.laterNj, laterNj := 0, guard := false, fSum := p.fSum + f, fCount := p.fCount + 1, fMaxAll := p.fMaxAll && f = 921 } }
    let d := match p.pendingSet with
      | some x => d.applySetting x
      | none => d
    (d.showCap).setF new))

/-! ### The firmware's window of 1 ms (R363 to R365) -/

/-- One cluster's frequency moves by a point: down, or up below its ceiling (R363). -/
def Dev.movePoint (d : Dev) (up : Bool) (c : Nat) : Dev :=
  let i := d.fld (R.CLU_PWR_CFG c) F.CLU_PWR_CFG_POINT
  if d.powered c = false then d
  else if up then (if decide (Config.vfFreq i < d.ceilMhz c) && decide (i < 15) then d.setPoint c (i + 1) else d)
  else if 0 < i then d.setPoint c (i - 1) else d

/-- PIM_STK_BUDGET.BUDGET_UJ: max(10, round(100 × (1 − F̄))) with F̄ = sum/(1,024 n) (R364). -/
def budgetUj (sum n : Nat) : Nat := max 10 ((200 * (1024 * n - sum) + 1024 * n) / (2048 * n))

/-- The firmware's part of a window of 1 ms in capped mode: F̄ = sum/(1,024 n), the input energy in nJ (R363, R364). -/
def Dev.freqMoves (d : Dev) (sum n nj : Nat) : Dev :=
  let cap := d.fld R.PWR_CAP F.PWR_CAP_EFF_W
  let d := (List.range 16).foldl (fun d k => d.setFld (R.PIM_STK_BUDGET k) F.PIM_STK_BUDGET_BUDGET_UJ (budgetUj sum n)) d
  if 154 * n ≤ sum then allClusters.foldl (fun d c => d.movePoint false c) d
  else if sum = 0 && decide (nj * 100 < 95 * cap * 1000000) then allClusters.foldl (fun d c => d.movePoint true c) d
  else d

/-- FREQ_WINDOW: a window of 1 ms ends. The firmware moves frequencies and in-stack budgets in capped mode; a window wholly at the
top of F whose mean input power exceeds the effective cap is counted, with EVT 0x0D04 (R363, R364, R365). -/
def execFreqWindow (s : State) : Out :=
  onDev s (fun d => d.atWindow 1 0 (fun d =>
    let p := d.pwr
    let (sum, n) := if p.fCount = 0 then (d.fCap, 1) else (p.fSum, p.fCount)
    let d := if d.fwRuns && !d.repeatable then d.freqMoves sum n p.msNj else d
    let cap := d.fld R.PWR_CAP F.PWR_CAP_EFF_W
    let d := if decide (0 < p.fCount) && p.fMaxAll && decide (cap * 1000000 < p.msNj) then
        (d.satFld R.PWR_STAT F.PWR_STAT_UNMET 1).raise { code := 0x0D04, args := [cap, p.msNj / 1000000, d.now / 1000000 - 1] }
      else d
    { d with pwr := { d.pwr with fSum := 0, fCount := 0, fMaxAll := true, lastMsNj := p.msNj, msNj := p.laterMsNj, laterMsNj := 0 } }))

/-! ### Bubbles (R62, R361, R366) -/

/-- A bubble reaches a tile: it makes no issue and holds L, and a running array's credits still accumulate up to 15 (R62). -/
def Dev.bubbleTile (d : Dev) (t : Nat) : Dev :=
  if d.fld (R.TIL_WIDTH t) F.TIL_WIDTH_RETIRED = 1 then d
  else
    let d := d.wrapFld (R.TIL_BUBBLE_CNT t) F.TIL_BUBBLE_CNT_COUNT 1
    let level := d.fld (R.TIL_ARRAY_STAT t) F.TIL_ARRAY_STAT_LEVEL
    if level = 0 then d else d.updTile t (fun x => { x with credits := min 15 (x.credits + level) })

/-- THROTTLE_BUBBLE: the accumulator of a cluster that applies a fraction reaches 1,024 and is reduced by it: the cycle is a bubble in
every tile of the cluster (R361); in repeatable mode REPEATABLE_OK falls (R366). -/
def execThrottleBubble (c : Nat) (s : State) : Out :=
  onUnit "cluster" 16 c s (fun d =>
    let f := d.fld (R.CLU_PWR_STAT c) F.CLU_PWR_STAT_F_APPLIED
    if f = 0 || d.powered c = false then d
    else
      let a := (d.clu c).bubbleAcc
      let cycles := (1024 - a + f - 1) / f
      let d := d.updClu c (fun x => { x with bubbleAcc := a + cycles * f - 1024 })
      let d := (clusterTiles c).foldl Dev.bubbleTile d
      ({ d with pwr := { d.pwr with bubbled := d.repeatable } } : Dev).repeatJudge)

/-! ### Power messages (R353, R368, R369, R336) -/

/-- The setting last accepted: the one that waits, or the one in force (DESIGN CHOICE, log entry 96). -/
def Dev.accepted (d : Dev) : PowerSetting :=
  d.pwr.pendingSet.getD
    { mode := d.fld R.PWR_CFG F.PWR_CFG_MODE, freq := d.fld R.PWR_CFG F.PWR_CFG_FREQ_MHZ,
      gain := d.fld R.PWR_CFG F.PWR_CFG_GAIN, cap := d.fld R.PWR_CFG F.PWR_CFG_CAP_W }

/-- A setting is accepted and waits for the next window boundary; EVT 0x0D01 when the mode or the cap changes (R366, R368). -/
def Dev.acceptSetting (d : Dev) (p : PowerSetting) : Dev :=
  let old := d.accepted
  let d := { d with pwr := { d.pwr with pendingSet := some p } }
  if p.mode ≠ old.mode || p.cap ≠ old.cap then
    d.raise { code := 0x0D01, args := [p.cap, d.fld R.PWR_CAP F.PWR_CAP_P_LAST_W, p.mode] } else d

/-- The driver restores the stress hours: restored plus counted; margins follow (R352, R353). -/
def Dev.restoreStress (d : Dev) (hours : List Nat) : Dev :=
  let d := { d with pwr := { d.pwr with stressRestored := true } }
  let d := allClusters.foldl (fun d c =>
    let d := (d.updClu c (fun x => { x with stressBase := hours.getD c 0 })).stressAccount c
    let d := d.setFld (R.CLU_STRESS c) F.CLU_STRESS_RESTORED 1
    let off := R.CLU_PWR_CFG c
    let old := d.fld off F.CLU_PWR_CFG_AGE_MV
    let age := ageMargin (d.fld (R.CLU_STRESS c) F.CLU_STRESS_EFF_HOURS)
    let d := d.setFld off F.CLU_PWR_CFG_AGE_MV age
    if d.powered c then d.setFld off F.CLU_PWR_CFG_VOLT_MV (d.fld off F.CLU_PWR_CFG_VOLT_MV + age - old) else d) d
  d.setFld R.PWR_STAT F.PWR_STAT_STRESS_OK 1

/-- Whether a frequency lies above the ceiling of an ungated cluster. -/
def Dev.aboveCeiling (d : Dev) (mhz : Nat) : Bool := allClusters.any (fun c => d.powered c && decide (d.ceilMhz c < mhz))

/-- POWER_SET (R368): 80 bytes; a field out of range applies none of it. -/
def execPowerSet (mb : Nat) (s : State) : Out :=
  mbRow mb (isOp 0x60) s (fun d r =>
    let mode := r.fld 0 1
    let gainSet := (r.fld 1 1).testBit 0
    let freq := r.fld 4 2
    d.bodyRow mb r 80
      [(0, decide (2 ≤ mode)), (1, decide (4 ≤ r.fld 1 1)), (2, decide (r.fld 2 2 < 1200) || decide (3000 < r.fld 2 2)),
        (4, mode = 1 && ((pointOf freq).isNone || d.aboveCeiling freq)),
        (6, gainSet && (decide (r.fld 6 2 < 64) || decide (384 < r.fld 6 2))), (8, r.fld 8 8 ≠ 0)] (fun d =>
      let old := d.accepted
      let d := if (r.fld 1 1).testBit 1 && !d.pwr.stressRestored then
          d.restoreStress ((List.range 16).map (fun c => r.fld (0x10 + 4 * c) 4)) else d
      let d := d.acceptSetting
        { mode := mode, freq := if mode = 1 then freq else old.freq, gain := if gainSet then r.fld 6 2 else old.gain, cap := r.fld 2 2 }
      d.mbAnswer mb r stOk []))

/-- Set the CLUSTER_FREQ_MAX of a cluster, or of all with 0xFF; a fenced cluster by its number is BUSY (R369). -/
def Dev.freqMaxSet (d : Dev) (mb : Nat) (r : MbReq) (cluster mhz : Nat) : Dev :=
  if cluster ≠ 0xFF && d.cluWake cluster = 4 then d.mbAnswer mb r stBusy []
  else
    let d := allClusters.foldl (fun d c =>
      if (cluster = 0xFF || cluster = c) && d.cluWake c ≠ 4 then (d.updClu c (fun x => { x with freqMax := mhz })).clampPoint c else d) d
    d.mbAnswer mb r stOk []

/-- The checks of a CLUSTER_FREQ_MAX body (R369). -/
def Dev.freqMaxChecks (d : Dev) (r : MbReq) : List (Nat × Bool) :=
  [(0, decide (16 ≤ r.fld 0 1) && r.fld 0 1 ≠ 0xFF), (1, r.fld 1 1 ≠ 0),
    (2, (pointOf (r.fld 2 2)).isNone || (d.accepted.mode = 1 && decide (r.fld 2 2 < d.accepted.freq)))]

/-- CLUSTER_FREQ_MAX (R369). -/
def execClusterFreqMax (mb : Nat) (s : State) : Out :=
  mbRow mb (isOp 0x61) s (fun d r => d.bodyRow mb r 4 (d.freqMaxChecks r) (fun d => d.freqMaxSet mb r (r.fld 0 1) (r.fld 2 2)))

/-- Z8_CAP_SET: POWER_SET in capped mode at the same cap in W (R336). -/
def execZ8CapSet (mb : Nat) (s : State) : Out :=
  mbRow mb (isOp 0x0201) s (fun d r =>
    d.bodyRow mb r 2 [(0, decide (r.fld 0 2 < 1200) || decide (3000 < r.fld 0 2))] (fun d =>
      (d.acceptSetting { d.accepted with mode := 0, cap := r.fld 0 2 }).mbAnswer mb r stOk []))

/-- Z8_POWER_GET: the input energy of the last 1 ms divided by 1 ms, in W (R336, R372) (DEDUCED, log entry 148). -/
def execZ8PowerGet (mb : Nat) (s : State) : Out :=
  mbRow mb (isOp 0x0202) s (fun d r =>
    d.bodyRow mb r 0 [] (fun d => d.mbAnswer mb r stOk (leBytes 2 (min (d.pwr.lastMsNj / 1000000) 0xFFFF))))

/-- Z8_CLK_SET: CLUSTER_FREQ_MAX for the named cluster (R336). -/
def execZ8ClkSet (mb : Nat) (s : State) : Out :=
  mbRow mb (isOp 0x0401) s (fun d r => d.bodyRow mb r 4 (d.freqMaxChecks r) (fun d => d.freqMaxSet mb r (r.fld 0 1) (r.fld 2 2)))

/-- Z8_CLU_STATUS: a cluster's frequency in MHz, hottest tile in 1/16 °C and power in W (R336). -/
def execZ8CluStatus (mb : Nat) (s : State) : Out :=
  mbRow mb (isOp 0x0403) s (fun d r =>
    let c := r.fld 0 1
    d.bodyRow mb r 1 [(0, decide (16 ≤ c))] (fun d =>
      d.mbAnswer mb r stOk (leBytes 2 (d.fld (R.CLU_PWR_CFG c) F.CLU_PWR_CFG_FREQ_MHZ) ++ leBytes 2 (d.hottestTile c) ++
        leBytes 2 (d.fld (R.CLU_PWR_STAT c) F.CLU_PWR_STAT_POWER_W))))

end Sys2Proof.Machine
end

