-- ==== Sys2Proof/Machine/Merge.lean ====
section
/-! DEFINITION. Defect lists and the merge at start (R401 to R407): entries as bytes, the provisional merge of the start-up test, the
host's list, spares, outcomes, and the floor plan that the final merge leaves. -/

namespace Sys2Proof.Machine

/-! ### Entries (R402) -/

/-- The 16 bytes of an entry. -/
def entryBytes (x : Defect) : List Byte :=
  leBytes 1 x.kind ++ leBytes 1 x.source ++ leBytes 2 x.unit ++ leBytes 4 x.index ++ leBytes 4 0 ++ leBytes 1 x.state ++ leBytes 3 0

/-- The regulator phases of a domain: 32 of a cluster, then NIO, MC, NMEM, MGT, AON (R349). -/
def phasesOf (unit : Nat) : Nat :=
  match unit with
  | 16 => 48
  | 17 => 40
  | 18 => 32
  | 19 => 4
  | 20 => 4
  | u => if u < 16 then 32 else 0

/-- The sensors of a kind of spot; coolant is kind 4. -/
def sensorsOf (kind : Nat) : Nat :=
  match kind with
  | 0 => 512
  | 1 => 1024
  | 2 => 192
  | 3 => 64
  | 4 => 3
  | _ => 0

/-- Whether a KIND is defined and UNIT and INDEX lie in its range (R402). A mesh wire is named by a router port: four of a tile
router, port 4 of an edge router. -/
def defectValid (kind unit index : Nat) : Bool :=
  match kind with
  | 1 => decide (unit < 256) && decide (index < 128)
  | 2 => decide (unit < 256) && index = 0
  | 3 => decide (unit < 256) && decide (index < 65536)
  | 4 => decide (unit < 256) && decide (index / 2 < 1184)
  | 5 => decide (unit < 256) && decide (index < 2 ^ 18)
  | 6 => decide (unit < 256) && decide (index < 256)
  | 7 => decide (unit < 16) && decide (index % 16 < 12) && decide (index < 2 ^ 26)
  | 8 => decide (unit < 16) && decide (index / 32 < 72)
  | 9 => unit = 0 && decide (index < 2 ^ 28)
  | 10 => decide (unit < 320) && decide (index < 2 ^ 14) && (if unit < 256 then decide (index % 8 < 4) else decide (index % 8 < 5))
  | 11 => decide (index < phasesOf unit)
  | 12 => unit = 0 && decide (index < 12)
  | 13 => decide (index < sensorsOf unit)
  | _ => false

/-- Add an entry to a sorted list, or its sources to the entry of the same unit (DESIGN CHOICE, log entry 106). -/
def mergeEntry (l : List Defect) (x : Defect) : List Defect :=
  if l.any (fun y => y.kind = x.kind && y.unit = x.unit && y.index = x.index) then
    l.map (fun (y : Defect) => if y.kind = x.kind && y.unit = x.unit && y.index = x.index then { y with source := y.source ||| x.source } else y)
  else insertBy defectBefore x l

/-! ### Outcomes (R150, R404) -/

/-- The entries of a kind and unit. -/
def entriesOf (l : List Defect) (kind unit : Nat) : List Defect := l.filter (fun y => y.kind = kind && y.unit = unit)

/-- How many entries of a group come before an index. -/
def beforeIn (g : List Defect) (index : Nat) : Nat := (g.filter (fun y => decide (y.index < index))).length

/-- The spare TSVs left in a half before data and check TSVs take them: 32 less the bad spares (R150, R151). -/
def tsvSpares (g : List Defect) (half : Nat) : Nat := 32 - (g.filter (fun y => y.index % 2 = half && decide (1152 ≤ y.index / 2))).length

/-- The bad data and check TSVs of a half. -/
def tsvBad (g : List Defect) (half : Nat) : List Defect := g.filter (fun y => y.index % 2 = half && decide (y.index / 2 < 1152))

/-- Failures that a shared regulator bank tolerates (R404). -/
def bankTolerance (unit : Nat) : Nat :=
  match unit with
  | 16 => 6
  | 17 => 5
  | 18 => 4
  | _ => 0

/-- The STATE that the merge gives an entry, with the whole list (R402, R404, R405) (DESIGN CHOICE, log entry 108). -/
def outcome (l : List Defect) (x : Defect) : Nat :=
  let g := entriesOf l x.kind x.unit
  match x.kind with
  | 1 => if 16 < g.length then 2 else 1
  | 2 => 2
  | 3 => if beforeIn (g.filter (fun y => y.index % 32 = x.index % 32)) x.index < 8 then 0 else 2
  | 4 =>
    if 1152 ≤ x.index / 2 then 0
    else if beforeIn (tsvBad g (x.index % 2)) x.index < tsvSpares g (x.index % 2) then 0 else 3
  | 5 => if beforeIn (g.filter (fun y => y.index % 64 = x.index % 64)) x.index < 16 then 0 else 3
  | 6 => if beforeIn (g.filter (fun y => y.index % 64 = x.index % 64)) x.index < 4 then 0 else 3
  | 7 => if beforeIn (g.filter (fun y => y.index % 8192 = x.index % 8192)) x.index < 8 then 0 else 3
  | 8 =>
    let pc := g.filter (fun y => y.index % 32 = x.index % 32)
    if beforeIn pc x.index < 2 then 0 else if 4 ≤ pc.length then 2 else 3
  | 9 => 1
  | 10 => if 4 < (g.filter (fun y => y.index % 8 = x.index % 8)).length then 5 else 0
  | 11 => if x.unit < 16 then 1 else if bankTolerance x.unit < g.length then 5 else 1
  | 12 => if 5 < g.length then 5 else 1
  | _ =>
    match x.unit with
    | 0 => if (g.filter (fun y => y.index / 2 = x.index / 2)).length = 2 then 2 else 4
    | 2 => if (g.filter (fun y => y.index / 12 = x.index / 12)).length = 12 then 2 else 4
    | 4 => 5
    | _ => 4

/-- A list with its outcomes. -/
def withOutcomes (l : List Defect) : List Defect := l.map (fun (x : Defect) => { x with state := outcome l x })

/-- The entries for which no spare was left (R404: each raises EVT 0x0F08). -/
def spareless (l : List Defect) : List Defect := l.filter (fun x => decide (3 ≤ x.kind) && decide (x.kind ≤ 8) && x.state ≠ 0)

/-! ### The provisional merge (R400, R401) -/

/-- Entries with TEST set that no other source holds (R407). -/
def newTests (l : List Defect) : List Defect := l.filter (fun x => x.source = 2)

/-- BIST_DONE: the start-up test ends: fuses (source bit 0) and test (bit 1) are merged, a unit good in the fuses that failed raises
EVT 0x0F01, STAGE becomes WAIT_FW, and a FW_LOAD that was held is taken (R400, R404). `untested` counts units not tested. -/
def execBistDone (found : List Defect) (untested : Nat) (s : State) : Out :=
  onDev s (fun d =>
    if 3 ≤ d.boot.stage then d
    else
      let ok := found.filter (fun x => defectValid x.kind x.unit x.index && x.source % 4 ≠ 0)
      let l := (ok.map (fun (x : Defect) => { x with source := x.source % 4 })).foldl mergeEntry []
      let l := withOutcomes (l.take 131072)
      let new := newTests l
      let d := { d with boot := { d.boot with
        stage := 3, defects := l, newTest := new.length, untested := min untested 0xFFFF, tBist := d.now } }
      let d := new.foldl (fun d x => d.raise { code := 0x0F01, unit := x.unit, args := [x.kind, x.index] }) d
      d.takeRequests)

/-! ### The host's list (R403) -/

/-- What became of the host's list. -/
inductive HostList where
  | none
  | failed
  | rejected
  | taken (entries : List Defect) (ignored : Nat)
  deriving DecidableEq, Repr

/-- An entry as the host handed it over: taken as HOST, or none when it is to be ignored. -/
def hostEntry (b : List Byte) : Option Defect :=
  let kind := natAt b 0 1
  let unit := natAt b 2 2
  let index := natAt b 4 4
  if defectValid kind unit index && decide (natAt b 1 1 < 16) && zeroAt b 8 4 && zeroAt b 13 3 then
    some { kind := kind, source := 4, unit := unit, index := index, state := 0 }
  else none

/-- The entries of a list of bytes. -/
def splitEntries : (fuel : Nat) → List Byte → List (List Byte)
  | 0, _ => []
  | k + 1, b => b.take 16 :: splitEntries k (b.drop 16)

/-- Read and check the host's list at an IOVA: `dlen` entries at most (R403). -/
def Dev.readHostList (d : Dev) (iova dlen : Nat) : HostList :=
  match d.hostRead 0 iova 256 with
  | none => .failed
  | some h =>
    let count := natAt h 0x10 4
    if natAt h 0 4 ≠ 0x4C46445A || natAt h 4 2 ≠ 1 || natAt h 8 8 ≠ Config.serial.toNat || decide (131072 < count) || decide (dlen < count) then
      .rejected
    else
      match d.hostRead 0 (iova + 256) (16 * count) with
      | none => .failed
      | some b =>
        if sm3 b ≠ bytesAt h 0x20 32 then .rejected
        else
          let es := (splitEntries count b).map hostEntry
          .taken (es.filterMap id) (es.filter (·.isNone)).length

/-! ### The final merge: what the list makes of the device (R65, R150, R404, R405) -/

/-- Good columns of a tile. -/
def goodColumns (l : List Defect) (t : Nat) : Nat := 128 - (entriesOf l 1 t).length

/-- Whether the merge retires a tile: under 112 columns, its logic, SRAM lines beyond the spares, both of its sensors. -/
def tileRetires (l : List Defect) (t : Nat) : Bool :=
  decide (goodColumns l t < 112) || !(entriesOf l 2 t).isEmpty || (entriesOf l 3 t).any (fun x => x.state = 2) ||
    (entriesOf l 13 0).any (fun x => x.index / 2 = t && x.state = 2)

/-- Widths and retired tiles (R65). -/
def Dev.mergeTile (d : Dev) (l : List Defect) (t : Nat) : Dev :=
  let w := goodColumns l t
  let off := R.TIL_WIDTH t
  let d := d.setFld off F.TIL_WIDTH_GOOD w
  if tileRetires l t then
    (((d.setFld off F.TIL_WIDTH_WIDTH 0).setFld off F.TIL_WIDTH_RETIRED 1).setFld (R.TIL_STATE t) F.TIL_STATE_STATE 4).raise
      { code := 0x0101, unit := t, args := [w] }
  else
    let d := d.setFld off F.TIL_WIDTH_WIDTH w
    if w < 128 then d.raise { code := 0x0102, unit := t, args := [w] } else d

/-- The half-channels of a slice (R150, R404). -/
def Dev.mergeTsv (d : Dev) (l : List Defect) (t : Nat) : Dev :=
  let g := entriesOf l 4 t
  if g.isEmpty then d
  else
    let off := R.MEM_NCH_STAT t
    let d := { d with mem := { d.mem with tsvDead := g.map (fun (x : Defect) => (t, x.index)) ++ d.mem.tsvDead } }
    let d := (tsvBad g 0 ++ tsvBad g 1).foldl (fun (d : Dev) (x : Defect) =>
      match d.freeSpare t (x.index % 2) with
      | some s => { d with mem := { d.mem with tsvSpare := put (t, x.index) s d.mem.tsvSpare } }
      | none => d) d
    let left : Nat → Nat := fun h => tsvSpares g h - (tsvBad g h).length
    let down : Nat → Bool := fun h => decide (tsvSpares g h < (tsvBad g h).length)
    let d := (d.setFld off (spareField 0) (left 0)).setFld off (spareField 1) (left 1)
    if down 0 && down 1 then (d.setSlice t 4).setFld off F.MEM_NCH_STAT_DOWN_HALF 1
    else if down 0 then (d.setSlice t 1).setFld off F.MEM_NCH_STAT_DOWN_HALF 0
    else if down 1 then (d.setSlice t 1).setFld off F.MEM_NCH_STAT_DOWN_HALF 1 else d

/-- The 16 pages that hold a near row: INDEX [1:0] layer, [5:2] bank, [17:6] row; a page is offset bits [29:12] (R129, R402). -/
def nearRowPages (t index : Nat) : List Nat :=
  (List.range 16).map (fun c => t * 2 ^ 18 + bits index 17 6 * 64 + c * 4 + bits index 5 4)

/-- Pages that hold a near column group: INDEX [1:0] layer, [5:2] bank, [7:6] offset bits [17:16] (R129, R402). It spans four pages of each
row, more than its slice can retire: the first 68 of them, in ascending order. -/
def nearColPages (t index : Nat) : List Nat :=
  (List.range 17).flatMap (fun r => (List.range 4).map (fun c => t * 2 ^ 18 + r * 64 + bits index 7 6 * 16 + c * 4 + bits index 5 4))

/-- The 16 pages that hold a far row (R129, R402). -/
def farRowPages (n index : Nat) : List Nat :=
  (List.range 16).map (fun c =>
    stackBase n / 4096 + bits index 3 0 * 2 ^ 20 + bits index 25 13 * 128 + c * 8 + bits index 12 11 * 2 + bits index 10 10)

/-- A page is retired at start (R145, R404): no context is named. A near slice beyond 64 pages starts in LOST; a stack retires no
more than 4,096. -/
def Dev.retireAtStart (d : Dev) (page : Nat) : Dev :=
  let a := page * 4096
  if d.mem.retired.contains page then d
  else
    let mark : Dev → Dev := fun d =>
      ({ d with mem := { d.mem with retired := page :: d.mem.retired } } : Dev).raise { code := 0x0405, unit := memUnit a, args := [a] }
    if isNear a then
      let off := R.MEM_NCH_STAT (tileOf a)
      let n := d.fld off F.MEM_NCH_STAT_RETIRED_PAGES
      if 64 ≤ n then d.setSlice (tileOf a) 4 else mark (d.setFld off F.MEM_NCH_STAT_RETIRED_PAGES (n + 1))
    else
      let off := R.MEM_FMC_STAT (stackOf a)
      let n := d.fld off F.MEM_FMC_STAT_RETIRED_PAGES + 1
      if d.fld off F.MEM_FMC_STAT_RETIRE_FULL = 1 then d
      else
        let d := mark (d.setFld off F.MEM_FMC_STAT_RETIRED_PAGES n)
        if n = 4096 then (d.setFld off F.MEM_FMC_STAT_RETIRE_FULL 1).raise { code := 0x0406, unit := stackOf a } else d

/-- What an entry of memory makes of pages, slices and pins (R150). -/
def Dev.mergeMemory (d : Dev) (x : Defect) : Dev :=
  match x.kind with
  | 5 => if x.state = 0 then d else (nearRowPages x.unit x.index).foldl Dev.retireAtStart d
  | 6 => if x.state = 0 then d else (nearColPages x.unit x.index).foldl Dev.retireAtStart d
  | 7 => if x.state = 0 then d else (farRowPages x.unit x.index).foldl Dev.retireAtStart d
  | 8 => if x.state = 0 then d else { d with mem := { d.mem with pinsFailed := (x.unit, x.index) :: d.mem.pinsFailed } }
  | 9 => d.retireAtStart x.index
  | _ => d

/-- Stacks that the merge retires: two unrepaired pins in a pseudo-channel, or no working sensor (R404, R405). -/
def stackRetires (l : List Defect) (n : Nat) : Bool :=
  (entriesOf l 8 n).any (fun x => x.state = 2) || (entriesOf l 13 2).any (fun x => x.index / 12 = n && x.state = 2)

/-- A cluster's phases: its tier from the start; a fenced cluster is never woken (R404). -/
def Dev.mergeCluster (d : Dev) (l : List Defect) (c : Nat) : Dev :=
  let g := entriesOf l 11 c
  if g.isEmpty then d
  else
    let off := R.CLU_IVR c
    let d := d.setFld off F.CLU_IVR_FAILED (g.foldl (fun m x => m ||| 2 ^ x.index) 0)
    let d := (d.setFld off F.CLU_IVR_NFAILED g.length).setFld off F.CLU_IVR_TIER (ivrTier g.length)
    let d := d.showCeil c
    if ivrTier g.length = 2 then
      (clusterTiles c).foldl (fun d t =>
        if d.fld (R.TIL_STATE t) F.TIL_STATE_STATE = 4 then d else d.setFld (R.TIL_STATE t) F.TIL_STATE_STATE 5)
        (d.setFld (R.CLU_PWR_STAT c) F.CLU_PWR_STAT_WAKE 4)
    else d

/-- The converter's phases: the ceiling from the start (R350, R404). -/
def Dev.mergeConverter (d : Dev) (l : List Defect) : Dev :=
  let g := entriesOf l 12 0
  let n := 12 - g.length
  let d := d.setFld R.PWR_CONV F.PWR_CONV_GOOD (g.foldl (fun m x => m - 2 ^ x.index) 0xFFF)
  let d := d.setFld R.PWR_CONV F.PWR_CONV_COUNT n
  if decide (7 ≤ n) && decide (n ≤ 10) then ({ d with pwr := { d.pwr with convCeil := some (convCeiling n) } } : Dev).showCap else d

/-- Whether a tile is usable: neither retired nor fenced. -/
def Dev.tileUsable (d : Dev) (t : Nat) : Bool :=
  decide (d.fld (R.TIL_STATE t) F.TIL_STATE_STATE < 4) && d.fld (R.TIL_WIDTH t) F.TIL_WIDTH_RETIRED = 0 && d.cluWake (t / 16) ≠ 4

/-- Whether a defect blocks READY: an entry in BLOCKING, or no usable tile (R404). -/
def Dev.blocking (d : Dev) : Bool := d.boot.defects.any (fun x => x.state = 5) || !allTiles.any d.tileUsable

/-- EVT 0x0F07: its record names the first blocking entry, if one blocks (R404, R414). -/
def Dev.blockedEvent (d : Dev) : Dev :=
  match d.boot.defects.find? (fun x => x.state = 5) with
  | some x => d.raise { code := 0x0F07, unit := x.unit, args := [x.kind, x.index] }
  | none => d.raise { code := 0x0F07 }

/-- The final merge (R404): the host's entries join, outcomes are decided, the floor plan is fixed; EVT 0x0F02. -/
def Dev.finalMerge (d : Dev) (host : List Defect) : Dev :=
  let l := withOutcomes ((host.foldl mergeEntry d.boot.defects).take 131072)
  let d := { d with boot := { d.boot with defects := l, merged := true, newTest := (newTests l).length } }
  let d := allTiles.foldl (fun d t => d.mergeTile l t) d
  let d := allTiles.foldl (fun d t => d.mergeTsv l t) d
  let d := l.foldl Dev.mergeMemory d
  let d := { d with mem := { d.mem with stacksRetired := (List.range 16).filter (stackRetires l) } }
  let d := allClusters.foldl (fun d c => d.mergeCluster l c) d
  let d := d.mergeConverter l
  let d := (spareless l).foldl (fun d x => d.raise { code := 0x0F08, unit := x.unit, args := [x.kind, x.index] }) d
  d.raise { code := 0x0F02, args := [l.length, d.boot.newTest] }

/-! ### The boot record (R407) -/

/-- The number of slices in a state. -/
def Dev.slicesIn (d : Dev) (st : Nat) : Nat := (allTiles.filter (fun t => d.sliceState t = st)).length

/-- A bitmap of the numbers below n that a predicate holds for. -/
def bitmap (n : Nat) (p : Nat → Bool) : Nat := (List.range n).foldl (fun m i => if p i then m + 2 ^ i else m) 0

/-- STAGE as it reads: before WAIT_FW by the times of R400, ROM for 2 ms, TRAINING until 60 ms, then BIST (DESIGN CHOICE, log
entry 151). -/
def Dev.stageNow (d : Dev) : Nat :=
  if 3 ≤ d.boot.stage then d.boot.stage else if d.now < 2000000 then 0 else if d.now < 60000000 then 1 else 2

/-- The 256 bytes of the boot record. -/
def Dev.bootRecord (d : Dev) : List Byte :=
  let b := d.boot
  let flags := b2n d.ready + 2 * b2n b.hostAccepted + 4 * b2n b.hostRejected + 8 * b2n b.merged
  let usable := allTiles.filter d.tileUsable
  let columns := usable.foldl (fun n t => n + d.width t) 0
  leBytes 4 0x4C46445A ++ leBytes 2 1 ++ leBytes 1 d.stageNow ++ leBytes 1 flags ++ leBytes 8 Config.serial.toNat ++
    leBytes 4 b.defects.length ++ leBytes 4 b.newTest ++ leBytes 4 b.newRuntime ++ leBytes 2 b.hostIgnored ++ leBytes 2 b.untested ++
    sm3 (b.defects.flatMap entryBytes) ++ leBytes 8 b.tBist ++ leBytes 8 b.tLoad ++ leBytes 8 b.tReady ++
    leBytes 2 usable.length ++ leBytes 2 columns ++ leBytes 2 (bitmap 16 (fun c => d.cluWake c = 4)) ++
    leBytes 2 (bitmap 16 (fun c => d.fld (R.CLU_IVR c) F.CLU_IVR_TIER = 1)) ++
    leBytes 32 (bitmap 256 (fun t => d.fld (R.TIL_WIDTH t) F.TIL_WIDTH_RETIRED = 1)) ++
    leBytes 2 (d.slicesIn 1) ++ leBytes 2 (d.slicesIn 4) ++ leBytes 2 (bitmap 16 (fun n => d.mem.stacksRetired.contains n)) ++
    leBytes 1 (d.fld R.PWR_CONV F.PWR_CONV_COUNT) ++ leBytes 1 0 ++ leBytes 4 (bitmap 32 (fun k => d.portState k = 3)) ++
    leBytes 4 (bitmap 32 (fun k => d.portState k = 4 || d.portState k = 5)) ++ leBytes 112 0

end Sys2Proof.Machine
end

