-- ==== Sys2Proof/Machine/Boot.lean ====
section
/-! DEFINITION. Resets and what they leave (R294, R400, R417, R422), loading the firmware (R325, R326, R403, R404), lost clocks
(R398), attestation (R411), the debug unlock (R412, R413), and the firmware's watchdog and readback (R323, R324). -/

namespace Sys2Proof.Machine

/-! ### Supplies (R416, R417, R420) -/

/-- The 48 V input is outside 40 V to 60 V. -/
def vinOut (mV : Nat) : Bool := decide (mV < 40000) || decide (60000 < mV)

/-- The auxiliary supply is outside its limits. -/
def auxOut (mV : Nat) : Bool := decide (mV < 3135) || decide (3465 < mV)

/-- PWR_GOOD sinks, while both resets are high, when a supply has been out of range for 1 ms (R420). -/
def Pins.showPwrGood (p : Pins) : Pins :=
  { p with pwrGood := p.perst && p.modReset && (vinOut p.vin || auxOut p.aux) }

/-! ### Resets (R417, R420, R422) -/

/-- The device as a reset leaves it: everything anew but the auxiliary logic (THM_TRIP_REC, the straps, the I3C target, the supplies
as they are), the levels that others put on the GPIOs, host memory, and the count of free values (DESIGN CHOICE, log entries
6 and 92). -/
def Dev.resetBy (d : Dev) (pins : Pins) : Dev :=
  let host : HostSide := { HostSide.reset with mem := d.host.mem, bad := d.host.bad, data := d.host.data, msix := d.host.msix }
  let gpio := pins.gpio.map (fun (g : Gpio) => { Gpio.reset with level := g.level })
  let p : Pins := { pins with clkreq := false, thermtrip := false, dark := false, strapTold := false, gpio := gpio }
  let n : Dev := { Dev.reset with fresh := d.fresh, host := host, pins := p }
  n.setReg R.THM_TRIP_REC (d.reg R.THM_TRIP_REC)

/-- Debug is locked at every reset; the fused counter stays (R327, R412). -/
def Trust.relock (t : Trust) : Trust := { t with debug := 0, highest := 0, challenge := none, failures := 0 }

/-- Reset release, when both resets are high and the input is good: the strap is latched, CLKREQ_N sinks, tempo starts at 0, a trip
record is looked for (R400, R417, R420, R422). -/
def Dev.released (d : Dev) : Dev :=
  if d.pins.perst && d.pins.modReset && d.pins.inputGood then
    { d with
      now := 0
      pins := { d.pins with clkreq := true, slotId := d.pins.strap }
      thm := { d.thm with tripFound := d.fld R.THM_TRIP_REC F.THM_TRIP_REC_VALID = 1 } }
  else d

/-- Whether the device is held in reset. -/
def Dev.inReset (d : Dev) : Bool := !(d.pins.perst && d.pins.modReset && d.pins.inputGood)

/-- The pins that hold reset change: into reset from a released device, or towards release. -/
def resetPins (s : State) (p : Pins) : State :=
  let p := p.showPwrGood
  let n : Dev := { s.dev with pins := p }
  if n.inReset then { s with trust := s.trust.relock, dev := s.dev.resetBy p }
  else if s.dev.inReset then { s with dev := n.released }
  else { s with dev := n }

/-- PERST_N: an edge of the host's reset. A level that is already there is no edge. Without the auxiliary supply the input is
ignored (R294, R418). -/
def execPerstN (level : Bool) (s : State) : Out :=
  if s.dev.pins.perst = level || s.dev.pins.auxOn = false then .next s else .next (resetPins s { s.dev.pins with perst := level })

/-- MOD_RESET_N: an edge of board management's reset (R294, R418). -/
def execModResetN (level : Bool) (s : State) : Out :=
  if s.dev.pins.modReset = level || s.dev.pins.auxOn = false then .next s else .next (resetPins s { s.dev.pins with modReset := level })

/-- PLL_LOCK_LOSS: every derived clock stops, every other domain drops, the module stays dark until a reset; THERMTRIP_N is released
(R398, R420). -/
def execPllLockLoss (s : State) : Out :=
  onDev s (fun d => { d with pins := { d.pins with dark := true, thermtrip := false }, host := { d.host with linkUp := false } })

/-! ### Loading the firmware (R325, R326, R403) -/

/-- Whether the fields of an image header are in range (R325). -/
def imageHeaderOk (h : List Byte) : Bool :=
  natAt h 0 4 = 0x4E41494D && natAt h 4 2 = 1 && decide (natAt h 8 4 ≤ 64) && decide (4 ≤ natAt h 0xC 4) &&
    decide (natAt h 0xC 4 ≤ 1835008) && natAt h 0xC 4 % 4 = 0 && decide (natAt h 0x10 4 < natAt h 0xC 4) && zeroAt h 0x14 12 &&
    zeroAt h 0xC0 64

/-- Whether the boot ROM accepts an image of a length (R326). -/
def imageOk (len : Nat) (h code : List Byte) : Bool :=
  imageHeaderOk h && len = 256 + natAt h 0xC 4 && sm3 (bytesAt h 0x20 64) = leBytes 32 Config.rootFw.toNat &&
    bytesAt h 0x60 32 = sm3 code && Config.sm2Verify (bytesAt h 0x20 64) (bytesAt h 0 0x80) (bytesAt h 0x80 64)

/-- Whether the last request taken on a mailbox is a load that the boot ROM is serving. -/
def Dev.loading (d : Dev) (mb op : Nat) : Option MbReq :=
  if d.alive && d.boot.stage = 4 && d.fwState = 1 then (d.mbox mb).req.filter (isOp op) else none

/-- The boot ROM answers a load that does not start an image: the core stays without firmware, and the driver may load again. -/
def Dev.loadRefused (d : Dev) (mb : Nat) (r : MbReq) (status : Nat) (body : List Byte) : Dev :=
  let d := ({ d with boot := { d.boot with stage := 3 } } : Dev).setFld R.MGT_FW_STAT F.MGT_FW_STAT_STATE 0
  d.mbAnswer mb r status body

/-- The firmware starts: MGT_ID, EVT 0x0C01; a trip found at start and an I3C address assigned before are reported
(R326, R346, R391, R425). -/
def Dev.firmwareStarts (d : Dev) (h : List Byte) : Dev :=
  let release := natAt h 6 2
  let d := { d with fw := { d.fw with header := h, release := release, svn := natAt h 8 4 } }
  let off := R.MGT_ID
  let d := (d.setFld off F.MGT_ID_FW_MINOR release).setFld off F.MGT_ID_FW_MAJOR (release / 256)
  let d := ((d.setFld off F.MGT_ID_MB_MINOR 2).setFld off F.MGT_ID_MB_MAJOR 3).setFld off F.MGT_ID_MB_OLDEST 2
  let d := (d.setFld off F.MGT_ID_SVN (natAt h 8 4)).setFld R.MGT_FW_STAT F.MGT_FW_STAT_STATE 2
  let d := d.raise { code := 0x0C01, args := [release] }
  let rec_ := R.THM_TRIP_REC
  let d := if d.thm.tripFound then
      d.raise { code := 0x0E22, unit := d.fld rec_ F.THM_TRIP_REC_UNIT, args := [d.fld rec_ F.THM_TRIP_REC_KIND, d.fld rec_ F.THM_TRIP_REC_TEMP, d.fld rec_ F.THM_TRIP_REC_CAUSE] }
    else d
  if d.pins.i3cTold then d
  else ({ d with pins := { d.pins with i3cTold := true } } : Dev).raise { code := 0x1030, args := [d.pins.i3cAddr] }

/-- An accepted image with its host list: the final merge, the stage, the start, the response (R400, R403, R404). -/
def Dev.loadAccepted (d : Dev) (mb : Nat) (r : MbReq) (h : List Byte) (list : HostList) : Dev :=
  let (d, host) := match list with
    | .rejected => (({ d with boot := { d.boot with hostRejected := true } } : Dev).raise { code := 0x0F03, unit := mb }, [])
    | .taken es ignored =>
      let d := { d with boot := { d.boot with hostAccepted := true, hostIgnored := min ignored 0xFFFF } }
      (if ignored = 0 then d else d.raise { code := 0x0F04, unit := mb, args := [ignored] }, es)
    | _ => (d, [])
  let d := d.finalMerge host
  let blocked := d.blocking
  let d := if blocked then d.blockedEvent else d
  let d := { d with boot := { d.boot with stage := if blocked then 8 else 5 } }
  (d.firmwareStarts h).mbAnswer mb r stOk []

/-- FW_LOAD as the boot ROM serves it, with the fused counter: the body, the image, its SVN, the host's list (R326, R403)
(DESIGN CHOICE, log entry 109). -/
def Dev.fwLoad (d : Dev) (fused mb : Nat) (r : MbReq) : Dev :=
  let len := r.fld 8 4
  if r.body.length ≠ 12 && r.body.length ≠ 24 then d.loadRefused mb r stInvalid (leBytes 4 8)
  else if r.body.length = 24 && r.fld 0x10 8 % 64 ≠ 0 then d.loadRefused mb r stInvalid (leBytes 4 0x20)
  else
    let auth : Dev → Dev := fun d => (d.raise { code := 0x0F10, unit := mb }).loadRefused mb r mbAuth []
    if len < 256 || 256 + 1835008 < len then auth d
    else
      match d.hostRead 0 (r.fld 0 8) len with
      | none => d.accessFailed.loadRefused mb r stAccess []
      | some image =>
        let h := image.take 256
        if imageOk len h (image.drop 256) = false then auth d
        else if natAt h 8 4 < fused then (d.raise { code := 0x0F11, unit := mb, args := [natAt h 8 4, fused] }).loadRefused mb r mbRollback []
        else
          match (if r.body.length = 24 then d.readHostList (r.fld 0x10 8) (r.fld 0xC 4) else .none) with
          | .failed => d.accessFailed.loadRefused mb r stAccess []
          | list => d.loadAccepted mb r h list

/-- A load message: served by the boot ROM; once the firmware runs, BUSY (R328, R336). -/
def loadRow (mb op : Nat) (s : State) : Out :=
  onUnit "mailbox" 8 mb s (fun d =>
    match d.loading mb op, d.fwRequest mb (isOp op) with
    | some r, _ => d.fwLoad s.trust.svn mb r
    | none, some r => d.mbAnswer mb r stBusy []
    | none, none => d)

/-- FW_LOAD (R326, R328, R403). -/
def execFwLoad (mb : Nat) (s : State) : Out := loadRow mb 2 s

/-- Z8_FW_LOAD (R336). -/
def execZ8FwLoad (mb : Nat) (s : State) : Out := loadRow mb 0x0103 s

/-- READY_LATE: 4 s have passed since the FW_LOAD doorbell, the firmware has started and the device has not been READY: EVT 0x0F06,
once a boot (R409). -/
def execReadyLate (s : State) : Out :=
  onDev s (fun d => if d.boot.merged && d.boot.stage ≠ 7 then d.readyLate else d)

/-! ### Clearing memory (R29, step 3) -/

/-- Zero is written to all near and far memory, and the page directory is cleared. The log ring has no address in the memory map
and keeps its records (DEDUCED, log entry 29). -/
def Dev.clearMemory (d : Dev) : Dev :=
  let d := { d with mem := { d.mem with cells := [], err := [], wbPend := [] }, kvp := Kvp.reset }
  d.setReg R.KVP_STAT (regReset R.KVP_STAT)

/-! ### Attestation (R411) -/

/-- The report without its signature. -/
def Dev.report (d : Dev) (t : Trust) (nonce : List Byte) : List Byte :=
  leBytes 4 0x5441445A ++ leBytes 2 1 ++ leBytes 1 t.highest ++ leBytes 1 0x11 ++ leBytes 8 Config.serial.toNat ++ leBytes 8 d.now ++
    leBytes 2 d.fw.release ++ leBytes 1 d.fw.svn ++ leBytes 1 t.svn ++ leBytes 1 d.persona ++ leBytes 1 d.boot.stage ++ leBytes 2 0 ++
    nonce ++ leBytes 32 Config.romDigest.toNat ++ sm3 d.fw.header ++ (if d.fw.config.isEmpty then leBytes 32 0 else sm3 d.fw.config) ++
    sm3 (d.boot.defects.flatMap entryBytes) ++ leBytes 64 Config.devPub.toNat ++ leBytes 64 Config.endorse.toNat

/-- An attestation message: 32 bytes of nonce; the signed report; EVT 0x0F20. -/
def attestRow (mb op : Nat) (s : State) : Out :=
  mbRow mb (isOp op) s (fun d r =>
    d.bodyRow mb r 32 [] (fun d =>
      let body := d.report s.trust r.body
      let sig := leBytes 64 (Config.sm2Sign body d.fresh).toNat
      (d.drew.raise { code := 0x0F20, unit := mb }).mbAnswer mb r stOk (body ++ sig)))

/-- ATTEST (R411). -/
def execAttest (mb : Nat) (s : State) : Out := attestRow mb 4 s

/-- Z8_ATTEST (R336). -/
def execZ8Attest (mb : Nat) (s : State) : Out := attestRow mb 0x0102 s

/-! ### The debug unlock (R412, R413) -/

/-- A message row that also acts on the debug unlock. -/
def trustRow (mb : Nat) (pick : MbReq → Bool) (s : State) (f : Trust → Dev → MbReq → Trust × Dev) : Out :=
  if mb < 8 then
    match s.dev.fwRequest mb pick with
    | none => .next s
    | some r => .next { s with trust := (f s.trust s.dev r).1, dev := (f s.trust s.dev r).2 }
  else .fault (.noSuchUnit "mailbox" mb)

/-- CHALLENGE, and any DEBUG_UNLOCK whose SUB is none of the three (R412). After 3 AUTH failures BUSY and EVT 0x0F34 (R413). -/
def execChallenge (mb : Nat) (s : State) : Out :=
  trustRow mb (fun r => r.opcode = 5 && r.fld 0 1 ≠ 2 && r.fld 0 1 ≠ 3) s (fun t d r =>
    if r.body.length ≠ 8 then (t, d.answerLen mb r)
    else
      match firstBad [(0, r.fld 0 1 ≠ 1), (1, decide (r.fld 1 1 < 1) || decide (2 < r.fld 1 1)), (2, r.fld 2 6 ≠ 0)] with
      | some off => (t, d.answerBad mb r off)
      | none =>
        if 3 ≤ t.failures then (t, (d.raise { code := 0x0F34, unit := mb }).mbAnswer mb r stBusy [])
        else
          let c := leBytes 32 (Config.challenge d.fresh).toNat
          ({ t with challenge := some (c, d.now) }, d.drew.mbAnswer mb r stOk (c ++ leBytes 8 Config.serial.toNat)))

/-- Whether a RESPOND meets the conditions of R413 but the one on contexts. -/
def respondOk (t : Trust) (now : Nat) (r : MbReq) : Bool :=
  match t.challenge with
  | none => false
  | some (c, at_) =>
    let key := bytesAt r.body 8 64
    decide (now < at_ + 60000000000) && sm3 key = leBytes 32 Config.rootDbg.toNat &&
      Config.sm2Verify key (sm3 (c ++ leBytes 8 Config.serial.toNat ++ leBytes 1 (r.fld 1 1))) (bytesAt r.body 72 64)

/-- RESPOND (R413): AUTH consumes the challenge, BUSY leaves it; a FULL unlock clears memory first (DEDUCED, log entry 110). -/
def execRespond (mb : Nat) (s : State) : Out :=
  trustRow mb (fun r => r.opcode = 5 && r.fld 0 1 = 2) s (fun t d r =>
    let scope := r.fld 1 1
    if r.body.length ≠ 136 then (t, d.answerLen mb r)
    else
      match firstBad [(1, decide (scope < 1) || decide (2 < scope)), (2, r.fld 2 6 ≠ 0)] with
      | some off => (t, d.answerBad mb r off)
      | none =>
        if respondOk t d.now r = false then
          ({ t with challenge := none, failures := t.failures + 1 }, (d.raise { code := 0x0F31, unit := mb }).mbAnswer mb r mbAuth [])
        else if scope = 2 && !d.ctxs.isEmpty then (t, d.mbAnswer mb r stBusy [])
        else
          let state := max t.debug scope
          let d := if scope = 2 then d.clearMemory else d
          ({ t with challenge := none, debug := state, highest := max t.highest state },
            (d.raise { code := 0x0F32, unit := mb, args := [scope] }).mbAnswer mb r stOk []))

/-- LOCK: OBSERVE returns to LOCKED; FULL is left only by reset (R413). -/
def execLock (mb : Nat) (s : State) : Out :=
  trustRow mb (fun r => r.opcode = 5 && r.fld 0 1 = 3) s (fun t d r =>
    if r.body.length ≠ 8 then (t, d.answerLen mb r)
    else
      match firstBad [(1, r.fld 1 7 ≠ 0)] with
      | some off => (t, d.answerBad mb r off)
      | none =>
        if t.debug = 1 then ({ t with debug := 0 }, (d.raise { code := 0x0F33, unit := mb }).mbAnswer mb r stOk [])
        else (t, d.mbAnswer mb r stOk []))

end Sys2Proof.Machine
end

