-- ==== Sys2Proof/Machine/Configure.lean ====
section
/-! DEFINITION. The device configuration message (R333): its checks (R28, R281, R343, R389), the steps of a configuration (R29, R31,
R132, R153, R157, R185), the restart after a stop (R390); the watchdog restart (R323) and the readback (R324). -/

namespace Sys2Proof.Machine

/-! ### The body (R333) -/

/-- The body length of a format version. -/
def configLen (major minor : Nat) : Nat := if major = 2 then 32 else if minor = 2 then 624 else 608

/-- The FLAGS bits. -/
def cfgFlag (b : List Byte) (i : Nat) : Bool := (natAt b 2 1).testBit i

/-- The topology descriptor of a body. -/
def cfgTopo (b : List Byte) : List Byte := bytesAt b 0x20 576

/-- Whether an owner is allowed for a resource (R343). -/
def ownerAllowed (res owner : Nat) : Bool :=
  match owner with
  | 0 => true
  | 1 => decide (res < 8)
  | 2 => decide (res < 13)
  | 3 => res = 13
  | 4 => res = 13
  | 5 => res = 13
  | 6 => true
  | 7 => decide (res < 8)
  | _ => false

/-! ### The topology descriptor (R266, R275, R281) -/

/-- A coordinate lies within the size of its dimension. -/
def coordsOk (dims : List Byte) (x : Nat) : Bool :=
  decide (x < 0x8000) && (List.range 5).all (fun k => decide (coordOf x k < natAt dims k 1))

/-- The neighbour that a link set implies: plus or minus one along its dimension (R275). -/
def setNeighbour (dims : List Byte) (self set : Nat) : Nat :=
  let k := set / 2
  let c := coordOf self k
  let size := max 1 (natAt dims k 1)
  let n := if set % 2 = 0 then (c + 1) % size else (c + size - 1) % size
  self - c * 8 ^ k + n * 8 ^ k

/-- The first failing field of the header, as an offset. -/
def topoHeaderBad (t : List Byte) : Option Nat :=
  let dims := bytesAt t 4 5
  firstBad [(0, natAt t 0 2 ≠ 1), (2, !coordsOk dims (natAt t 2 2)),
    (4, (List.range 5).any (fun k => decide (natAt dims k 1 < 1) || decide (8 < natAt dims k 1))), (9, !zeroAt t 9 7), (0x18, !zeroAt t 0x18 40)]

/-- The first failing field of port entry k, as an offset: the ranges of every entry, whatever its mode, and PEER against the
neighbour that SET implies (R275, R281). -/
def topoEntryBad (t : List Byte) (k : Nat) : Option Nat :=
  let e := topoEntry t k
  let mode := teMode e
  let set := teSet e
  (firstBad [(0, decide (4 ≤ mode)), (1, decide (3 ≤ teNeed e) || (mode = 0 && teNeed e ≠ 0)),
    (2, (decide (11 ≤ set) && set ≠ 0xFF) || (mode = 1 && set = 10) || (decide (2 ≤ mode) && decide (set < 10))),
    (3, decide (teMinLanes e < 4) || decide (8 < teMinLanes e)),
    (4, (decide (0x8000 ≤ tePeer e) && tePeer e ≠ 0xFFFF) ||
      (decide (set < 10) && tePeer e ≠ setNeighbour (bytesAt t 4 5) (natAt t 2 2) set)),
    (6, decide (32 ≤ tePeerPort e)), (7, natAt e 7 1 ≠ 0), (8, decide (4096 ≤ teVlan e))]).map (fun o => 0x40 + 16 * k + o)

/-- The first failing field of a descriptor. -/
def topoBad (t : List Byte) : Option Nat := (topoHeaderBad t).orElse (fun _ => (List.range 32).findSome? (topoEntryBad t))

/-! ### The checks of R333 -/

/-- The first failing field of a body beside the topology: what a later configuration ignores is not checked. -/
def configFieldBad (b : List Byte) (major minor : Nat) (first : Bool) : Option Nat :=
  firstBad [(0, decide (natAt b 0 1 < 1) || decide (4 < natAt b 0 1)), (1, first && decide (2 ≤ natAt b 1 1)),
    (2, decide (32 ≤ natAt b 2 1) || (major = 2 && cfgFlag b 4)), (3, decide (48 < natAt b 3 1)),
    (6, decide (60000 < natAt b 6 2)), (8, decide (1000000 < natAt b 8 4)), (0xC, !zeroAt b 0xC 20),
    (0x260, major = 3 && minor = 2 && first && !(List.range 14).all (fun r => ownerAllowed r (natAt b (0x260 + r) 1))),
    (0x26E, major = 3 && minor = 2 && natAt b 0x26E 2 ≠ 0)]

/-- The conditions under which a configuration is accepted after a stop (R389). -/
def Dev.restartOk (d : Dev) : Bool :=
  let flow := d.fld R.THM_COOLANT F.THM_COOLANT_FLOW
  let inlet := d.fld R.THM_COOLANT F.THM_COOLANT_INLET
  d.stopState = 2 && d.thm.spots.all (fun e => decide (e.2.value < threshold (spotDram e.1) 1)) &&
    decide (1600 ≤ flow) && flow ≠ 0xFFF && decide (320 ≤ inlet) && decide (inlet ≤ 720) &&
    d.fld R.THM_COOLANT F.THM_COOLANT_LEAK = 0 && decide (7 ≤ d.fld R.PWR_CONV F.PWR_CONV_COUNT)

/-- Whether R28 refuses a configuration: a context, an open job, a change in progress. -/
def Dev.configBusy (d : Dev) : Bool := !d.ctxs.isEmpty || !d.jobs.isEmpty || d.cfgState = 1 || d.cfgState = 3

/-! ### The defaults (R24, R25) -/

/-- The COMPUTE region of a personality in GiB, unless overridden. -/
def computeGib (b : List Byte) : Nat :=
  if cfgFlag b 0 then natAt b 3 1
  else
    match natAt b 0 1 with
    | 1 => 4
    | 2 => 2
    | 3 => 8
    | _ => 16

/-- The clusters that a personality leaves ungated: all, under CACHE those of the mask. -/
def activeMask (b : List Byte) : Nat := if natAt b 0 1 = 3 then (if cfgFlag b 1 then natAt b 4 2 else 0x8001) else 0xFFFF

/-- The default of the dual-path check: on under TRAIN. -/
def checkDefault (b : List Byte) : Bool := if cfgFlag b 2 then cfgFlag b 3 else natAt b 0 1 = 4

/-! ### The steps of R29 -/

/-- Step 2: update engines, samplers and gambit stop; the sync objects read 0. -/
def Dev.stopEngines (d : Dev) : Dev :=
  { d with
    upd := Upd.reset
    smp := []
    waits := []
    regs := canonClear (R.SYN_OBJ 0) (R.SYN_OBJ 16384) d.regs }

/-- A slice that has lost its own storage gets the next free frame, or is LOST (R153). -/
def Dev.reframe (d : Dev) (t : Nat) : Dev :=
  match d.freeFrame with
  | some k =>
    let ending := d.sliceState t = 2
    let fr := d.frames.getD k 0
    let d := (({ d with mem := { d.mem with served := put t fr d.mem.served } } : Dev).takeFrame k t).setSlice t 3
    if ending then d.raise { code := 0x0413, unit := t, args := [fr] } else d
  | none => (d.setSlice t 4).raise { code := 0x0414, unit := t, args := d.sliceOwners t }

/-- The evacuation frames are chosen again (R153). -/
def Dev.newFrames (d : Dev) : Dev :=
  let d := { d with mem := { d.mem with frames := [], evac := [], served := [] } }
  let fs := d.chooseFrames
  let d := ({ d with mem := { d.mem with frames := fs } } : Dev).setReg R.MEM_EVAC
    (BitVec.ofNat 64 (d.fld R.MEM_EVAC F.MEM_EVAC_TILE))
  let d := d.setFld R.MEM_EVAC F.MEM_EVAC_FRAMES_LEFT fs.length
  (allTiles.filter (fun t => d.sliceState t = 2 || d.sliceState t = 3)).foldl Dev.reframe d

/-- The page-engine area: the upper 512 MiB of the highest qualifying GiB of the highest-numbered stack that has one (R185). -/
def Dev.placeArea (d : Dev) : Dev :=
  match (List.range 16).reverse.findSome? (d.frameInStack d.mem.frames) with
  | some base => (d.setFld R.KVP_CFG F.KVP_CFG_AREA (base + gib / 2)).setFld R.KVP_CFG F.KVP_CFG_AVAIL 1
  | none => (d.setFld R.KVP_CFG F.KVP_CFG_AREA 0).setFld R.KVP_CFG F.KVP_CFG_AVAIL 0

/-- A port takes its entry and retrains, or goes OFF (R266, R267, R281). -/
def Dev.portApply (d : Dev) (e : List Byte) (k : Nat) : Dev :=
  let d := d.portTo k (if teMode e = 0 then 0 else 1)
  let off := R.LNK_PORT_STAT k
  let d := (d.setFld off F.LNK_PORT_STAT_MODE (teMode e)).setFld off F.LNK_PORT_STAT_NEED (teNeed e)
  let d := d.setFld off F.LNK_PORT_STAT_SET (if teSet e = 0xFF then 15 else teSet e)
  let d := ((d.setFld off F.LNK_PORT_STAT_LANES 0).setFld off F.LNK_PORT_STAT_WIDTH 0).setFld off F.LNK_PORT_STAT_VER 0
  let d := d.setReg (R.LNK_PORT_PEER k) (regReset (R.LNK_PORT_PEER k))
  d.updPort k (fun _ => { PortSt.fresh with attemptAt := d.now })

/-- A descriptor takes force: SELF, DIMS, and the ports whose entries changed (R281). -/
def Dev.topoApply (d : Dev) (t : List Byte) : Dev :=
  let old := d.lnk.topo
  let ks := (List.range 32).filter (fun k => old.isEmpty || topoEntry old k ≠ topoEntry t k)
  let dims := (List.range 5).foldl (fun n k => n + natAt t (4 + k) 1 * 16 ^ k) 0
  let d := ks.foldl (fun d k => d.portApply (topoEntry t k) k) d
  let d := (d.setFld R.LNK_CFG F.LNK_CFG_SELF (natAt t 2 2)).setFld R.LNK_CFG F.LNK_CFG_DIMS dims
  let d := d.setFld R.LNK_CFG F.LNK_CFG_TOPO_LOADED 1
  { d with lnk := { d.lnk with topo := t } }

/-- What only the first configuration after reset sets: NM_CLOCK and the owners (R132, R343). -/
def Dev.firstApply (d : Dev) (b : List Byte) (minor32 : Bool) : Dev :=
  let d := if d.fld R.MEM_CFG F.MEM_CFG_CLK_FALLBACK = 1 then d else d.setFld R.MEM_CFG F.MEM_CFG_NM_CLOCK (natAt b 1 1)
  if minor32 then
    d.setReg R.MGT_OWNER (BitVec.ofNat 64 ((List.range 14).foldl (fun n r => n + natAt b (0x260 + r) 1 * 16 ^ r) 0))
  else d

/-- Step 4: the region split and the other defaults; the descriptor, if the body carries one. -/
def Dev.applyDefaults (d : Dev) (b : List Byte) : Dev :=
  let d := d.setFld R.PIM_CFG F.PIM_CFG_COMPUTE_GIB (computeGib b)
  let d := d.newFrames.placeArea
  let d := d.setFld R.COL_CFG F.COL_CFG_CHECK_DEF (b2n (checkDefault b))
  let d := d.setFld R.UPD_CFG F.UPD_CFG_AUDIT_TIMEOUT (if natAt b 6 2 = 0 then 100 else natAt b 6 2)
  let d := d.setFld R.UPD_CFG F.UPD_CFG_AUDIT_N (if natAt b 8 4 = 0 then 1000 else natAt b 8 4)
  if cfgFlag b 4 then d.topoApply (cfgTopo b) else d

/-- Step 5: clusters outside the mask gate, the others wake in ascending number (R357). -/
def Dev.applyClusters (d : Dev) (mask : Nat) : Dev :=
  let d := allClusters.foldl (fun d c => if mask.testBit c = false && d.cluWake c ≠ 4 then d.gate c 0 else d) d
  let d := d.setFld R.MGT_PERSONA F.MGT_PERSONA_ACTIVE_CLUSTERS (bitmap 16 (fun c => mask.testBit c && d.cluWake c ≠ 4))
  allClusters.foldl (fun d c => if mask.testBit c then d.wakeCluster c else d) d

/-- Steps 2 to 5. -/
def Dev.configSteps (d : Dev) (b : List Byte) (first minor32 : Bool) : Dev :=
  let d := d.stopEngines.clearMemory
  let d := if first then d.firstApply b minor32 else d
  ((d.applyDefaults b).applyClusters (activeMask b)).parentInit

/-- The R333 body in force: the accepted one, its absent parts as they stand: the descriptor and the owners in force (DESIGN
CHOICE, log entry 112). -/
def Dev.bodyInForce (d : Dev) (b : List Byte) : List Byte :=
  let loaded := !d.lnk.topo.isEmpty
  let flags := natAt b 2 1 % 16 + 16 * b2n loaded
  b.take 1 ++ leBytes 1 (d.fld R.MEM_CFG F.MEM_CFG_NM_CLOCK) ++ leBytes 1 flags ++ bytesAt b 3 29 ++
    (if loaded then d.lnk.topo else leBytes 576 0) ++ (List.range 14).map (fun r => BitVec.ofNat 8 (d.owner r)) ++ leBytes 2 0

/-- Step 6: PERSONA, ACTIVE, CHANGE_COUNT for a change, EVT 0x0C20; STAGE becomes TOPOLOGY and the check is taken afresh
(R29, R31, R408). -/
def Dev.configEnds (d : Dev) (b : List Byte) (change : Bool) : Dev :=
  let off := R.MGT_PERSONA
  let d := (d.setFld off F.MGT_PERSONA_PERSONA (natAt b 0 1)).setFld off F.MGT_PERSONA_CFG_STATE 2
  let d := if change then d.satFld off F.MGT_PERSONA_CHANGE_COUNT 1 else d
  let d := { d with
    fw := { d.fw with config := d.bodyInForce b, configNew := [], configured := true }
    boot := { d.boot with stage := 6 } }
  (d.raise { code := 0x0C20, args := [natAt b 0 1] }).topoAfresh

/-- The device is restored after a stop: its domains are powered, every port that is not OFF retrains (R390). -/
def Dev.stopRestored (d : Dev) : Dev :=
  let d := d.setFld R.THM_STAT F.THM_STAT_STOP 0
  (List.range 32).foldl (fun d k => if d.portMode k = 0 then d else d.portApply (d.portEntry k) k) d

/-- An accepted configuration, from step 1 to step 6 (R29, R31, R390). EVT 0x0D30 when the first personality is applied without
restored stress hours (R353). -/
def Dev.configure (d : Dev) (b : List Byte) (minor32 : Bool) : Dev :=
  let first := !d.fw.configured
  let stopped := d.stopState = 2
  let change := !first && !stopped && d.persona ≠ 0
  let d := d.setFld R.MGT_PERSONA F.MGT_PERSONA_CFG_STATE (if change then 3 else 1)
  let d := { d with
    fw := { d.fw with configNew := b }
    boot := { d.boot with stage := if stopped then d.boot.stage else 6 } }
  let d := d.topoAfresh
  let d := if stopped then d.stopRestored else d
  let d := d.configSteps b first minor32
  let d := if first && !d.pwr.stressRestored then d.raisePwr 0x0D30 0xFFFF [] else d
  d.configEnds b change

/-! ### The rows DEV_CONFIG and DEV_CONFIG_GET -/

/-- A configuration that fails check 1: INVALID, EVT 0x0C22. -/
def Dev.configInvalid (d : Dev) (mb : Nat) (r : MbReq) (off : Nat) : Dev :=
  (d.raise { code := 0x0C22, args := [off, mb, r.opcode] }).mbAnswer mb r stInvalid (leBytes 4 off)

/-- DEV_CONFIG: the checks in the order of R333; an accepted body is applied and answered after step 6 (DESIGN CHOICE, log
entry 146). -/
def Dev.devConfig (d : Dev) (mb : Nat) (r : MbReq) : Dev :=
  let b := r.body
  if b.length ≠ configLen r.major r.minor then d.configInvalid mb r 8
  else
    match configFieldBad b r.major r.minor (!d.fw.configured), (if cfgFlag b 4 then topoBad (cfgTopo b) else none) with
    | some off, _ => d.configInvalid mb r (16 + off)
    | none, some off => (d.raise { code := 0x0A14, args := [off] }).configInvalid mb r (16 + 0x20 + off)
    | none, none =>
      if d.boot.stage = 8 then (d.raise { code := 0x0C21, args := [1, mb, r.opcode] }).mbAnswer mb r stBusy []
      else if d.stopState ≠ 0 && d.restartOk = false then (d.raise { code := 0x0E23, unit := mb }).mbAnswer mb r stBusy []
      else if d.stopState = 2 && d.blocking then
        (({ d with boot := { d.boot with stage := 8 } } : Dev).blockedEvent).mbAnswer mb r stBusy []
      else if d.configBusy then (d.raise { code := 0x0C21, args := [2, mb, r.opcode] }).mbAnswer mb r stBusy []
      else ((d.configure b (r.major = 3 && r.minor = 2)).mbAnswer mb r stOk []).topoCheck

/-- DEV_CONFIG (R333). -/
def execDevConfig (mb : Nat) (s : State) : Out := mbRow mb (isOp 0x10) s (fun d r => d.devConfig mb r)

/-- DEV_CONFIG_GET: the body in force, in the layout of the request's version; zeros while none is (R332, R333). -/
def execDevConfigGet (mb : Nat) (s : State) : Out :=
  mbRow mb (isOp 0x11) s (fun d r =>
    d.bodyRow mb r 0 [] (fun d =>
      let n := configLen r.major r.minor
      d.mbAnswer mb r stOk (if d.fw.config.isEmpty then leBytes n 0 else d.fw.config.take n)))

/-! ### The watchdog (R323) -/

/-- The firmware enters FAILED: a device-wide resign, EVT 0x0C32 (R323). -/
def Dev.firmwareFails (d : Dev) : Dev :=
  (d.deviceResign.setFld R.MGT_FW_STAT F.MGT_FW_STAT_STATE 4).raise { code := 0x0C32 }

/-- A request in progress at a restart is answered RESTARTED. -/
def Dev.answerRestarted (d : Dev) : Dev :=
  d.mboxes.foldl (fun d e => match e.2.req with
    | some r => d.mbAnswer e.1 r mbRestarted []
    | none => d) d

/-- A configuration that the restart finds unfinished is run again from step 2; a kept body that fails its digest leaves memory
cleared and the device unconfigured (R323). -/
def Dev.configAgain (d : Dev) (cfgOk : Bool) : Dev :=
  let b := d.fw.configNew
  if d.cfgState ≠ 1 && d.cfgState ≠ 3 then d
  else if cfgOk && !b.isEmpty then
    let change := d.cfgState = 3
    ((d.configSteps b (!d.fw.configured) (b.length = 624)).configEnds b change).topoCheck
  else
    d.clearMemory.unconfigure

/-- WATCHDOG_RESTART: the core has been reset; `code` is the code region as it is found, `cfgOk` whether the kept configuration passes
its digest. A digest mismatch or a third restart within an hour is FAILED; else the firmware restarts, EVT 0x0C30 (R323). -/
def execWatchdogRestart (code : List Byte) (cfgOk : Bool) (s : State) : Out :=
  onDev s (fun d =>
    if d.fwRuns = false && d.fwState ≠ 3 then d
    else
      let recent := d.now :: d.fw.restarts.filter (fun t => decide (d.now < t + 3600000000000))
      let d := { d with fw := { d.fw with restarts := recent } }
      let d := d.satFld R.MGT_FW_STAT F.MGT_FW_STAT_RESTARTS 1
      if sm3 code ≠ bytesAt d.fw.header 0x60 32 || decide (3 ≤ recent.length) then d.firmwareFails
      else
        let d := (d.setFld R.MGT_FW_STAT F.MGT_FW_STAT_STATE 2).raise { code := 0x0C30, args := [recent.length] }
        ((d.configAgain cfgOk).answerRestarted).takeRequests)

/-! ### The readback (R324) -/

/-- The fields of a register that the firmware sets: those marked so, the personality defaults, the per-cluster settings. -/
def firmwareFields (off : Nat) : List Field :=
  if off = R.NOC_CFG then [F.NOC_CFG_EP_HOLD, F.NOC_CFG_EP_EN]
  else if off = R.NOC_VC_WEIGHT then (List.range 7).map (fun i => ⟨4 * i, 4⟩)
  else if decide (R.NOC_JOB_DET 0 ≤ off) && decide (off < R.NOC_JOB_DET 64) && off % 8 = 0 then [⟨0, 64⟩]
  else if decide (R.NOC_EDGE_CTL 0 ≤ off) && decide (off < R.NOC_EDGE_CTL 64) && off % 16 = 0 then
    [F.NOC_EDGE_CTL_FW_PCT, F.NOC_EDGE_CTL_CHECK_PCT]
  else if decide (R.PIM_STK_BUDGET 0 ≤ off) && decide (off < R.PIM_STK_BUDGET 16) && off % 32 = 0 then [F.PIM_STK_BUDGET_BUDGET_UJ]
  else if off = R.PIM_CFG then [F.PIM_CFG_COMPUTE_GIB]
  else if decide (R.NOC_MCAST 0 ≤ off) && decide (off ≤ R.NOC_MCAST 63) && off % 8 = 0 then [⟨0, 64⟩]
  else if off = R.MGT_TRACE then [F.MGT_TRACE_ENABLE, F.MGT_TRACE_MODE]
  else if decide (R.MGT_TRACE_MASK 0 ≤ off) && decide (off ≤ R.MGT_TRACE_MASK 3) && off % 8 = 0 then [⟨0, 64⟩]
  else if off = R.MEM_CFG then [F.MEM_CFG_NM_CLOCK]
  else if decide (R.THM_CLU 0 ≤ off) && decide (off ≤ R.THM_CLU 15) && (off - R.THM_CLU 0) % (R.THM_CLU 1 - R.THM_CLU 0) = 0 then
    [F.THM_CLU_KW_TARGET, F.THM_CLU_KW_DUTY]
  else if off = R.UPD_CFG then [F.UPD_CFG_AUDIT_N, F.UPD_CFG_AUDIT_TIMEOUT]
  else if off = R.COL_CFG then [F.COL_CFG_CHECK_DEF]
  else if off = R.KVP_CFG then [F.KVP_CFG_AREA, F.KVP_CFG_AVAIL]
  else if off = R.MGT_PERSONA then [F.MGT_PERSONA_PERSONA, F.MGT_PERSONA_CFG_STATE, F.MGT_PERSONA_ACTIVE_CLUSTERS]
  else if off = R.MGT_SCHED then [F.MGT_SCHED_AGING_MS]
  else if off = R.MGT_OWNER then [F.MGT_OWNER_OWNER]
  else if off = R.PWR_CFG then [F.PWR_CFG_MODE, F.PWR_CFG_FREQ_MHZ, F.PWR_CFG_GAIN, F.PWR_CFG_CAP_W]
  else if decide (R.CLU_PWR_CFG 0 ≤ off) && decide (off < R.CLU_PWR_CFG 16) && off % 0x100000 = 0 then
    [F.CLU_PWR_CFG_FREQ_MHZ, F.CLU_PWR_CFG_CEIL_MHZ, F.CLU_PWR_CFG_VOLT_MV, F.CLU_PWR_CFG_AGE_MV, F.CLU_PWR_CFG_POINT]
  else []

/-- READBACK: the firmware reads back the fields that it sets; `found` holds registers that have come to read something else. Each
differing field is rewritten to the table's value, which is the one the model holds, and counted; EVT 0x0C31 names the register
(R324) (DESIGN CHOICE, log entry 111). -/
def execReadback (found : List (Nat × Word)) (s : State) : Out :=
  onDev s (fun d =>
    if d.fwRuns = false then d
    else
      found.foldl (fun d e =>
        ((firmwareFields e.1).filter (fun f => fieldGet e.2 f ≠ d.fld e.1 f)).foldl (fun d f =>
          (d.satFld R.MGT_FW_STAT F.MGT_FW_STAT_READBACK 1).raise { code := 0x0C31, args := [e.1, f.lo] }) d) d)

end Sys2Proof.Machine
end

