-- ==== Sys2Proof/Machine/Sideband.lean ====
section
/-! DEFINITION. Supplies, straps, GPIOs, the I3C target and the test access port (R416 to R426, R343). Supplies are in mV. -/

namespace Sys2Proof.Machine

/-! ### Supplies (R417) -/

/-- INPUT_GOOD: the input has been above the rising threshold and the auxiliary supply above 3.135 V for 10 ms (R417). A reading
that cannot be so is replaced by the typical one (DESIGN CHOICE, log entry 113). -/
def execInputGood (s : State) : Out :=
  let p := s.dev.pins
  if p.inputGood || p.auxOn = false then .next s
  else
    let p := { p with
      inputGood := true
      vin := if p.vin ≤ 39000 || 62000 < p.vin then 48000 else p.vin
      aux := if p.aux ≤ 3135 then 3300 else p.aux }
    .next (resetPins s p)

/-- INPUT_LOCKOUT: the input is below the lockout threshold or above the overvoltage threshold: the converter stops, every domain
but the auxiliary logic drops, and the module is as if held in reset (R416, R417). -/
def execInputLockout (mV : Nat) (s : State) : Out :=
  if decide (mV < 37000) || decide (62000 < mV) then
    .next (resetPins s { s.dev.pins with inputGood := false, vin := mV })
  else .next s

/-- VIN_RANGE: the input has had a value for 1 ms; outside 40 V to 60 V a running module raises EVT 0x1001 and PWR_GOOD sinks. A value
within lets it go again (R417, R420). -/
def execVinRange (mV : Nat) (s : State) : Out :=
  if s.dev.pins.auxOn = false then .next s
  else
    let d := { s.dev with pins := ({ s.dev.pins with vin := mV } : Pins).showPwrGood }
    .next { s with dev := if d.alive && vinOut mV then d.raise { code := 0x1001, unit := 0, args := [mV] } else d }

/-- AUX_RANGE: the auxiliary supply has had a value for 1 ms; outside its limits EVT 0x1002 (R417, R420). -/
def execAuxRange (mV : Nat) (s : State) : Out :=
  if s.dev.pins.auxOn = false then .next s
  else
    let d := { s.dev with pins := ({ s.dev.pins with aux := mV } : Pins).showPwrGood }
    .next { s with dev := if d.alive && auxOut mV then d.raise { code := 0x1002, unit := 1, args := [mV] } else d }

/-- AUXILIARY_POWER_ON: the auxiliary supply is applied: THM_TRIP_REC takes its power-on values, the I3C target has no dynamic
address, the input is not yet good (R395, R417) (DESIGN CHOICE, log entry 114). -/
def execAuxiliaryPowerOn (s : State) : Out :=
  let p := ({ s.dev.pins with auxOn := true, aux := 3300, inputGood := false, i3cAddr := 0, i3cTold := true, i3cAnswer := [] } : Pins).showPwrGood
  .next { s with trust := s.trust.relock, dev := (s.dev.resetBy p).setReg R.THM_TRIP_REC (regReset R.THM_TRIP_REC) }

/-! ### Straps and GPIOs (R422, R423, R343) -/

/-- STRAP_CHANGED: SLOT_ID reads a new value; while the module runs it has no effect and raises EVT 0x1010 once (R422). -/
def execStrapChanged (slot : Nat) (s : State) : Out :=
  if 16 ≤ slot then .fault (.noSuchUnit "slot" slot)
  else if s.dev.pins.auxOn = false then .next s
  else
    let d := { s.dev with pins := { s.dev.pins with strap := slot } }
    if d.alive && slot ≠ d.pins.slotId && !d.pins.strapTold then
      .next { s with dev := ({ d with pins := { d.pins with strapTold := true } } : Dev).raise { code := 0x1010, args := [slot] } }
    else .next { s with dev := d }

/-- A GPIO. -/
def Dev.gpio (d : Dev) (g : Nat) : Gpio := d.pins.gpio.getD g Gpio.reset

/-- Change a GPIO. -/
def Dev.updGpio (d : Dev) (g : Nat) (f : Gpio → Gpio) : Dev :=
  { d with pins := { d.pins with gpio := setAt d.pins.gpio g (f (d.gpio g)) } }

/-- Whether the module sinks a GPIO: mode SINK, or a pulse of TEMPO_PPS. -/
def Dev.gpioSinks (d : Dev) (g : Nat) : Bool := (d.gpio g).mode = 1 || decide (d.now < (d.gpio g).sunkUntil)

/-- GPIO_EDGE: a GPIO's filtered level changes. On a HOST-owned input with the flag of that direction EVT 0x1020, at most 64 in a
window of 1 ms (R423). -/
def execGpioEdge (g : Nat) (level : Bool) (s : State) : Out :=
  if 8 ≤ g then .fault (.noSuchUnit "GPIO" g)
  else if s.dev.pins.auxOn = false || (s.dev.gpio g).level = level then .next s
  else
    let d := s.dev.updGpio g (fun x => { x with level := level })
    let x := d.gpio g
    let w := d.now / 1000000
    let n := if x.window = w then x.edges else 0
    if d.alive && d.owner g = 2 && x.mode = 0 && x.flags.testBit (if level then 0 else 1) && decide (n < 64) then
      .next { s with dev := (d.updGpio g (fun x => { x with window := w, edges := n + 1 })).raise { code := 0x1020, unit := g, args := [g, b2n level] } }
    else .next { s with dev := d }

/-- A GPIO set to an input, to sink or to release (R423); a HOST-owned one only (R344). -/
def execGpioSet (mb : Nat) (s : State) : Out :=
  mbRow mb (fun r => r.opcode = 0x70 && r.fld 0 1 ≠ 2) s (fun d r =>
    let g := r.fld 1 1
    d.bodyRow mb r 8
      [(0, r.fld 0 1 ≠ 1), (1, decide (8 ≤ g)), (2, decide (3 ≤ r.fld 2 1)), (3, decide (4 ≤ r.fld 3 1)), (4, decide (1000 < r.fld 4 2)),
        (6, r.fld 6 2 ≠ 0)] (fun d =>
      if d.owner g ≠ 2 then d.resourceBusy mb r g
      else
        let filter := r.fld 4 2
        let d := d.updGpio g (fun x => { x with
          mode := r.fld 2 1, flags := r.fld 3 1, filter := if filter = 0 then x.filter else filter })
        d.mbAnswer mb r stOk []))

/-- ALERT_N sinks while the condition of its owner holds: WATCH or above, capping, a FAULTED context (R343, R420). -/
def Dev.alertSinks (d : Dev) : Bool :=
  match d.owner 13 with
  | 3 => d.thm.spots.any (fun e => decide (1 ≤ e.2.level))
  | 4 => decide (0 < d.fCap)
  | 5 => d.ctxs.any (fun e => e.2.state = .faulted)
  | _ => false

/-- The body of a GPIO GET response (R423). -/
def Dev.gpioReport (d : Dev) : List Byte :=
  let p := d.pins
  let side := b2n p.perst + 2 * b2n p.modReset + 4 * b2n p.clkreq + 8 * b2n d.alertSinks + 16 * b2n p.thermtrip + 32 * b2n p.pwrGood
  leBytes 1 (bitmap 8 (fun g => (d.gpio g).level && !d.gpioSinks g)) ++ leBytes 1 p.slotId ++ leBytes 1 side ++ leBytes 1 0 ++
    leBytes 2 (p.vin / 10) ++ leBytes 2 (p.aux / 10)

/-- GPIO_GET: levels, straps, sideband pins and supplies (R423) (DEDUCED, log entry 158). -/
def execGpioGet (mb : Nat) (s : State) : Out :=
  mbRow mb (fun r => r.opcode = 0x70 && r.fld 0 1 = 2) s (fun d r =>
    d.bodyRow mb r 8 [(2, decide (3 ≤ r.fld 2 1)), (3, decide (4 ≤ r.fld 3 1)), (4, decide (1000 < r.fld 4 2)), (6, r.fld 6 2 ≠ 0)]
      (fun d => d.mbAnswer mb r stOk d.gpioReport))

/-- TEMPO_PPS: at a tempo multiple of 1 ms a GPIO that TEMPO_PPS owns sinks for 10 µs (R343, R423). -/
def execTempoPps (g : Nat) (s : State) : Out :=
  onUnit "GPIO" 8 g s (fun d =>
    if d.owner g ≠ 7 then d else d.updGpio g (fun x => { x with sunkUntil := d.now / 1000000 * 1000000 + 10000 }))

/-! ### The I3C target (R425) -/

/-- I3C_ADDRESSED: a dynamic address is assigned; EVT 0x1030 once the firmware runs (R425) (DESIGN CHOICE, log entry 115). -/
def execI3cAddressed (addr : Nat) (s : State) : Out :=
  if 128 ≤ addr then .fault (.noSuchUnit "I3C address" addr)
  else if s.dev.pins.auxOn = false then .next s
  else
    let run := s.dev.alive && s.dev.fwRuns
    let d := { s.dev with pins := { s.dev.pins with i3cAddr := addr, i3cTold := run } }
    .next { s with dev := if run then d.raise { code := 0x1030, args := [addr] } else d }

/-- A value of the target: done, then the value (DESIGN CHOICE, log entry 23 on the wire forms the spec leaves open). -/
def i3cValue (size v : Nat) : List Byte := 0 :: leBytes size v

/-- The status of an unavailable terminus. -/
def i3cUnavailable : List Byte := [1]

/-- The value of platform sensor i: inlet, outlet, flow, the hottest spot, input power, the effective cap. -/
def Dev.i3cSensor (d : Dev) (i : Nat) : List Byte :=
  match i with
  | 0 => i3cValue 2 (d.fld R.THM_COOLANT F.THM_COOLANT_INLET)
  | 1 => i3cValue 2 (d.fld R.THM_COOLANT F.THM_COOLANT_OUTLET)
  | 2 => i3cValue 2 (d.fld R.THM_COOLANT F.THM_COOLANT_FLOW)
  | 3 => i3cValue 2 (d.thm.spots.foldl (fun m e => max m e.2.value) 0)
  | 4 => i3cValue 2 (d.fld R.PWR_CAP F.PWR_CAP_P_LAST_W)
  | 5 => i3cValue 2 (d.fld R.PWR_CAP F.PWR_CAP_EFF_W)
  | _ => i3cUnavailable

/-- I3C_REQUEST: on the auxiliary supply alone the target answers MCTP control, SERIAL, Revision ID and THM_TRIP_REC; the sensors only
while the module runs (R425). Without the auxiliary supply there is no answer. -/
def execI3cRequest (req : I3cReq) (s : State) : Out :=
  if s.dev.pins.auxOn = false then .next s
  else
    let d := s.dev
    let answer := match req with
      | .mctpControl => [0]
      | .fruSerial => i3cValue 8 Config.serial.toNat
      | .fruRevision => i3cValue 1 0x11
      | .tripRecord => i3cValue 8 (d.reg R.THM_TRIP_REC).toNat
      | .sensor i => if d.alive then d.i3cSensor i else i3cUnavailable
      | .other => i3cUnavailable
    .next { s with dev := { d with pins := { d.pins with i3cAnswer := answer } } }

/-! ### The test access port (R426) -/

/-- The instructions of the port in the model's numbering (DESIGN CHOICE, log entry 23): 0 IDCODE, 1 BYPASS, 2 boundary scan, 3 reading (OBSERVE),
4 halting and writing the management core (FULL). Which of them a debug state accepts. -/
def tapAccepts (debug ir : Nat) : Bool :=
  match ir with
  | 0 => true
  | 1 => true
  | 2 => decide (2 ≤ debug)
  | 3 => decide (1 ≤ debug)
  | 4 => decide (2 ≤ debug)
  | _ => false

/-- IDCODE: version, part number, manufacturer, a 1 (R426). -/
def idcode : Nat := 0x1 * 2 ^ 28 + 0x0A16 * 2 ^ 12 + Config.idManufacturer.toNat * 2 + 1

/-- TEST_ACCESS_PORT: an instruction is shifted in; one that the debug state does not accept changes nothing (R426). -/
def execTestAccessPort (ir : Nat) (s : State) : Out :=
  if s.dev.alive && tapAccepts s.trust.debug ir then
    match ir with
    | 0 => .next { s with trust := { s.trust with tapIr := 0, tapOut := idcode } }
    | 1 => .next { s with trust := { s.trust with tapIr := 1, tapOut := 0 } }
    | _ => .next { s with trust := { s.trust with tapIr := ir, tapOut := (Config.scanOut s.dev.fresh).toNat }, dev := s.dev.drew }
  else .next s

end Sys2Proof.Machine
end

