-- ==== Sys2Proof/Machine/Views.lean ====
section
/-! DEFINITION. What the device shows: register values as a read returns them (R6, R10), the read-only state window of BAR4 (R298)
with the queue table, the context table (R321), the orphan reports (R318), the log ring (R340) and the effective defect list
(R407), and the DUMP message (R335). -/

namespace Sys2Proof.Machine

/-! ### Registers as they read (R10) -/

/-- Counters that run with tempo are brought up to now: the URGENT share (R339), stress (R352), blanked cycles (R126). -/
def Dev.accounted (d : Dev) (off : Nat) : Dev :=
  if off = R.MGT_SCHED then d.urgentAccount
  else if decide (0x1000000 ≤ off) && decide (off < 0x2000000) && off % 0x100000 = 0x30 then d.stressAccount ((off - 0x1000000) / 0x100000)
  else if decide (R.NOC_EDGE_CNT 0 ≤ off) && decide (off < R.NOC_EDGE_CNT 64) && off % 16 = 8 then
    d.edgeAccount ((off - R.NOC_EDGE_CNT 0) / 16)
  else d

/-- TIL_ARRAY_STAT as a read finds it: LOAD shows a weight load for its 64 cycles (R58, R76). -/
def Dev.arrayStat (d : Dev) (off : Nat) : Word :=
  match lowest 256 (fun t => R.TIL_ARRAY_STAT t = off) with
  | none => d.reg off
  | some t =>
    match (d.tile t).loading with
    | some (kind, until_) => if d.now < until_ then fieldPut (d.reg off) F.TIL_ARRAY_STAT_LOAD kind else d.reg off
    | none => d.reg off

/-- POS of a stack: the offset of the next granule to scrub, past COMPUTE and retired pages (R147, R154). -/
def Dev.scrubNext (d : Dev) (n : Nat) : Nat :=
  let (lo, hi) := d.scrubBounds (256 + n)
  let o := d.scrubAddr (256 + n) - stackBase n
  if o < hi then o else d.skipRetired (stackBase n) (d.mem.retired.length + 1) lo

/-- The value of the register at a BAR0 offset: tempo is tempo, the fused counter comes from the fuses, BEAT counts loop passes of
the firmware that the spec does not time (a free value, 0 before an image runs). -/
def Dev.live (d : Dev) (fused : Nat) (off : Nat) : Word :=
  if off = R.LNK_TEMPO then BitVec.ofNat 64 d.now
  else if off = R.MGT_ID then fieldPut (d.reg off) F.MGT_ID_FUSED_SVN fused
  else if off = R.MGT_FW_STAT && decide (2 ≤ d.fwState) then fieldPut (d.reg off) F.MGT_FW_STAT_BEAT (Config.beat d.fresh).toNat
  else if decide (R.SMP_STAT 0 ≤ off) && decide (off ≤ R.SMP_STAT 15) && off % 32 = R.SMP_STAT 0 % 32 then
    fieldPut (d.reg off) F.SMP_STAT_STATE (d.smpState ((off - R.SMP_STAT 0) / 32))
  else if decide (R.TIL_ARRAY_STAT 0 ≤ off) && decide (off ≤ R.TIL_ARRAY_STAT 255) then d.arrayStat off
  else if decide (R.MEM_FMC_SCRUB 0 ≤ off) && decide (off ≤ R.MEM_FMC_SCRUB 15) && off % 32 = 16 then
    fieldPut (d.reg off) F.MEM_FMC_SCRUB_POS (d.scrubNext ((off - R.MEM_FMC_SCRUB 0) / 32))
  else (d.accounted off).reg off

/-- The offsets of one block that its table lists, ascending: every register offset from its base up to its last row's end. -/
def blockOffsets (base : Nat) (rows : List RegRow) : List Nat :=
  let top := rows.foldl (fun m r => max m (r.base + r.stride * r.count - base)) 0
  ((List.range (top / 8)).map (fun i => base + 8 * i)).filter (fun o => rows.any (·.has o))

/-- The offsets of the CLU block of a cluster, with the TIL blocks of its tiles (R20). -/
def clusterOffsets (c : Nat) : List Nat :=
  (blockOffsets 0 rowsClu).map (cluBase c + ·) ++
    (List.range 16).flatMap (fun i => (blockOffsets 0 rowsTil).map (tilBase (16 * c + i) + ·))

/-- Every defined BAR0 register, ascending (R335). -/
def definedOffsets : List Nat :=
  (List.range 13).flatMap (fun k => blockOffsets (0x100000 * k) (blockRows k)) ++ (List.range 16).flatMap clusterOffsets

/-! ### The queue table and the context table (R300, R321) -/

/-- STATE of a queue. -/
def QState.code : QState → Nat
  | .free => 0
  | .active => 1
  | .error => 2
  | .resigning => 3
  | .orphaned => 4

/-- STATE of a context. -/
def CState.code : CState → Nat
  | .active => 1
  | .faulted => 2
  | .resigning => 3

/-- A queue-table entry, 64 bytes; of a queue that does not exist, zeros. -/
def Dev.queueEntry (d : Dev) (q : Nat) : List Byte :=
  match d.queue q with
  | none => leBytes 64 0
  | some x =>
    leBytes 1 x.state.code ++ leBytes 1 x.cls ++ leBytes 1 x.fn ++ leBytes 1 x.log2 ++ leBytes 2 x.ctx ++ leBytes 2 x.vector ++
      leBytes 8 x.sq ++ leBytes 8 x.cq ++ leBytes 4 x.tail ++ leBytes 4 x.fetch ++ leBytes 4 x.head ++ leBytes 4 x.written ++
      leBytes 1 x.fetched.length ++ leBytes 3 0 ++ leBytes 4 x.dropped ++ leBytes 8 x.lastService ++ leBytes 8 0

/-- Tiles bound for a context. -/
def Dev.ctxTiles (d : Dev) (c : Nat) : Nat :=
  (allTiles.filter (fun t => d.fld (R.TIL_STATE t) F.TIL_STATE_STATE = 2 && d.fld (R.TIL_STATE t) F.TIL_STATE_CTX = c)).length

/-- A context-table entry, 128 bytes; of a context that does not exist, zeros. -/
def Dev.ctxEntry (d : Dev) (c : Nat) : List Byte :=
  match look c d.ctxs with
  | none => leBytes 128 0
  | some x =>
    let ext := d.extents.filter (fun e => e.ctx = c)
    leBytes 1 x.state.code ++ leBytes 1 x.fn ++ leBytes 1 (d.ctxQueues c).length ++ leBytes 1 x.astat ++ leBytes 2 (d.ctxTiles c) ++
      leBytes 2 (d.ctxSyncs c).length ++ leBytes 8 x.mode.toNat ++ leBytes 8 x.seed.toNat ++ leBytes 2 ext.length ++
      leBytes 2 x.faultEvt ++ leBytes 4 x.faultPc ++ leBytes 4 (d.kvp.seqs.filter (fun e => e.2.ctx = c)).length ++
      leBytes 1 x.faultTile ++ leBytes 3 0 ++ leBytes 8 (x.energy / 1000) ++ leBytes 8 (ext.foldl (fun n e => n + e.len) 0) ++
      leBytes 8 x.created ++ leBytes 64 0

/-! ### The orphan report (R318) -/

/-- One queue of an orphan report: what it held at entry, and its held records, ORPHANED completions and running descriptors now. -/
def Dev.orphanEntry (d : Dev) (e : OrphanEntry) : List Byte :=
  let x := d.queue e.queue
  leBytes 2 e.queue ++ leBytes 2 e.ctx ++ leBytes 1 ((x.map (fun y => y.held.length)).getD 0) ++
    leBytes 1 ((x.map (fun y => y.orphanedDone)).getD 0) ++ leBytes 2 (d.runningOf e.queue).length ++ leBytes 4 e.written ++
    leBytes 4 e.fetch ++ leBytes 4 e.tail ++ leBytes 12 0

/-- The orphan report of a function: a header of 64 bytes, then its queues. -/
def Dev.orphanReport (d : Dev) (f : Nat) : List Byte :=
  let x := d.fn f
  leBytes 1 (b2n x.orphan) ++ leBytes 1 x.reason ++ leBytes 2 x.entries.length ++ leBytes 2 x.adminLost ++ leBytes 2 0 ++
    leBytes 8 x.entry ++ leBytes 8 x.hbLast ++ leBytes 40 0 ++ x.entries.flatMap d.orphanEntry

/-! ### The log ring, the trace, the defect list (R340, R341, R407) -/

/-- The 64 bytes of a log record. -/
def LogRec.bytes (r : LogRec) : List Byte :=
  leBytes 4 r.seq ++ leBytes 2 r.event ++ leBytes 1 (b2n r.fault + 2 * b2n r.suppressed) ++ leBytes 1 0 ++ leBytes 8 r.tempo ++
    leBytes 1 r.fn ++ leBytes 1 0 ++ leBytes 2 r.ctx ++ leBytes 2 r.job ++ leBytes 2 r.unit ++
    ((r.args ++ List.replicate 5 0).take 5).flatMap (leBytes 8)

/-- Slot i of the log ring: the record n with n mod 16,384 = i; a slot that nothing has written reads 0. -/
def Dev.logSlot (d : Dev) (i : Nat) : List Byte :=
  match d.log.ring.find? (fun r => r.seq % logSize = i) with
  | some r => r.bytes
  | none => leBytes 64 0

/-- The 32 bytes of a trace record; FLAGS has no bit with a meaning. -/
def TraceRec.bytes (r : TraceRec) : List Byte :=
  leBytes 8 r.tempo ++ leBytes 1 r.point ++ leBytes 1 0 ++ leBytes 2 r.unit ++ leBytes 2 r.ctx ++ leBytes 2 r.job ++
    leBytes 8 r.data0 ++ leBytes 8 r.data1

/-- The effective list as it reads: the boot record, then the entries. -/
def Dev.defectBytes (d : Dev) : List Byte := d.bootRecord ++ d.boot.defects.flatMap entryBytes

/-! ### The state window (R10, R298) -/

/-- A 64-bit word of a run of bytes. -/
def wordOf (bs : List Byte) (off : Nat) : Word := BitVec.ofNat 64 (natAt bs off 8)

/-- A 64-bit aligned read of the PF's BAR4. -/
def Dev.windowPf (d : Dev) (fused off : Nat) : Word :=
  if off < 0x40000 then wordOf (d.queueEntry (off / 64)) (off % 64)
  else if off < 0x60000 then wordOf (d.ctxEntry ((off - 0x40000) / 128)) (off % 128)
  else if decide (0x100000 ≤ off) && decide (off < 0x1100000) then
    wordOf (d.orphanReport ((off - 0x100000) / 0x40000)) ((off - 0x100000) % 0x40000)
  else if decide (0x2000000 ≤ off) && decide (off < 0x2100000) then wordOf (d.logSlot ((off - 0x2000000) / 64)) (off % 64)
  else if decide (0x3000000 ≤ off) && decide (off < 0x8000000) then wordOf d.defectBytes (off - 0x3000000)
  else if decide (0x8000000 ≤ off) && decide (off < 0xC000000) then d.live fused (off - 0x8000000)
  else 0

/-- A 64-bit aligned read of a VF's BAR4: its queues by local index, its contexts in ascending order, its orphan report. -/
def Dev.windowVf (d : Dev) (f off : Nat) : Word :=
  if off < 0x1000 then
    match d.pageQueue f (off / 64) with
    | some q => wordOf (d.queueEntry q) (off % 64)
    | none => 0
  else if decide (0x1000 ≤ off) && decide (off < 0x3000) then
    match (d.fnCtxs f)[(off - 0x1000) / 128]? with
    | some c => wordOf (d.ctxEntry c) (off % 128)
    | none => 0
  else if decide (0x4000 ≤ off) && decide (off < 0x10000) then wordOf (d.orphanReport f) (off - 0x4000)
  else 0

/-- A 64-bit aligned read through the state window: it has no effect (R10) (DESIGN CHOICE, log entry 120). -/
def Dev.window (d : Dev) (fused f off : Nat) : Word := if f = 0 then d.windowPf fused off else d.windowVf f off

/-! ### DUMP (R335) -/

/-- A section: how many entries it has, the bytes of one, and the entries by index. -/
structure DumpView where
  count : Nat
  size : Nat
  entry : Nat → List Byte

/-- A section whose entries are a list. -/
def listView (size : Nat) (l : List (List Byte)) : DumpView := ⟨l.length, size, fun i => l.getD i []⟩

/-- An entry of REGS. -/
def Dev.dumpReg (d : Dev) (fused off : Nat) : List Byte := leBytes 4 off ++ leBytes 4 0 ++ leBytes 8 (d.live fused off).toNat

/-- An entry of EXTENTS. -/
def Dev.dumpExtent (d : Dev) (e : Extent) : List Byte :=
  leBytes 8 e.base ++ leBytes 8 e.len ++ leBytes 2 e.ctx ++ leBytes 1 e.kind ++
    leBytes 1 (b2n (d.kvp.pooled.any (fun p => p.1 = e.ctx && decide (e.base ≤ p.2) && decide (p.2 < e.base + e.len)))) ++ leBytes 4 0

/-- An entry of SEQS: the record of a sequence number, not OPEN when no such sequence is open. -/
def Dev.dumpSeq (d : Dev) (i : Nat) : List Byte :=
  match look i d.kvp.seqs with
  | none => leBytes 2 i ++ leBytes 30 0
  | some x =>
    leBytes 2 i ++ leBytes 2 x.ctx ++ leBytes 2 x.layers ++ leBytes 2 x.maxPages ++ leBytes 2 x.w ++ leBytes 1 x.fmt ++
      leBytes 1 (1 + 2 * b2n x.remoteOk) ++ leBytes 2 x.job ++ leBytes 2 0 ++ leBytes 4 x.len ++ leBytes 8 x.map ++ leBytes 4 0

/-- A directory entry as R186 lays it out. -/
def Dev.dumpDir (d : Dev) (i : Nat) : List Byte :=
  match look i d.kvp.dir with
  | none => leBytes 16 0
  | some e =>
    leBytes 8 e.frame ++ leBytes 8 (e.refcnt + 2 ^ 16 + 2 ^ 17 * b2n e.busy + 2 ^ 18 * b2n e.remote + 2 ^ 20 * e.fill +
      2 ^ 32 * e.owner + 2 ^ 42 * e.fmt)

/-- An entry of FREELIST: a context's free frames and the frames it has pooled. -/
def Dev.dumpFree (d : Dev) (c : Nat) : List Byte :=
  leBytes 2 c ++ leBytes 2 0 ++ leBytes 4 (d.framesFree c) ++ leBytes 4 (d.kvp.pooled.filter (fun p => p.1 = c)).length ++ leBytes 4 0

/-- An entry of COLL: an open collective; D1 reads 0 before T_m is set (R253). -/
def dumpColl (x : Collective) : List Byte :=
  let y := x.desc
  leBytes 2 x.job ++ leBytes 1 y.op ++ leBytes 1 y.group ++ leBytes 2 y.nmemb ++ leBytes 2 y.self ++ leBytes 4 y.step ++
    leBytes 2 x.ctx ++ leBytes 2 0 ++ leBytes 8 (combineSums x).word.toNat ++
    leBytes 2 (x.contribs.filter (fun c => c.2.complete.isSome)).length ++ leBytes 2 (x.contribs.filter (fun c => c.2.excluded)).length ++
    leBytes 4 0 ++ leBytes 8 x.start ++ leBytes 8 ((x.tm.map (fun t => t + y.dline)).getD 0) ++ leBytes 16 0

/-- An entry of JOBS: the record of a job number, not OPEN when no such job is open. -/
def Dev.dumpJob (d : Dev) (j : Nat) : List Byte :=
  match look j d.jobs with
  | none => leBytes 2 j ++ leBytes 14 0
  | some x =>
    leBytes 2 j ++ leBytes 2 x.ctx ++ leBytes 1 x.level ++ leBytes 1 x.policy ++ leBytes 1 (b2n x.det + 2) ++ leBytes 1 0 ++ leBytes 8 x.opened

/-- An entry of MIRRORS. -/
def Dev.dumpMirror (d : Dev) (i : Nat) : List Byte :=
  match look i d.lnk.mirrors with
  | none => leBytes 2 0xFFFF ++ leBytes 30 0
  | some m =>
    leBytes 2 m.ctx ++ leBytes 2 m.job ++ leBytes 2 m.peer ++ leBytes 2 0 ++ leBytes 8 m.local_ ++ leBytes 8 m.remote ++ leBytes 8 m.len

/-- An entry of PROXIES. -/
def Dev.dumpProxy (d : Dev) (i : Nat) : List Byte :=
  match look i d.lnk.proxies with
  | none => leBytes 2 0 ++ leBytes 2 0xFFFF ++ leBytes 12 0
  | some p =>
    leBytes 2 p.obj ++ leBytes 2 p.ctx ++ leBytes 2 p.job ++ leBytes 2 p.peer ++ leBytes 4 (p.remote % 2 ^ 14) ++ leBytes 4 0

/-- The owners, one byte for each resource (R343). -/
def Dev.dumpOwners (d : Dev) : List Byte := (List.range 14).flatMap (fun r => leBytes 1 (d.owner r)) ++ leBytes 2 0

/-- The sections (DESIGN CHOICE, log entry 119). -/
def Dev.dumpView (d : Dev) (fused section_ : Nat) : Option DumpView :=
  match section_ with
  | 1 => some (listView 16 (definedOffsets.map (d.dumpReg fused)))
  | 2 => some (listView 24 (d.extents.map d.dumpExtent))
  | 3 => some ⟨16384, 8, fun i => leBytes 8 (d.reg (R.SYN_OBJ i)).toNat⟩
  | 4 => some ⟨65536, 32, d.dumpSeq⟩
  | 5 => some ⟨2 ^ 24, 16, d.dumpDir⟩
  | 6 => some ⟨1024, 16, d.dumpFree⟩
  | 7 => some (listView 64 (d.col.open_.map (fun e => dumpColl e.2)))
  | 8 => some ⟨4096, 16, d.dumpJob⟩
  | 9 => some (listView 32 (d.trace.reverse.map TraceRec.bytes))
  | 10 => some ⟨16 + d.boot.defects.length, 16, fun i => bytesAt d.defectBytes (16 * i) 16⟩
  | 11 => some (listView 16 [d.dumpOwners])
  | 12 => some ⟨256, 32, d.dumpMirror⟩
  | 13 => some ⟨4096, 16, d.dumpProxy⟩
  | _ => none

/-- How many entries a response carries. -/
def DumpView.take (v : DumpView) (start count bufLen : Nat) : Nat :=
  let most := min (min (v.count - start) (bufLen / v.size)) (min 65536 (1048576 / v.size))
  if count = 0 then most else min count most

/-- DUMP: entries of a section go to a host buffer; nothing else changes (R335). -/
def execDump (mb : Nat) (s : State) : Out :=
  mbRow mb (isOp 0x30) s (fun d r =>
    d.bodyRow mb r 28 [(0, (d.dumpView s.trust.svn (r.fld 0 1)).isNone), (1, r.fld 1 3 ≠ 0), (0xC, r.fld 0xC 4 ≠ 0), (0x10, r.fld 0x10 8 % 64 ≠ 0)]
      (fun d =>
        match d.dumpView s.trust.svn (r.fld 0 1) with
        | none => d.answerBad mb r 0
        | some v =>
          let start := r.fld 4 4
          let n := v.take start (r.fld 8 4) (r.fld 0x18 4)
          let bytes := (List.range n).flatMap (fun i => v.entry (start + i))
          match d.hostWrite 0 (r.fld 0x10 8) bytes with
          | none => d.accessFailed.mbAnswer mb r stAccess []
          | some e =>
            e.mbAnswer mb r stOk (leBytes 8 d.now ++ leBytes 4 n ++
              leBytes 4 (if v.count ≤ start + n then 0xFFFFFFFF else start + n) ++ leBytes 4 (n * v.size) ++ leBytes 4 0)))

end Sys2Proof.Machine
end

