-- ==== Sys2Proof/Machine/HostRegs.lean ====
section
/-! DEFINITION. Accesses to BAR0 (R6 to R9, R296, R297, R321, R346): reads with their clear-on-read fields, malformed accesses, and
writes to registers that have no row of their own. -/

namespace Sys2Proof.Machine

/-! ### Where an access lands (R296, R321) -/

/-- The offset in the PF's BAR0 that a function's access lands on: a VF's BAR0 of 4 KiB holds its own page alone, the PF's has
64 MiB; none beyond the BAR. -/
def bar0Place (fn off : Nat) : Option Nat :=
  if fn = 0 then (if off < 0x4000000 then some off else none)
  else if off < 0x1000 then some (0x10000 + fn * 0x1000 + off) else none

/-- An access of a function to its BAR0 (DEDUCED, log entry 84). -/
def barRow (fn off : Nat) (s : State) (f : Dev → Nat → Dev) : Out :=
  fnRow fn s (fun d =>
    match bar0Place fn off with
    | some g => f d g
    | none => d)

/-! ### Reads (R6, R8) -/

/-- What a read returns goes to the host. -/
def Dev.returns (d : Dev) (w : Word) : Dev := { d with host := { d.host with data := w } }

/-- The mask of the clear-on-read bits at an offset. -/
def rcMask (off : Nat) : Word :=
  match regRow off with
  | some r => BitVec.ofNat 64 r.rc
  | none => 0

/-- A 64-bit read: the value goes to the host, then the RC fields are cleared (R8). -/
def Dev.readWhole (d : Dev) (fused off : Nat) : Dev :=
  let d := (d.accounted off).returns (d.live fused off)
  let d := if off = R.MGT_FW_STAT then d.drew else d
  if rcMask off = 0 then d else d.setBits off (rcMask off) 0

/-- A 32-bit read: the addressed half; nothing is cleared (R6, R8). -/
def Dev.readHalf (d : Dev) (fused off : Nat) : Dev :=
  d.returns (BitVec.ofNat 64 ((d.live fused (off / 8 * 8)).toNat / 2 ^ (off % 8 * 8) % 2 ^ 32))

/-- A malformed read: 0 in every byte, a host-range event (R6). -/
def Dev.readBad (d : Dev) (fn off : Nat) : Dev := (d.returns 0).hostRange fn off

/-- A read of BAR0 (R6). -/
def Dev.barRead (d : Dev) (fused fn off size : Nat) : Dev :=
  if size = 8 && off % 8 = 0 then d.readWhole fused off
  else if size = 4 && off % 4 = 0 then d.readHalf fused off
  else d.readBad fn off

/-- RC_READ: a read of a register, which clears the RC fields when it is a 64-bit one (R6, R8). -/
def execRcRead (fn off size : Nat) (s : State) : Out := barRow fn off s (fun d g => d.barRead s.trust.svn fn g size)

/-- MALFORMED_READ: a read of another size or alignment changes no register but HIF_ERR.NARROW (R6); one that is well formed
reads (DESIGN CHOICE, log entry 117). -/
def execMalformedRead (fn off size : Nat) (s : State) : Out := barRow fn off s (fun d g => d.barRead s.trust.svn fn g size)

/-! ### Writes (R6 to R9) -/

/-- The bits of a value that lie outside the defined fields of the register at an offset; at an offset that no table lists, all of
them (R7). -/
def strayBits (off : Nat) (val : Word) : Word :=
  match regRow off with
  | some r => val &&& ~~~ BitVec.ofNat 64 r.defined
  | none => val

/-- Apply a value to the RW and W1C fields of a register (R8). -/
def Dev.applyBits (d : Dev) (off : Nat) (val : Word) : Dev :=
  match regRow off with
  | none => d
  | some r =>
    let old := d.reg off
    let rw := BitVec.ofNat 64 r.rw
    let w1c := BitVec.ofNat 64 r.w1c
    if rw = 0 && w1c = 0 then d else d.setReg off (((old &&& ~~~ rw) ||| (val &&& rw)) &&& ~~~ (val &&& w1c))

/-- Whether a value holds an encoding that its register does not take (R9): a sweep period out of range (R148), a response buffer
that is not aligned to 4 KiB (R346), an admin ring base while the queue is enabled (R321). Each of these registers has one field,
which then keeps its value (DESIGN CHOICE, log entry 129). -/
def Dev.refuses (d : Dev) (off : Nat) (val : Word) : Bool :=
  if off = R.MEM_SCRUB_CFG then
    let p := fieldGet val F.MEM_SCRUB_CFG_PERIOD
    decide (p < 60) || decide (10080 < p)
  else if decide (R.MGT_MB_REQ 0 ≤ off) && decide (off < R.MGT_MB_REQ 8) && off % 0x20 = 8 then bits val.toNat 11 6 ≠ 0
  else if decide (R.HIF_FN_STAT 0 ≤ off) && decide (off < R.HIF_FN_STAT 64) && (off % 0x1000 = 0x10 || off % 0x1000 = 0x18) then
    d.adminOn ((off - R.HIF_FN_STAT 0) / 0x1000)
  else false

/-- A quota: RW to the PF, RO in a VF; a VF's quotas are capped at 64 contexts and 64 queues (R321). -/
def Dev.quotaWrite (d : Dev) (fn f : Nat) (val : Word) : Dev :=
  let off := R.HIF_FN_QUOTA f
  if fn ≠ 0 then d
  else
    let cap := fun (fld : Field) => if f = 0 then fieldGet val fld else min 64 (fieldGet val fld)
    let d := (d.setFld off F.HIF_FN_QUOTA_MAXCTX (cap F.HIF_FN_QUOTA_MAXCTX)).setFld off F.HIF_FN_QUOTA_MAXQ (cap F.HIF_FN_QUOTA_MAXQ)
    d.setFld off F.HIF_FN_QUOTA_MEM_GIB (fieldGet val F.HIF_FN_QUOTA_MEM_GIB)

/-- A write to a register whose write only sets fields. -/
def Dev.plainWrite (d : Dev) (fn off : Nat) (val : Word) : Dev :=
  let bad := d.refuses off val
  let d := if strayBits off val ≠ 0 || bad then d.reservedWrite fn off else d
  if bad then d else d.applyBits off val

/-- A write to HIF_RESIGN (R311). -/
def Dev.resignReg (d : Dev) (fn : Nat) (val : Word) : Dev :=
  let v := val.toNat
  let d := if strayBits (R.HIF_RESIGN fn) val ≠ 0 then d.reservedWrite fn (R.HIF_RESIGN fn) else d
  d.resignWrite fn (v % 4) (if v % 4 = 3 then 0 else bits v 19 8)

/-- A 64-bit write inside a function page: the PF writes quotas in every page, all else in its own (R321); an unlisted
offset is reserved for every writer (R7) (DESIGN CHOICE, log entry 116). -/
def Dev.pageWrite (d : Dev) (fn f reg_ : Nat) (val : Word) : Dev :=
  let off := R.HIF_FN_STAT f + reg_
  if reg_ = 0x08 then
    let d := if strayBits off val ≠ 0 then d.reservedWrite fn off else d
    d.quotaWrite fn f val
  else if fn ≠ f then (if strayBits off val ≠ 0 then d.reservedWrite fn off else d)
  else
    match reg_ with
    | 0x20 => d.adminCfg fn val
    | 0x28 => d.adminDoor fn 8 val off Dev.tailWrite
    | 0x30 => d.adminDoor fn 8 val off Dev.headWrite
    | 0x38 => d.heartbeat fn val
    | 0x40 => d.resignReg fn val
    | _ => d.plainWrite fn off val

/-- A 64-bit aligned write to BAR0. -/
def Dev.writeWhole (d : Dev) (fn off : Nat) (val : Word) : Dev :=
  if decide (R.HIF_FN_STAT 0 ≤ off) && decide (off < R.HIF_FN_STAT 64) then
    d.pageWrite fn ((off - R.HIF_FN_STAT 0) / 0x1000) (off % 0x1000) val
  else if decide (R.MGT_MB_DOOR 0 ≤ off) && decide (off < R.MGT_MB_DOOR 8) && off % 0x20 = 0x10 then
    d.doorMailbox ((off - R.MGT_MB_DOOR 0) / 0x20) val
  else d.plainWrite fn off val

/-- A write that is narrow or not aligned: discarded; to an admin doorbell of the writer under R303, else a host-range event (R6). -/
def Dev.writeBad (d : Dev) (fn off : Nat) : Dev :=
  if off = R.HIF_ADMQ_TAIL fn || off = R.HIF_ADMQ_HEAD fn then d.badDoor fn off else d.hostRange fn off

/-- A write to BAR0 (R6). -/
def Dev.barWrite (d : Dev) (fn off size : Nat) (val : Word) : Dev :=
  if size = 8 && off % 8 = 0 then d.writeWhole fn off val else d.writeBad fn off

/-- REGISTER_WRITE: a write to a register; one to a register that has a row of its own has that row's effect (R6 to R9). -/
def execRegisterWrite (fn off size : Nat) (val : Word) (s : State) : Out := barRow fn off s (fun d g => d.barWrite fn g size val)

end Sys2Proof.Machine
end

