-- ==== Sys2Proof/Machine/LoadStore.lean ====
section
/-! DEFINITION. The load and store slots of a bundle (R82, R85, R86): vector and general loads and stores, constants,
copies between memory and SRAM, and the latent buffer (R67). -/

namespace Sys2Proof.Machine

/-- OPD of a load or store slot (R82). -/
def lOpd (w : Nat) : Nat := bits w 10 3
/-- DST or SRC of a load or store slot (R82). -/
def lReg (w : Nat) : Nat := bits w 15 11

/-- Elements of a vector row: 256 in BF16, 128 in every other format (R82). -/
def vectorCount (fmt : Nat) : Nat := if fmt = 1 then 256 else 128

/-- Read the scale bytes of one row of an operand from SRAM, n elements to the row (R85). -/
def Dev.rowScales (d : Dev) (t : Nat) (x : Tile) (o : Operand) (n : Nat) : Dev × Sum Stop (List Nat) :=
  if o.blocks = false then (d, .inr [])
  else
    match d.sramRead t (x.scaleAddr o n 0) ((n + 31) / 32) with
    | (d, .inl e) => (d, .inl e)
    | (d, .inr bs) => (d, .inr (bs.map BitVec.toNat))

/-- LDV: V[DST] = row 0 of the operand; BF16 loads 256 lanes, every other format 128 FP32 lanes (R82) (DESIGN CHOICE, log
entry 133) (DESIGN CHOICE, log entry 134). -/
def execLdv (t : Nat) (err : Upsets) (s : State) : Out :=
  tileRow t 0 1 s (fun d x w =>
    let d := d.upsets t err
    let o := x.opd (lOpd w)
    let n := vectorCount o.fmt
    match o.fault with
    | some e => d.tileStop t e
    | none =>
      match d.runRead t o.mem (x.rowAddr o 0) (packedBytes o.fmt n) with
      | (d, .inl e) => d.tileStop t e
      | (d, .inr bs) =>
        match d.rowScales t x o n with
        | (d, .inl e) => d.tileStop t e
        | (d, .inr sc) =>
          let codes := unpackCodes o.fmt n bs
          let v := if o.fmt = 1 && !o.hasT then (runsOf2 codes) else
            if o.fmt = 1 then runsOf2 ((rowValues o codes sc).map (fun y => (convert 1 false none y).1))
            else (rowValues o codes sc).map toF32
          d.opDone t (fun z => { z with v := put (lReg w) v z.v }))
where
  /-- Two BF16 codes to a word of the register. -/
  runsOf2 : List Nat → List F32
    | a :: b :: r => BitVec.ofNat 32 (a + 65536 * b) :: runsOf2 r
    | _ => []

/-- LDG: G[DST] = the 64-bit value at the operand's address (DESIGN CHOICE, log entry 131). -/
def execLdg (t : Nat) (err : Upsets) (s : State) : Out :=
  tileRow t 0 2 s (fun d x w =>
    let d := d.upsets t err
    let o := x.opd (lOpd w)
    match o.codeFault with
    | some e => d.tileStop t e
    | none =>
    match d.runRead t o.mem (x.rowAddr o 0) 8 with
    | (d, .inl e) => d.tileStop t e
    | (d, .inr bs) => d.opDone t (fun z => z.later (lReg w) (BitVec.ofNat 64 (leNat bs))))

/-- LDC: G[DST] = constant number OPD. -/
def execLdc (t : Nat) (s : State) : Out :=
  tileRow t 0 3 s (fun d x w => d.opDone t (fun z => z.later (lReg w) (x.consts.getD (lOpd w) 0)))

/-- The addresses of the rows of a memory operand. -/
def Tile.memRows (x : Tile) (o : Operand) : List Nat := x.rowAddrs o o.rows

/-- The packed SRAM places of the rows of a memory operand (R85). -/
def Tile.packedRows (x : Tile) (o : Operand) : List Nat :=
  (List.range o.rows).map (fun i => x.packedAddr o + i * o.rowBytes)

/-- The first `n` bytes of a list of runs. -/
def cutRuns : (n : Nat) → List (Nat × List Byte) → List (Nat × List Byte)
  | _, [] => []
  | n, (a, bs) :: r => if n = 0 then [] else if bs.length ≤ n then (a, bs) :: cutRuns (n - bs.length) r else [(a, bs.take n)]

/-- A tile copy writes its runs; one that a resign stops writes whole 128-byte lines, and how many is free (R312, log entry 145). -/
def Dev.copyWrite (d : Dev) (t : Nat) (mem : Bool) (rs : List (Nat × List Byte)) : Dev × Option Stop :=
  let resigned := (d.tile t).halting && (match d.tilePipe t with
    | some (_, p) => (match p.ending with | some (st, _) => decide (st = stResigned) | none => false)
    | none => false)
  if resigned then d.drew.runsWrite t mem (cutRuns (128 * Config.linesCopied d.fresh) rs) else d.runsWrite t mem rs

/-- MCOPY_IN: rows from memory into SRAM, packed (R82, R85, R143) (DESIGN CHOICE, log entry 41). -/
def execMcopyIn (t : Nat) (s : State) : Out :=
  tileRow t 0 4 s (fun d x w =>
    let o := x.opd (lOpd w)
    match o.codeFault.or (d.runsOk t true o.rowBytes (x.memRows o)) with
    | some e => d.tileStop t e
    | none =>
      match d.runsOk t false o.rowBytes (x.packedRows o) with
      | some e => d.tileStop t e
      | none =>
        match d.runsRead t true o.rowBytes (x.memRows o) with
        | (d, .inl e) => d.tileStop t e
        | (d, .inr rows) =>
          match d.copyWrite t false ((x.packedRows o).zip rows) with
          | (d, some e) => d.tileStop t e
          | (d, none) => d.opDone t id)

/-- MCOPY_OUT: rows from SRAM to memory (R82, R85). -/
def execMcopyOut (t : Nat) (err : Upsets) (s : State) : Out :=
  tileRow t 0 5 s (fun d x w =>
    let d := d.upsets t err
    let o := x.opd (lOpd w)
    match o.codeFault.or (d.runsOk t false o.rowBytes (x.packedRows o)) with
    | some e => d.tileStop t e
    | none =>
      match d.runsOk t true o.rowBytes (x.memRows o) with
      | some e => d.tileStop t e
      | none =>
        match d.runsRead t false o.rowBytes (x.packedRows o) with
        | (d, .inl e) => d.tileStop t e
        | (d, .inr rows) =>
          match d.copyWrite t true ((x.memRows o).zip rows) with
          | (d, some e) => d.tileStop t e
          | (d, none) => d.opDone t id)

/-- Rows stream into the latent buffer: it holds 64 rows of 64 bytes, and the rest waits for slots (R67). -/
def Tile.latStream (x : Tile) (rows : List (List Byte)) : Tile :=
  let all := x.latbuf ++ x.latwait ++ rows
  { x with latbuf := all.take 64, latwait := all.drop 64 }

/-- LATFILL: ROWS 64-byte rows from memory into the latent buffer (R67) (DESIGN CHOICE, log entry 40). -/
def execLatfill (t : Nat) (s : State) : Out :=
  tileRow t 0 6 s (fun d x w =>
    let o := x.opd (lOpd w)
    match o.codeFault.or (d.runsOk t true 64 (x.memRows o)) with
    | some e => d.tileStop t e
    | none =>
      match d.runsRead t true 64 (x.memRows o) with
      | (d, .inl e) => d.tileStop t e
      | (d, .inr rows) => d.opDone t (fun z => z.latStream rows))

/-- The values of a vector register as the store path takes them: 256 BF16 lanes for a BF16 operand, else 128 FP32 lanes. -/
def storeValues (fmt : Nat) (v : List F32) : List Fp :=
  if fmt = 1 then v.flatMap (fun w => [fpDecode 1 (w.toNat % 65536), fpDecode 1 (w.toNat / 65536)]) else v.map ofF32

/-- STV: V[SRC] to row 0 of the operand through the store path (R42, R43, R48, R53, R82, R85). -/
def execStv (t : Nat) (s : State) : Out :=
  tileRow t 3 1 s (fun d x w =>
    let o := x.opd (lOpd w)
    match o.fault with
    | some e => d.tileStop t e
    | none =>
      let vs := (storeValues o.fmt (((look (lReg w) x.v)).getD (List.replicate 128 0))).map (fun v =>
        if o.hasT then ofF32 (toF32 (v.mul (ofF32 (f32Div f32One o.tscale)))) else v)
      let n := vs.length
      let (sc, bs, flags) := storeRow (d.storeRule (d.tileCtx t) o) o (fun e => x.srIndex o n 0 e) vs
      match d.runsOk t o.mem bs.length [x.rowAddr o 0] with
      | some e => d.tileStop t e
      | none =>
        match d.runsOk t false sc.length (if sc.isEmpty then [] else [x.scaleAddr o n 0]) with
        | some e => d.tileStop t e
        | none =>
          match d.runWrite t o.mem (x.rowAddr o 0) bs with
          | (d, some e) => d.tileStop t e
          | (d, none) =>
            match d.runsWrite t false (if sc.isEmpty then [] else [(x.scaleAddr o n 0, sc)]) with
            | (d, some e) => d.tileStop t e
            | (d, none) => (d.tileFlags t flags).opDone t id)

/-- STG: G[SRC] as 64 bits to the operand's address. -/
def execStg (t : Nat) (s : State) : Out :=
  tileRow t 3 2 s (fun d x w =>
    let o := x.opd (lOpd w)
    match o.codeFault with
    | some e => d.tileStop t e
    | none =>
    match d.runWrite t o.mem (x.rowAddr o 0) (leBytes 8 (x.reg (lReg w)).toNat) with
    | (d, some e) => d.tileStop t e
    | (d, none) => d.opDone t id)

end Sys2Proof.Machine
end

