-- ==== Sys2Proof/Machine/Dispatch.lean ====
section
/-! DEFINITION. One arm per command: its meaning. -/

namespace Sys2Proof.Machine

/-- The effect of one command on everything but the queue. -/
def exec (i : Instr) (s : State) : Host.Outcome State Fault Refusal :=
  match i with
  | .registerWrite fn off size val => Sys2Proof.Machine.execRegisterWrite fn off size val s
  | .rcRead fn off size => Sys2Proof.Machine.execRcRead fn off size s
  | .malformedRead fn off size => Sys2Proof.Machine.execMalformedRead fn off size s
  | .devConfig mb => Sys2Proof.Machine.execDevConfig mb s
  | .devConfigGet mb => Sys2Proof.Machine.execDevConfigGet mb s
  | .loadw t err => Sys2Proof.Machine.execLoadw t err s
  | .loadwt t err => Sys2Proof.Machine.execLoadwt t err s
  | .issue t err => Sys2Proof.Machine.execIssue t err s
  | .issuel t => Sys2Proof.Machine.execIssuel t s
  | .drainv t => Sys2Proof.Machine.execDrainv t s
  | .drains t => Sys2Proof.Machine.execDrains t s
  | .rampStep t ready => Sys2Proof.Machine.execRampStep t ready s
  | .throttleBubble c => Sys2Proof.Machine.execThrottleBubble c s
  | .vopAdd t => Sys2Proof.Machine.execVopAdd t s
  | .vopSub t => Sys2Proof.Machine.execVopSub t s
  | .vopMul t => Sys2Proof.Machine.execVopMul t s
  | .vopFma t => Sys2Proof.Machine.execVopFma t s
  | .vopMin t => Sys2Proof.Machine.execVopMin t s
  | .vopMax t => Sys2Proof.Machine.execVopMax t s
  | .vopAbs t => Sys2Proof.Machine.execVopAbs t s
  | .vopNeg t => Sys2Proof.Machine.execVopNeg t s
  | .vopCmp t => Sys2Proof.Machine.execVopCmp t s
  | .vopSel t => Sys2Proof.Machine.execVopSel t s
  | .vopCvt t => Sys2Proof.Machine.execVopCvt t s
  | .vopSqrt t => Sys2Proof.Machine.execVopSqrt t s
  | .vopRcp t => Sys2Proof.Machine.execVopRcp t s
  | .vopRsqrt t => Sys2Proof.Machine.execVopRsqrt t s
  | .vopExp2 t => Sys2Proof.Machine.execVopExp2 t s
  | .vopLog2 t => Sys2Proof.Machine.execVopLog2 t s
  | .vopDiv t => Sys2Proof.Machine.execVopDiv t s
  | .vopExp t => Sys2Proof.Machine.execVopExp t s
  | .vopLog t => Sys2Proof.Machine.execVopLog t s
  | .vopTanh t => Sys2Proof.Machine.execVopTanh t s
  | .vopSigmoid t => Sys2Proof.Machine.execVopSigmoid t s
  | .vopSilu t => Sys2Proof.Machine.execVopSilu t s
  | .vopGelu t => Sys2Proof.Machine.execVopGelu t s
  | .vopSubmax t => Sys2Proof.Machine.execVopSubmax t s
  | .vopScaleinv t => Sys2Proof.Machine.execVopScaleinv t s
  | .vopMaxred t => Sys2Proof.Machine.execVopMaxred t s
  | .vopSumred t => Sys2Proof.Machine.execVopSumred t s
  | .vopMov t => Sys2Proof.Machine.execVopMov t s
  | .vopSplat t => Sys2Proof.Machine.execVopSplat t s
  | .ldv t err => Sys2Proof.Machine.execLdv t err s
  | .ldg t err => Sys2Proof.Machine.execLdg t err s
  | .ldc t => Sys2Proof.Machine.execLdc t s
  | .mcopyIn t => Sys2Proof.Machine.execMcopyIn t s
  | .mcopyOut t err => Sys2Proof.Machine.execMcopyOut t err s
  | .latfill t => Sys2Proof.Machine.execLatfill t s
  | .stv t => Sys2Proof.Machine.execStv t s
  | .stg t => Sys2Proof.Machine.execStg t s
  | .sendv t => Sys2Proof.Machine.execSendv t s
  | .recvv t => Sys2Proof.Machine.execRecvv t s
  | .send t err => Sys2Proof.Machine.execSend t err s
  | .recv t => Sys2Proof.Machine.execRecv t s
  | .gaddi t => Sys2Proof.Machine.execGaddi t s
  | .gadd t => Sys2Proof.Machine.execGadd t s
  | .gshl t => Sys2Proof.Machine.execGshl t s
  | .loop t => Sys2Proof.Machine.execLoop t s
  | .br t => Sys2Proof.Machine.execBr t s
  | .bne t => Sys2Proof.Machine.execBne t s
  | .ginfo t => Sys2Proof.Machine.execGinfo t s
  | .signal t => Sys2Proof.Machine.execSignal t s
  | .wait t => Sys2Proof.Machine.execWait t s
  | .sreset t => Sys2Proof.Machine.execSreset t s
  | .halt t => Sys2Proof.Machine.execHalt t s
  | .syncPacket agent op obj val => Sys2Proof.Machine.execSyncPacket agent op obj val s
  | .syncTimeout obj who => Sys2Proof.Machine.execSyncTimeout obj who s
  | .stream sid prod cons => Sys2Proof.Machine.execStream sid prod cons s
  | .credit sid prod cons => Sys2Proof.Machine.execCredit sid prod cons s
  | .streamTimeout t => Sys2Proof.Machine.execStreamTimeout t s
  | .pipeline q => Sys2Proof.Machine.execPipeline q s
  | .pipeBound p => Sys2Proof.Machine.execPipeBound p s
  | .pipeDone p => Sys2Proof.Machine.execPipeDone p s
  | .packetInject pkt => Sys2Proof.Machine.execPacketInject pkt s
  | .epArrival node port dstdev pkt => Sys2Proof.Machine.execEpArrival node port dstdev pkt s
  | .epHoldExpiry node => Sys2Proof.Machine.execEpHoldExpiry node s
  | .flitCrcFail node dir again => Sys2Proof.Machine.execFlitCrcFail node dir again s
  | .purgeDone => Sys2Proof.Machine.execPurgeDone s
  | .memRead addr who err retry => Sys2Proof.Machine.execMemRead addr who err retry s
  | .memWrite addr data who => Sys2Proof.Machine.execMemWrite addr data who s
  | .ceWriteback addr => Sys2Proof.Machine.execCeWriteback addr s
  | .refresh bank => Sys2Proof.Machine.execRefresh bank s
  | .refreshBoundary tile fails => Sys2Proof.Machine.execRefreshBoundary tile fails s
  | .clkFallback => Sys2Proof.Machine.execClkFallback s
  | .evacPageCopy => Sys2Proof.Machine.execEvacPageCopy s
  | .scrub ctrl err retry => Sys2Proof.Machine.execScrub ctrl err retry s
  | .pimAdd q => Sys2Proof.Machine.execPimAdd q s
  | .pimMul q => Sys2Proof.Machine.execPimMul q s
  | .pimMad q => Sys2Proof.Machine.execPimMad q s
  | .pimRelu q => Sys2Proof.Machine.execPimRelu q s
  | .pimGelu q => Sys2Proof.Machine.execPimGelu q s
  | .pimSilu q => Sys2Proof.Machine.execPimSilu q s
  | .pimClamp q => Sys2Proof.Machine.execPimClamp q s
  | .pool q => Sys2Proof.Machine.execPool q s
  | .sequenceStart stack lane rows => Sys2Proof.Machine.execSequenceStart stack lane rows s
  | .sequenceEnd stack lane => Sys2Proof.Machine.execSequenceEnd stack lane s
  | .pimCmdDone stack => Sys2Proof.Machine.execPimCmdDone stack s
  | .pimBudgetWindow => Sys2Proof.Machine.execPimBudgetWindow s
  | .seqOpen q => Sys2Proof.Machine.execSeqOpen q s
  | .seqClose q => Sys2Proof.Machine.execSeqClose q s
  | .poolAdd q => Sys2Proof.Machine.execPoolAdd q s
  | .append q => Sys2Proof.Machine.execAppend q s
  | .copyOnWrite seq layer page => Sys2Proof.Machine.execCopyOnWrite seq layer page s
  | .fork q => Sys2Proof.Machine.execFork q s
  | .truncate q => Sys2Proof.Machine.execTruncate q s
  | .fetch q => Sys2Proof.Machine.execFetch q s
  | .push q => Sys2Proof.Machine.execPush q s
  | .pageRead pkt => Sys2Proof.Machine.execPageRead pkt s
  | .pageData pkt => Sys2Proof.Machine.execPageData pkt s
  | .sample q => Sys2Proof.Machine.execSample q s
  | .sampleRow n => Sys2Proof.Machine.execSampleRow n s
  | .smpTimeout n slot => Sys2Proof.Machine.execSmpTimeout n slot s
  | .gambit q => Sys2Proof.Machine.execGambit q s
  | .gambitDecision n => Sys2Proof.Machine.execGambitDecision n s
  | .update q => Sys2Proof.Machine.execUpdate q s
  | .updateUnit n => Sys2Proof.Machine.execUpdateUnit n s
  | .konaocAdd n d a b => Sys2Proof.Machine.execKonaocAdd n d a b s
  | .konaocSub n d a b => Sys2Proof.Machine.execKonaocSub n d a b s
  | .konaocMul n d a b => Sys2Proof.Machine.execKonaocMul n d a b s
  | .konaocFma n d a b c => Sys2Proof.Machine.execKonaocFma n d a b c s
  | .konaocDiv n d a b => Sys2Proof.Machine.execKonaocDiv n d a b s
  | .konaocSqrt n d a => Sys2Proof.Machine.execKonaocSqrt n d a s
  | .konaocRsqrt n d a => Sys2Proof.Machine.execKonaocRsqrt n d a s
  | .konaocMin n d a b => Sys2Proof.Machine.execKonaocMin n d a b s
  | .konaocMax n d a b => Sys2Proof.Machine.execKonaocMax n d a b s
  | .konaocAbs n d a => Sys2Proof.Machine.execKonaocAbs n d a s
  | .konaocNeg n d a => Sys2Proof.Machine.execKonaocNeg n d a s
  | .konaocSign n d a => Sys2Proof.Machine.execKonaocSign n d a s
  | .konaocCmplt n d a b => Sys2Proof.Machine.execKonaocCmplt n d a b s
  | .konaocSel n d a b c => Sys2Proof.Machine.execKonaocSel n d a b c s
  | .konaocMov n d a => Sys2Proof.Machine.execKonaocMov n d a s
  | .konaocBsum n d a => Sys2Proof.Machine.execKonaocBsum n d a s
  | .konaocBmax n d a => Sys2Proof.Machine.execKonaocBmax n d a s
  | .konaocPhase n => Sys2Proof.Machine.execKonaocPhase n s
  | .audit q => Sys2Proof.Machine.execAudit q s
  | .ownerHashes job owner tidx nElems wfmt hashes => Sys2Proof.Machine.execOwnerHashes job owner tidx nElems wfmt hashes s
  | .noticeAuditDone job dev => Sys2Proof.Machine.execNoticeAuditDone job dev s
  | .auditTimeout job => Sys2Proof.Machine.execAuditTimeout job s
  | .reduceScatter q => Sys2Proof.Machine.execReduceScatter q s
  | .allGather q => Sys2Proof.Machine.execAllGather q s
  | .allReduce q => Sys2Proof.Machine.execAllReduce q s
  | .broadcast q => Sys2Proof.Machine.execBroadcast q s
  | .allToAll q => Sys2Proof.Machine.execAllToAll q s
  | .collectiveAcc pkt => Sys2Proof.Machine.execCollectiveAcc pkt s
  | .plainAccumulate pkt => Sys2Proof.Machine.execPlainAccumulate pkt s
  | .checkPacket id contrib bkp samples => Sys2Proof.Machine.execCheckPacket id contrib bkp samples s
  | .deadlineD1 id => Sys2Proof.Machine.execDeadlineD1 id s
  | .deadlineD2 id => Sys2Proof.Machine.execDeadlineD2 id s
  | .collTimeout id => Sys2Proof.Machine.execCollTimeout id s
  | .localSummary id member level word detail missing => Sys2Proof.Machine.execLocalSummary id member level word detail missing s
  | .noticeDone id member => Sys2Proof.Machine.execNoticeDone id member s
  | .noticeBackupReq job owner ask => Sys2Proof.Machine.execNoticeBackupReq job owner ask s
  | .noticeAbandon job dev => Sys2Proof.Machine.execNoticeAbandon job dev s
  | .allGatherBlock id member block data hash => Sys2Proof.Machine.execAllGatherBlock id member block data hash s
  | .quietPeriodEnd job => Sys2Proof.Machine.execQuietPeriodEnd job s
  | .trainingAttempt k good => Sys2Proof.Machine.execTrainingAttempt k good s
  | .ident k peer => Sys2Proof.Machine.execIdent k peer s
  | .laneDropped k lane => Sys2Proof.Machine.execLaneDropped k lane s
  | .flitReceive k f => Sys2Proof.Machine.execFlitReceive k f s
  | .resendTimeout k => Sys2Proof.Machine.execResendTimeout k s
  | .bamatWrite pkt => Sys2Proof.Machine.execBamatWrite pkt s
  | .bamatRead pkt => Sys2Proof.Machine.execBamatRead pkt s
  | .bamatRdata pkt => Sys2Proof.Machine.execBamatRdata pkt s
  | .bamatAck pkt => Sys2Proof.Machine.execBamatAck pkt s
  | .bamatSignal pkt => Sys2Proof.Machine.execBamatSignal pkt s
  | .bamatSreset pkt => Sys2Proof.Machine.execBamatSreset pkt s
  | .noticeRing dim seg broken => Sys2Proof.Machine.execNoticeRing dim seg broken s
  | .refuse pkt => Sys2Proof.Machine.execRefuse pkt s
  | .tempoExchange k stamps err => Sys2Proof.Machine.execTempoExchange k stamps err s
  | .ethFrame k srcMac etherType vlan body => Sys2Proof.Machine.execEthFrame k srcMac etherType vlan body s
  | .mirrorAdd q => Sys2Proof.Machine.execMirrorAdd q s
  | .mirrorDel q => Sys2Proof.Machine.execMirrorDel q s
  | .proxyAdd q => Sys2Proof.Machine.execProxyAdd q s
  | .proxyDel q => Sys2Proof.Machine.execProxyDel q s
  | .perstN level => Sys2Proof.Machine.execPerstN level s
  | .modResetN level => Sys2Proof.Machine.execModResetN level s
  | .hotReset => Sys2Proof.Machine.execHotReset s
  | .linkDown => Sys2Proof.Machine.execLinkDown s
  | .linkUp speed width => Sys2Proof.Machine.execLinkUp speed width s
  | .flrVf f => Sys2Proof.Machine.execFlrVf f s
  | .flrPf => Sys2Proof.Machine.execFlrPf s
  | .vfEnableCleared => Sys2Proof.Machine.execVfEnableCleared s
  | .bmeCleared f => Sys2Proof.Machine.execBmeCleared f s
  | .sqTail fn off size val hw => Sys2Proof.Machine.execSqTail fn off size val hw s
  | .cqHead fn off size val => Sys2Proof.Machine.execCqHead fn off size val s
  | .hifAdmqTail fn size val hw => Sys2Proof.Machine.execHifAdmqTail fn size val hw s
  | .hifAdmqHead fn size val => Sys2Proof.Machine.execHifAdmqHead fn size val s
  | .hifAdmqCfg fn size val => Sys2Proof.Machine.execHifAdmqCfg fn size val s
  | .hifHeartbeat fn size val => Sys2Proof.Machine.execHifHeartbeat fn size val s
  | .heartbeatLate fn => Sys2Proof.Machine.execHeartbeatLate fn s
  | .heartbeatTimeout fn => Sys2Proof.Machine.execHeartbeatTimeout fn s
  | .descriptorFetch q => Sys2Proof.Machine.execDescriptorFetch q s
  | .nop q => Sys2Proof.Machine.execNop q s
  | .ctxCreate q => Sys2Proof.Machine.execCtxCreate q s
  | .ctxDestroy q => Sys2Proof.Machine.execCtxDestroy q s
  | .queueCreate q => Sys2Proof.Machine.execQueueCreate q s
  | .queueDestroy q => Sys2Proof.Machine.execQueueDestroy q s
  | .queueAdopt q => Sys2Proof.Machine.execQueueAdopt q s
  | .memAlloc q => Sys2Proof.Machine.execMemAlloc q s
  | .memFree q => Sys2Proof.Machine.execMemFree q s
  | .syncAlloc q => Sys2Proof.Machine.execSyncAlloc q s
  | .syncFree q => Sys2Proof.Machine.execSyncFree q s
  | .syncOpSignal q => Sys2Proof.Machine.execSyncOpSignal q s
  | .syncOpWait q => Sys2Proof.Machine.execSyncOpWait q s
  | .syncOpSreset q => Sys2Proof.Machine.execSyncOpSreset q s
  | .copy q => Sys2Proof.Machine.execCopy q s
  | .copyDone q n => Sys2Proof.Machine.execCopyDone q n s
  | .descriptorTimeout q n => Sys2Proof.Machine.execDescriptorTimeout q n s
  | .resignQueue fn target => Sys2Proof.Machine.execResignQueue fn target s
  | .resignContext fn target => Sys2Proof.Machine.execResignContext fn target s
  | .resignFunction fn target => Sys2Proof.Machine.execResignFunction fn target s
  | .resignDevice fn => Sys2Proof.Machine.execResignDevice fn s
  | .resignDone fn => Sys2Proof.Machine.execResignDone fn s
  | .watchdogRestart code cfgOk => Sys2Proof.Machine.execWatchdogRestart code cfgOk s
  | .readback found => Sys2Proof.Machine.execReadback found s
  | .versionGet mb => Sys2Proof.Machine.execVersionGet mb s
  | .fwLoad mb => Sys2Proof.Machine.execFwLoad mb s
  | .svnCommit mb => Sys2Proof.Machine.execSvnCommit mb s
  | .attest mb => Sys2Proof.Machine.execAttest mb s
  | .challenge mb => Sys2Proof.Machine.execChallenge mb s
  | .respond mb => Sys2Proof.Machine.execRespond mb s
  | .lock mb => Sys2Proof.Machine.execLock mb s
  | .jobOpen mb => Sys2Proof.Machine.execJobOpen mb s
  | .jobClose mb => Sys2Proof.Machine.execJobClose mb s
  | .dump mb => Sys2Proof.Machine.execDump mb s
  | .traceCfg mb => Sys2Proof.Machine.execTraceCfg mb s
  | .schedCfg mb => Sys2Proof.Machine.execSchedCfg mb s
  | .queueClass mb => Sys2Proof.Machine.execQueueClass mb s
  | .powerSet mb => Sys2Proof.Machine.execPowerSet mb s
  | .clusterFreqMax mb => Sys2Proof.Machine.execClusterFreqMax mb s
  | .gpioSet mb => Sys2Proof.Machine.execGpioSet mb s
  | .gpioGet mb => Sys2Proof.Machine.execGpioGet mb s
  | .timerCfg mb => Sys2Proof.Machine.execTimerCfg mb s
  | .timerExpiry k => Sys2Proof.Machine.execTimerExpiry k s
  | .z8Info mb => Sys2Proof.Machine.execZ8Info mb s
  | .z8Attest mb => Sys2Proof.Machine.execZ8Attest mb s
  | .z8FwLoad mb => Sys2Proof.Machine.execZ8FwLoad mb s
  | .z8CapSet mb => Sys2Proof.Machine.execZ8CapSet mb s
  | .z8PowerGet mb => Sys2Proof.Machine.execZ8PowerGet mb s
  | .z8PrioSet mb => Sys2Proof.Machine.execZ8PrioSet mb s
  | .z8AgingSet mb => Sys2Proof.Machine.execZ8AgingSet mb s
  | .z8ClkSet mb => Sys2Proof.Machine.execZ8ClkSet mb s
  | .z8Gate mb => Sys2Proof.Machine.execZ8Gate mb s
  | .z8CluStatus mb => Sys2Proof.Machine.execZ8CluStatus mb s
  | .urgentWindow => Sys2Proof.Machine.execUrgentWindow s
  | .urgentSpent => Sys2Proof.Machine.execUrgentSpent s
  | .traceFull => Sys2Proof.Machine.execTraceFull s
  | .convPhaseFailed k => Sys2Proof.Machine.execConvPhaseFailed k s
  | .ivrPhaseFailed c k => Sys2Proof.Machine.execIvrPhaseFailed c k s
  | .ageStep c => Sys2Proof.Machine.execAgeStep c s
  | .droopBoost c => Sys2Proof.Machine.execDroopBoost c s
  | .clockStretch c => Sys2Proof.Machine.execClockStretch c s
  | .shuntClamp c => Sys2Proof.Machine.execShuntClamp c s
  | .slopeTokenReturn quad => Sys2Proof.Machine.execSlopeTokenReturn quad s
  | .powerSample vin10mV current10mA => Sys2Proof.Machine.execPowerSample vin10mV current10mA s
  | .cappingWindow clusterNj currents slots granules memNj => Sys2Proof.Machine.execCappingWindow clusterNj currents slots granules memNj s
  | .freqWindow => Sys2Proof.Machine.execFreqWindow s
  | .sensorSample spot raw granules => Sys2Proof.Machine.execSensorSample spot raw granules s
  | .flowSample flow inlet outlet => Sys2Proof.Machine.execFlowSample flow inlet outlet s
  | .coolantWindow => Sys2Proof.Machine.execCoolantWindow s
  | .leak high => Sys2Proof.Machine.execLeak high s
  | .stopDone => Sys2Proof.Machine.execStopDone s
  | .keepWarm c => Sys2Proof.Machine.execKeepWarm c s
  | .castled => Sys2Proof.Machine.execCastled s
  | .castleAbandoned => Sys2Proof.Machine.execCastleAbandoned s
  | .inputGood => Sys2Proof.Machine.execInputGood s
  | .inputLockout mV => Sys2Proof.Machine.execInputLockout mV s
  | .vinRange mV => Sys2Proof.Machine.execVinRange mV s
  | .auxRange mV => Sys2Proof.Machine.execAuxRange mV s
  | .bistDone found untested => Sys2Proof.Machine.execBistDone found untested s
  | .pllLockLoss => Sys2Proof.Machine.execPllLockLoss s
  | .readyLate => Sys2Proof.Machine.execReadyLate s
  | .strapChanged slot => Sys2Proof.Machine.execStrapChanged slot s
  | .gpioEdge g level => Sys2Proof.Machine.execGpioEdge g level s
  | .i3cAddressed addr => Sys2Proof.Machine.execI3cAddressed addr s
  | .i3cRequest req => Sys2Proof.Machine.execI3cRequest req s
  | .mailboxDoorbell mb size val hw => Sys2Proof.Machine.execMailboxDoorbell mb size val hw s
  | .completionTimeout q desc => Sys2Proof.Machine.execCompletionTimeout q desc s
  | .testAccessPort ir => Sys2Proof.Machine.execTestAccessPort ir s
  | .tempoPps g => Sys2Proof.Machine.execTempoPps g s
  | .auxiliaryPowerOn => Sys2Proof.Machine.execAuxiliaryPowerOn s

end Sys2Proof.Machine
end

