-- ==== Sys2Proof/Machine/Idle.lean ====
section
/-! DEFINITION. What the block does when no command waits: one nanosecond of tempo passes (R284, R397; DESIGN CHOICE, log entry 1). -/

namespace Sys2Proof.Machine

/-- The state after an idle step: a device that works ticks; one in reset, without input power or dark stands still. -/
def State.idle (s : State) : State := if s.dev.alive then { s with dev := s.dev.idleTick } else s

end Sys2Proof.Machine
end

