-- ==== Sys2Proof/WellFormed.lean ====
section
/-! DEFINITION. Well-formed commands: every operand names a unit the device has, and every packet, flit, list and size lies in the
range that its rule gives it. The meanings stop only on commands that are not well formed (a unit that does not exist); a
malformed packet or access is answered as the spec says. -/

namespace Sys2Proof

/-- A number below a limit. -/
def below (limit n : Nat) : Bool := decide (n < limit)

/-- Bytes of the device's physical address space: 40 bits (R128). -/
def memoryBytes : Nat := 2 ^ 40

/-- The sizes of a PCI Express access to a BAR (R6). -/
def accessSize (size : Nat) : Bool := [1, 2, 4, 8].contains size

/-- A read that R6 answers with data: 64 or 32 bits, aligned. -/
def wholeAccess (off size : Nat) : Bool := (size = 8 && off % 8 = 0) || (size = 4 && off % 4 = 0)

/-- Wrong symbols of a granule: positions 0 to 71 (R139). -/
def symbolsWf (l : List (Nat × Byte)) : Bool := l.all (fun e => below 72 e.1)

/-- Wrong symbols of a tile's SRAM: granules of 64 bytes (R71). -/
def upsetsWf (l : Upsets) : Bool := l.all (fun e => below 72 e.1.2)

/-- The endpoint of a mesh packet (R109): eleven bits. -/
def endpointWf (x : Nat) : Bool := below 2048 x

/-- The fields of a mesh packet fit their bits, and its payload its flits (R108). -/
def nocPktWf (p : NocPkt) : Bool :=
  below 16 p.typ && below 8 p.vc && below 8 p.len && below 4096 p.job && below 65536 p.tag && endpointWf p.dst && endpointWf p.src &&
    below 2 p.rfmt && below 2 p.ph && below memoryBytes p.addr && below 256 p.cnt && below 256 p.total && below 256 p.hb &&
    decide (p.payload.length ≤ 128 * (p.len + 1))

/-- The fields of a Bamat packet fit their bytes, and its payload is at most 1,024 bytes (R273). -/
def bamatPktWf (p : BamatPkt) : Bool :=
  below 256 p.op && below 8 p.vc && below 2 p.rfmt && below 2 p.cls && below 2 p.dir && below 4096 p.job && below 65536 p.tag &&
    below 65536 p.dstdev && below 65536 p.srcdev && endpointWf p.dstep && endpointWf p.srcep && below (2 ^ 64) p.addr && below 256 p.cnt &&
    below 256 p.total && below 256 p.hb && below 256 p.hops && below (2 ^ 32) p.arg && decide (p.payload.length ≤ 1024)

/-- A flit has 244 content bytes (R270). -/
def flitWf (f : Flit) : Bool := decide (f.content.length = 244)

/-- The body of an Ethernet frame: flits, a PAUSE of 16-bit quanta, or one quantum for each of the eight
priorities (R289). -/
def ethBodyWf : EthBody → Bool
  | .flits fs => fs.all flitWf
  | .pause quanta => below 65536 quanta
  | .pfc quanta => decide (quanta.length = 8) && quanta.all (fun q => q.all (below 65536))

/-- Who waits exists. -/
def waiterWf : Waiter → Bool
  | .tile t => below 256 t
  | .desc q _ => below 4160 q

/-- The agent of a sync operation exists (R97). -/
def agentWf : SyncAgent → Bool
  | .tile t => below 256 t
  | .host q => below 4160 q
  | .timer i => below 4 i
  | .page ctx => below 1024 ctx
  | .sampler n ctx => below 16 n && below 1024 ctx
  | .controller n ctx => below 16 n && below 1024 ctx
  | .collective ctx => below 1024 ctx
  | .port k job => below 32 k && below 4096 job

/-- The consumer of a memory access exists (R143). -/
def consumerWf : Consumer → Bool
  | .tile t => below 256 t
  | .engine q _ => below 4160 q
  | .remote dev ctx => below 32768 dev && below 1024 ctx
  | .scrubber => true

/-- The bank exists (R129). -/
def bankWf : BankId → Bool
  | .near tile layer => below 256 tile && below 4 layer
  | .far stack pc bg bank => below 16 stack && below 32 pc && below 4 bg && below 4 bank

/-- The spot exists (R376). -/
def spotWf : Spot → Bool
  | .tile t => below 256 t
  | .near t k => below 256 t && below 4 k
  | .far n => below 16 n
  | .edge e => below 64 e

/-- The readings of a sample: two of a tile, twelve of a far stack, one elsewhere (R377). -/
def spotReadings : Spot → Nat
  | .tile _ => 2
  | .near _ _ => 1
  | .far _ => 12
  | .edge _ => 1

/-- A finding of the start-up test: a defined kind, source and state in their bytes (R402). -/
def defectWf (x : Defect) : Bool := decide (1 ≤ x.kind) && decide (x.kind ≤ 13) && below 65536 x.unit && below (2 ^ 32) x.index

/-- Whether a command is well formed. -/
def wf : Instr → Bool
  | .registerWrite fn off size _ => below 64 fn && accessSize size && below 0x4000000 off
  | .rcRead fn off size => below 64 fn && wholeAccess off size && below 0x4000000 off
  | .malformedRead fn off size => below 64 fn && accessSize size && !wholeAccess off size && below 0x4000000 off
  | .devConfig mb | .devConfigGet mb => below 8 mb
  | .loadw t err | .loadwt t err | .issue t err => below 256 t && upsetsWf err
  | .issuel t | .drainv t | .drains t => below 256 t
  | .rampStep t _ => below 256 t
  | .throttleBubble c => below 16 c
  | .vopAdd t | .vopSub t | .vopMul t | .vopFma t | .vopMin t | .vopMax t | .vopAbs t | .vopNeg t | .vopCmp t | .vopSel t
  | .vopCvt t | .vopSqrt t | .vopRcp t | .vopRsqrt t | .vopExp2 t | .vopLog2 t | .vopDiv t | .vopExp t | .vopLog t
  | .vopTanh t | .vopSigmoid t | .vopSilu t | .vopGelu t | .vopSubmax t | .vopScaleinv t | .vopMaxred t | .vopSumred t
  | .vopMov t | .vopSplat t => below 256 t
  | .ldv t err | .ldg t err => below 256 t && upsetsWf err
  | .ldc t | .mcopyIn t => below 256 t
  | .mcopyOut t err => below 256 t && upsetsWf err
  | .latfill t | .stv t | .stg t | .sendv t | .recvv t => below 256 t
  | .send t err => below 256 t && upsetsWf err
  | .recv t | .gaddi t | .gadd t | .gshl t | .loop t | .br t | .bne t | .ginfo t | .signal t | .wait t | .sreset t | .halt t =>
    below 256 t
  | .syncPacket agent _ obj val => agentWf agent && below 16384 obj && below (2 ^ 32) val
  | .syncTimeout obj who => below 16384 obj && waiterWf who
  | .stream sid prod cons | .credit sid prod cons => below 4096 sid && below 256 prod && below 256 cons
  | .streamTimeout t => below 256 t
  | .pipeline q => below 4096 q
  | .pipeBound p | .pipeDone p => below 4096 p
  | .packetInject pkt => nocPktWf pkt
  | .epArrival node port dstdev pkt => below 320 node && below 7 port.port && below 65536 dstdev && nocPktWf pkt
  | .epHoldExpiry node => below 320 node
  | .flitCrcFail node dir _ => below 320 node && below 5 dir
  | .purgeDone => true
  | .memRead addr who err retry => below memoryBytes addr && consumerWf who && symbolsWf err && symbolsWf retry
  | .memWrite addr data who => below memoryBytes addr && decide (addr + data.length ≤ memoryBytes) && consumerWf who
  | .ceWriteback addr => below memoryBytes addr
  | .refresh bank => bankWf bank
  | .refreshBoundary tile fails => below 256 tile && fails.all (below 2368)
  | .clkFallback | .evacPageCopy => true
  | .scrub ctrl err retry => below 272 ctrl && symbolsWf err && symbolsWf retry
  | .pimAdd q | .pimMul q | .pimMad q | .pimRelu q | .pimGelu q | .pimSilu q | .pimClamp q | .pool q => below 4096 q
  | .sequenceStart stack lane rows => below 16 stack && below 128 lane && decide (1 ≤ rows)
  | .sequenceEnd stack lane => below 16 stack && below 128 lane
  | .pimCmdDone stack => below 16 stack
  | .pimBudgetWindow => true
  | .seqOpen q | .seqClose q | .poolAdd q | .append q => below 4096 q
  | .copyOnWrite seq layer page => below 65536 seq && below 256 layer && below 65536 page
  | .fork q | .truncate q | .fetch q | .push q => below 4096 q
  | .pageRead pkt | .pageData pkt => bamatPktWf pkt
  | .sample q => below 4096 q
  | .sampleRow n => below 16 n
  | .smpTimeout n slot => below 16 n && below 16 slot
  | .gambit q => below 4096 q
  | .gambitDecision n => below 16 n
  | .update q => below 4096 q
  | .updateUnit n => below 16 n
  | .konaocAdd n d a b | .konaocSub n d a b | .konaocMul n d a b => below 16 n && below 32 d && below 32 a && below 32 b
  | .konaocFma n d a b c => below 16 n && below 32 d && below 32 a && below 32 b && below 32 c
  | .konaocDiv n d a b => below 16 n && below 32 d && below 32 a && below 32 b
  | .konaocSqrt n d a | .konaocRsqrt n d a => below 16 n && below 32 d && below 32 a
  | .konaocMin n d a b | .konaocMax n d a b => below 16 n && below 32 d && below 32 a && below 32 b
  | .konaocAbs n d a | .konaocNeg n d a | .konaocSign n d a => below 16 n && below 32 d && below 32 a
  | .konaocCmplt n d a b => below 16 n && below 32 d && below 32 a && below 32 b
  | .konaocSel n d a b c => below 16 n && below 32 d && below 32 a && below 32 b && below 32 c
  | .konaocMov n d a | .konaocBsum n d a | .konaocBmax n d a => below 16 n && below 32 d && below 32 a
  | .konaocPhase n => below 16 n
  | .audit q => below 4096 q
  | .ownerHashes job owner tidx nElems wfmt hashes =>
    below 4096 job && below 32768 owner && below 4096 tidx && below (2 ^ 37) nElems && below 256 wfmt && hashes.all (fun h => below (2 ^ 32) h.1)
  | .noticeAuditDone job dev => below 4096 job && below 32768 dev
  | .auditTimeout job => below 4096 job
  | .reduceScatter q | .allGather q | .allReduce q | .broadcast q | .allToAll q => below 4096 q
  | .collectiveAcc pkt | .plainAccumulate pkt => nocPktWf pkt
  | .checkPacket _ contrib _ samples => below 4096 contrib && decide (samples.length ≤ 256)
  | .deadlineD1 _ | .deadlineD2 _ | .collTimeout _ => true
  | .localSummary _ member level _ detail missing =>
    below 4096 member && below 256 level && decide (detail.length = 56) && missing.all (below 4096)
  | .noticeDone _ member => below 4096 member
  | .noticeBackupReq job owner ask => below 4096 job && below 4096 owner && below 4096 ask.contrib
  | .noticeAbandon job dev => below 4096 job && below 32768 dev
  | .allGatherBlock _ member _ _ _ => below 4096 member
  | .quietPeriodEnd job => below 4096 job
  | .trainingAttempt k _ => below 32 k
  | .ident k peer => below 32 k && below 65536 peer.dev && below 32 peer.port && below 65536 peer.vers
  | .laneDropped k lane => below 32 k && below 8 lane
  | .flitReceive k f => below 32 k && flitWf f
  | .resendTimeout k => below 32 k
  | .bamatWrite pkt | .bamatRead pkt | .bamatRdata pkt | .bamatAck pkt | .bamatSignal pkt | .bamatSreset pkt => bamatPktWf pkt
  | .noticeRing dim seg _ => below 5 dim && below 8 seg
  | .refuse pkt => bamatPktWf pkt
  | .tempoExchange k _ _ => below 32 k
  | .ethFrame k srcMac etherType vlan body =>
    below 32 k && below (2 ^ 48) srcMac && below 65536 etherType && below 65536 vlan && ethBodyWf body
  | .mirrorAdd q | .mirrorDel q | .proxyAdd q | .proxyDel q => below 4096 q
  | .perstN _ | .modResetN _ => true
  | .hotReset | .linkDown => true
  | .linkUp speed width => decide (3 ≤ speed) && decide (speed ≤ 6) && [1, 2, 4, 8, 16].contains width
  | .flrVf f => decide (1 ≤ f) && below 64 f
  | .flrPf | .vfEnableCleared => true
  | .bmeCleared f => below 64 f
  | .sqTail fn off size _ _ => below 64 fn && below 0x1000000 off && accessSize size
  | .cqHead fn off size _ => below 64 fn && below 0x1000000 off && accessSize size
  | .hifAdmqTail fn size _ _ => below 64 fn && accessSize size
  | .hifAdmqHead fn size _ | .hifAdmqCfg fn size _ | .hifHeartbeat fn size _ => below 64 fn && accessSize size
  | .heartbeatLate fn | .heartbeatTimeout fn => below 64 fn
  | .descriptorFetch q => below 4160 q
  | .nop q => below 4096 q
  | .ctxCreate q | .ctxDestroy q | .queueCreate q | .queueDestroy q | .queueAdopt q => below 4160 q
  | .memAlloc q | .memFree q | .syncAlloc q | .syncFree q | .syncOpSignal q | .syncOpWait q | .syncOpSreset q | .copy q =>
    below 4096 q
  | .copyDone q _ => below 4096 q
  | .descriptorTimeout q _ => below 4160 q
  | .resignQueue fn target | .resignContext fn target | .resignFunction fn target => below 64 fn && below 4096 target
  | .resignDevice fn | .resignDone fn => below 64 fn
  | .watchdogRestart code _ => decide (code.length ≤ 16777216)
  | .readback found => found.all (fun r => below 0x4000000 r.1)
  | .versionGet mb | .fwLoad mb | .svnCommit mb | .attest mb | .challenge mb | .respond mb | .lock mb | .jobOpen mb
  | .jobClose mb | .dump mb | .traceCfg mb | .schedCfg mb | .queueClass mb | .powerSet mb | .clusterFreqMax mb | .gpioSet mb
  | .gpioGet mb | .timerCfg mb => below 8 mb
  | .timerExpiry i => below 4 i
  | .z8Info mb | .z8Attest mb | .z8FwLoad mb | .z8CapSet mb | .z8PowerGet mb | .z8PrioSet mb | .z8AgingSet mb | .z8ClkSet mb
  | .z8Gate mb | .z8CluStatus mb => below 8 mb
  | .urgentWindow | .urgentSpent | .traceFull => true
  | .convPhaseFailed i => below 12 i
  | .ivrPhaseFailed c i => below 16 c && below 32 i
  | .ageStep c | .droopBoost c | .clockStretch c | .shuntClamp c => below 16 c
  | .slopeTokenReturn quad => below 4 quad
  | .powerSample _ _ => true
  | .cappingWindow clusterNj currents slots _ memNj =>
    decide (clusterNj.length = 16) && decide (currents.length = 16) && decide (memNj.length = 18) && slots.all (fun x => below 256 x.1)
  | .freqWindow => true
  | .sensorSample spot raw _ => spotWf spot && decide (raw.length = spotReadings spot)
  | .flowSample _ _ _ => true
  | .coolantWindow => true
  | .leak _ => true
  | .stopDone => true
  | .keepWarm c => below 16 c
  | .castled | .castleAbandoned | .inputGood => true
  | .inputLockout _ | .vinRange _ | .auxRange _ => true
  | .bistDone found untested => found.all defectWf && below 65536 untested
  | .pllLockLoss | .readyLate => true
  | .strapChanged slot => below 16 slot
  | .gpioEdge g _ => below 8 g
  | .i3cAddressed addr => below 128 addr
  | .i3cRequest _ => true
  | .mailboxDoorbell mb size _ _ => below 8 mb && accessSize size
  | .completionTimeout q _ => below 4160 q
  | .testAccessPort ir => below 256 ir
  | .tempoPps g => below 8 g
  | .auxiliaryPowerOn => true

end Sys2Proof
end

