-- ==== Sys2Proof/Safety.lean ====
section
/-! DEFINITION. The words in which statements about the block are made: memory in its canonical form, fuses and debug state in
their ranges, when a unit stands at an operation, and the states that the families' effects lead to. -/

namespace Sys2Proof.Machine

/-! ### Invariants -/

/-- A sparse memory in its canonical form: addresses strictly rising, no entry equal to what an unlisted byte reads as. -/
abbrev Memory.wf (m : List Host.Cell) : Prop := canonOk zeroByte m = true

/-- Every byte that `r` does not hold reads alike in two memories. -/
abbrev sameOutside (r : Nat → Prop) (m m' : List Host.Cell) : Prop :=
  ∀ a, ¬ r a → canonGet zeroByte m' a = canonGet zeroByte m a

/-- The fused counter never leaves 0 to 64 (R327), and the debug state is 0 LOCKED, 1 OBSERVE or 2 FULL, never above the highest
state reached since reset (R410, R412). -/
abbrev Trust.ok (t : Trust) : Prop := t.svn ≤ 64 ∧ t.debug ≤ t.highest ∧ t.highest ≤ 2

/-! ### Results -/

/-- The state with its device replaced. -/
def State.withDev (s : State) (d : Dev) : State := { s with dev := d }

/-- The state after tile `t` has finished the operation it stands at, with effect `g`. -/
def State.opDone (s : State) (t : Nat) (g : Tile → Tile) : State := s.withDev (s.dev.opDone t g)

/-! ### Tiles -/

/-- Tile `t` runs and stands at the operation with code `code` in slot `slot` of its bundle; no castling holds it. -/
abbrev Dev.standsAt (d : Dev) (t slot code : Nat) : Prop :=
  d.alive = true ∧ t < 256 ∧ (d.tile t).seq = .run ∧ (d.tile t).nextSlot = some slot ∧
    slotOp (d.tile t).bundle slot = code ∧ (d.castling t && (d.tile t).atBoundary) = false

/-- The word of the slot that tile `t` stands at. -/
def Dev.word (d : Dev) (t slot : Nat) : Nat := slotWord (d.tile t).bundle slot

/-- The value of VD after a lane-wise vector operation: lane i is `f` of the format and of lanes i of VA, VB and VC (R83). -/
def Dev.lanewise (d : Dev) (t : Nat) (f : Nat → Nat → Nat → Nat → Nat) : List F32 :=
  let w := d.word t 2
  let fmt := vFmt w
  ofLanes fmt (((lanesOf fmt ((d.tile t).vreg (vVa w))).zip
    ((lanesOf fmt ((d.tile t).vreg (vVb w))).zip (lanesOf fmt ((d.tile t).vreg (vVc w))))).map
      (fun e => f fmt e.1 e.2.1 e.2.2))

/-- The state after a vector operation whose VD becomes `v`. -/
def State.vectorGives (s : State) (t : Nat) (v : List F32) : State :=
  s.opDone t (fun x => { x with v := put (vVd (s.dev.word t 2)) v x.v })

/-! ### Synchronisation -/

/-- One choice for a tile's packet, another for that of every other agent. -/
def agentCase {α : Type} (a : SyncAgent) (f : Nat → α) (g : α) : α :=
  match a with
  | .tile t => f t
  | _ => g

/-! ### Descriptors -/

/-- The wait that a descriptor names does not hold it: it names none, or the value has come of an object that is no proxy (R310). -/
abbrev Dev.waitMet (d : Dev) (x : Desc) : Prop :=
  x.namedWait = none ∨ ∃ o thr window, x.namedWait = some (o, thr, window) ∧ (d.proxyOf o).isSome = false ∧ thr ≤ d.syncValue o ∧ x.typ ≠ 11

/-- No quiet period of its job holds a descriptor back: a collective alone is held (R315). -/
abbrev Dev.notQuiet (d : Dev) (x : Desc) : Prop := x.typ = 20 → d.quietNow (natAt x.table 0 2) = false

/-- Descriptor `x` at the head of queue `q` starts now, the device working and the firmware running, `e` being the device and `y` the
descriptor as its effect finds them: its wait has been released, or it has been dispatched, passes `check`, names no bad sync object
and no wait holds it; and no quiet period does (R304, R307, R310, R315). -/
abbrev Dev.startsNow (d : Dev) (q : Nat) (check : Dev → Nat → Desc → Checked) (e : Dev) (y : Desc) : Prop :=
  d.alive = true ∧ d.fwRuns = true ∧ ∃ x, (d.queue q).bind Queue.headDesc = some x ∧
    ((x.phase = .released ∧ d.notQuiet x ∧ e = d.markStart q x.n ∧ y = { x with phase := .running, start := d.now }) ∨
      (x.phase = .dispatched ∧ ∃ e' table g, check d q x = (e', .inr table) ∧
        g = e'.updDesc q x.n (fun z => { z with table := table }) ∧
        g.syncNamesBad q { x with table := table } = none ∧ g.waitMet { x with table := table } ∧
        g.notQuiet { x with table := table } ∧
        e = g.markStart q x.n ∧ y = { x with table := table, phase := .running, start := g.now }))

/-- The state after descriptor `y` of queue `q` has completed with OK and a result in device `d`, and the scheduling pass that
follows it (R305, R338). -/
def State.completes (s : State) (d : Dev) (q : Nat) (y : Desc) (result : Nat) : State :=
  s.withDev ((d.complete q y.n stOk result).pass)

/-! ### Packets -/

/-- What the packet `p` of a device that works answers in the row of operation `op`, `here` being what that operation does at its device
(R273, R276, R277): nothing where `p` is of another operation or an earlier packet of its order still waits; else it is taken out of the
packets that have arrived, and is discarded on a channel its operation may not use or at its 40th hop, served at its device, and
otherwise goes on with one hop more. -/
def Takes (p : BamatPkt) (op : Nat) (s : State) (here : Dev → Dev) (ans : Out) : Prop :=
  let e := s.dev.bamatHandled p
  (p.op ≠ op ∨ s.dev.bamatWaits p = true → ans = .next s) ∧
  (p.op = op → s.dev.bamatWaits p = false →
    (opVcOk p = false → ans = .next (s.withDev (e.discardPkt p))) ∧
    (opVcOk p = true → p.dstdev = e.selfDev → ans = .next (s.withDev (here e))) ∧
    (opVcOk p = true → p.dstdev ≠ e.selfDev → 40 ≤ p.hops + 1 → ans = .next (s.withDev (e.discardPkt p))) ∧
    (opVcOk p = true → p.dstdev ≠ e.selfDev → p.hops + 1 < 40 →
      ans = .next (s.withDev ((e.bamatQueue (e.cameIn p.srcdev) (min (272 + e.portToward p.srcdev) 303)
        { p with hops := p.hops + 1 }).pumpAll))))

/-! ### Mailboxes -/

/-- The firmware runs and has taken request `r` from mailbox `mb`. -/
abbrev Dev.serves (d : Dev) (mb : Nat) (r : MbReq) : Prop :=
  mb < 8 ∧ d.alive = true ∧ d.fwRuns = true ∧ (d.mbox mb).req = some r

/-- What `ans`, the row of the messages that `pick` names, answers for mailbox `mb` (R329 to R331): nothing where the firmware serves no
such message there; INVALID with the offset of LEN where the body is not `len` bytes long; INVALID with the offset of the first field
whose check in `checks` fails (offsets in the body, which begins at byte 16 of the message); otherwise the state `ok`. -/
def Answers (s : State) (mb : Nat) (pick : MbReq → Prop) (len : Nat) (checks : MbReq → List (Nat × Bool)) (ok : MbReq → State)
    (ans : Out) : Prop :=
  ((∀ r, s.dev.serves mb r → ¬ pick r) → ans = .next s) ∧
  ∀ r, s.dev.serves mb r → pick r →
    (r.body.length ≠ len → ans = .next (s.withDev (s.dev.mbAnswer mb r stInvalid (leBytes 4 8)))) ∧
    (∀ off, r.body.length = len → firstBad (checks r) = some off →
      ans = .next (s.withDev (s.dev.mbAnswer mb r stInvalid (leBytes 4 (16 + off))))) ∧
    (r.body.length = len → firstBad (checks r) = none → ans = .next (ok r))

end Sys2Proof.Machine
end

