-- ==== Sys2Proof/Certificates/Slice0/Obligations.lean ====
section
/-! DEFINITION. What is stated about the block for the provers, with the rules of the specification. -/

open Sys2Proof Sys2Proof.Machine


/-! ### The block as a whole -/

/-- A step with command `c` at the front of the queue is exec of `c` on the state with the rest of the queue (the block's own form
of "a step runs the decoded instruction"). -/
def Obligations.StepRunsFrontCommand : Prop :=
  ∀ (s : State) (c : Instr), step { s with pending := c :: s.pending } = exec c s

/-- With no command waiting, one step lets one nanosecond of tempo pass in a device that works and changes nothing in one that
does not; neither touches the fuses (the model's choice: log entry 1). -/
def Obligations.IdleStepTicks : Prop :=
  ∀ s : State, s.pending = [] →
    (s.dev.alive = true → step s = .next (s.withDev s.dev.idleTick)) ∧ (s.dev.alive = false → step s = .next s)

/-- What the machine holds at reset: STAGE ROM, MGT_FW_STAT ABSENT, PERSONA NONE and CFG_STATE UNCONFIGURED (R24, R399, R400), the
effective cap at 3,000 W and F at 0 (R373), no queue, no context, debug LOCKED (R412), every register at its reset value, and an empty
command queue. That memory which nothing has written reads 0 is the model's choice (log entry 4). -/
def Obligations.ResetState : Prop :=
  State.reset.pending = [] ∧ State.reset.dev.alive = true ∧ State.reset.dev.boot.stage = 0 ∧
  State.reset.dev.fwState = 0 ∧ State.reset.dev.persona = 0 ∧ State.reset.dev.cfgState = 0 ∧
  State.reset.dev.fCap = 0 ∧ State.reset.dev.fld R.PWR_CAP F.PWR_CAP_EFF_W = 3000 ∧ State.reset.trust.debug = 0 ∧ State.reset.dev.queues = [] ∧ State.reset.dev.ctxs = [] ∧
  (∀ o, State.reset.dev.reg o = regReset o) ∧ (∀ a, canonGet zeroByte State.reset.dev.mem.cells a = 0) ∧
  Memory.wf State.reset.dev.mem.cells ∧ Memory.wf State.reset.dev.host.mem

/-- The fuses and the debug state are in their ranges at reset (R327, R410, R412). -/
def Obligations.TrustOkAtReset : Prop := State.reset.trust.ok

/-- Every step keeps the fuses and the debug state in their ranges: the fused counter stays between 0 and 64 (R327), the debug
state stays LOCKED, OBSERVE or FULL and never passes the highest state reached since reset (R410, R412, R413). -/
def Obligations.EveryStepKeepsTrustOk : Prop :=
  ∀ s t : State, s.trust.ok → step s = .next t → t.trust.ok

/-- R327: the fused counter runs from 0 to 64 and never falls; SVN_COMMIT raises it to the SVN of the running image with
EVT 0x0F12; nothing undoes it and nothing else raises it. A SVN_COMMIT that would not raise it is answered OK and changes nothing else, as
is said of its empty body (`Answers`). -/
def Obligations.FusedCounterNeverFalls : Prop :=
  (∀ (s t : State), s.trust.ok → step s = .next t → s.trust.svn ≤ t.trust.svn ∧ t.trust.svn ≤ 64) ∧
  (∀ (c : Instr) (s t : State), (∀ mb, c ≠ .svnCommit mb) → exec c s = .next t → t.trust.svn = s.trust.svn) ∧
  (∀ (s : State) (mb : Nat) (r : MbReq), s.dev.serves mb r → r.opcode = 3 → r.body = [] →
    s.trust.svn < s.dev.fw.svn → s.dev.fw.svn ≤ 64 →
    exec (.svnCommit mb) s = .next { s with
      trust := { s.trust with svn := s.dev.fw.svn }
      dev := (s.dev.raise { code := 0x0F12, args := [s.dev.fw.svn] }).mbAnswer mb r stOk [] }) ∧
  (∀ (s : State) (mb : Nat), mb < 8 →
    let raised : Trust := { s.trust with svn := s.dev.fw.svn }
    Answers s mb (fun r => r.opcode = 3) 0 (fun _ => [])
      (fun r => if s.trust.svn < s.dev.fw.svn ∧ s.dev.fw.svn ≤ 64
        then { s with
          trust := raised
          dev := (s.dev.raise { code := 0x0F12, args := [s.dev.fw.svn] }).mbAnswer mb r stOk [] }
        else s.withDev (s.dev.mbAnswer mb r stOk []))
      (exec (.svnCommit mb) s))

/-- Only SVN_COMMIT, the debug unlock (CHALLENGE, RESPOND, LOCK), the test access port, the two reset inputs, input-good, the
input lockout and the auxiliary supply reach the fuses and the debug unlock: every other command leaves them as they are. -/
def Obligations.OnlyTrustCommandsReachTrust : Prop :=
  ∀ (c : Instr) (s t : State),
    (∀ mb, c ≠ .svnCommit mb ∧ c ≠ .challenge mb ∧ c ≠ .respond mb ∧ c ≠ .lock mb) → (∀ ir, c ≠ .testAccessPort ir) →
    (∀ l, c ≠ .perstN l ∧ c ≠ .modResetN l) → c ≠ .inputGood → (∀ v, c ≠ .inputLockout v) → c ≠ .auxiliaryPowerOn →
    exec c s = .next t → t.trust = s.trust

/-- A command whose operands are in range always answers a next state: no data ends a run.
No command is refused: every row of the table has its meaning.
No command touches the queue of the commands that wait behind it. -/
def Obligations.CommandsComplete : Prop :=
  (∀ (c : Instr) (s : State), wf c = true → ∃ t, exec c s = .next t) ∧
  (∀ (c : Instr) (s : State) (r : Refusal), exec c s ≠ .refused r) ∧
  (∀ (c : Instr) (s t : State), exec c s = .next t → t.pending = s.pending)

/-- A device in reset, without input power or dark does nothing: beside the pins, the supplies, the straps, the I3C target and
the test access port, every command leaves the whole state as it is (R391, R398, R417). -/
def Obligations.DeadDeviceDoesNothing : Prop :=
  ∀ (c : Instr) (s t : State), s.dev.alive = false →
    (∀ l, c ≠ .perstN l ∧ c ≠ .modResetN l) → c ≠ .inputGood → (∀ v, c ≠ .inputLockout v ∧ c ≠ .vinRange v ∧ c ≠ .auxRange v) →
    c ≠ .auxiliaryPowerOn → (∀ n, c ≠ .strapChanged n ∧ c ≠ .i3cAddressed n) → (∀ g l, c ≠ .gpioEdge g l) →
    (∀ r, c ≠ .i3cRequest r) → exec c s = .next t → t = s

/-! ### Commands that name a unit the device does not have -/

/-- A command whose first operand names a tile, queue, mailbox, function, spot or other unit that the device does not have stops with
the fault that names the unit, in every state: the model's choice, since the spec gives such a command no meaning (log entry 2). -/
def Obligations.UnitsBeyondTheDeviceStop : Prop :=
  ∀ (s : State) (n : Nat),
    let stops := fun (kind : String) (limit : Nat) (cs : List (Nat → Instr)) =>
      limit ≤ n → ∀ c ∈ cs, exec (c n) s = .fault (.noSuchUnit kind n)
    stops "tile" 256 [
      .issuel, .drainv, .drains, .vopAdd, .vopSub, .vopMul, .vopFma, .vopMin, .vopMax, .vopAbs, .vopNeg, .vopCmp, .vopSel,
      .vopCvt, .vopSqrt, .vopRcp, .vopRsqrt, .vopExp2, .vopLog2, .vopDiv, .vopExp, .vopLog, .vopTanh, .vopSigmoid, .vopSilu,
      .vopGelu, .vopSubmax, .vopScaleinv, .vopMaxred, .vopSumred, .vopMov, .vopSplat, .ldc, .mcopyIn, .latfill, .stv, .stg,
      .sendv, .recvv, .recv, .gaddi, .gadd, .gshl, .loop, .br, .bne, .ginfo, .signal, .wait, .sreset, .halt, .streamTimeout] ∧
    stops "queue" 4096 [
      .pipeline, .pimAdd, .pimMul, .pimMad, .pimRelu, .pimGelu, .pimSilu, .pimClamp, .pool, .seqOpen, .seqClose, .poolAdd,
      .append, .fork, .truncate, .fetch, .push, .sample, .gambit, .update, .audit, .reduceScatter, .allGather, .allReduce,
      .broadcast, .allToAll, .mirrorAdd, .mirrorDel, .proxyAdd, .proxyDel, .nop, .memAlloc, .memFree, .syncAlloc, .syncFree,
      .syncOpSignal, .syncOpWait, .syncOpSreset, .copy] ∧
    stops "mailbox" 8 [
      .devConfig, .devConfigGet, .versionGet, .fwLoad, .svnCommit, .attest, .challenge, .respond, .lock, .jobOpen, .jobClose,
      .dump, .traceCfg, .schedCfg, .queueClass, .powerSet, .clusterFreqMax, .gpioSet, .gpioGet, .timerCfg, .z8Info, .z8Attest,
      .z8FwLoad, .z8CapSet, .z8PowerGet, .z8PrioSet, .z8AgingSet, .z8ClkSet, .z8Gate, .z8CluStatus] ∧
    stops "cluster" 16 [
      .throttleBubble, .ageStep, .droopBoost, .clockStretch, .shuntClamp, .keepWarm] ∧
    stops "function" 64 [
      .flrVf, .bmeCleared, .heartbeatLate, .heartbeatTimeout, .resignDevice, .resignDone] ∧
    stops "queue" 4160 [
      .descriptorFetch, .ctxCreate, .ctxDestroy, .queueCreate, .queueDestroy, .queueAdopt] ∧
    stops "engine" 16 [
      .updateUnit, .konaocPhase] ∧
    stops "pipeline" 4096 [
      .pipeBound, .pipeDone] ∧
    stops "sampler" 16 [
      .sampleRow, .gambitDecision] ∧
    stops "GPIO" 8 [
      .tempoPps] ∧
    stops "I3C address" 128 [
      .i3cAddressed] ∧
    stops "converter phase" 12 [
      .convPhaseFailed] ∧
    stops "port" 32 [
      .resendTimeout] ∧
    stops "quadrant" 4 [
      .slopeTokenReturn] ∧
    stops "router" 320 [
      .epHoldExpiry] ∧
    stops "slot" 16 [
      .strapChanged] ∧
    stops "stack" 16 [
      .pimCmdDone] ∧
    stops "timer" 4 [
      .timerExpiry] ∧
    (∀ (err : Upsets) (b : Bool), stops "tile" 256 [(.loadw · err), (.loadwt · err), (.issue · err), (.ldv · err), (.ldg · err),
      (.mcopyOut · err), (.send · err), (.rampStep · b), (.refreshBoundary · [])]) ∧
    (∀ (a b c : Nat) (w : Word) (hw : HostWrites), stops "function" 64 [(.registerWrite · a b w), (.rcRead · a b), (.malformedRead · a b),
      (.sqTail · a b w hw), (.cqHead · a b w), (.hifAdmqTail · a w hw), (.hifAdmqHead · a w), (.hifAdmqCfg · a w), (.hifHeartbeat · a w),
      (.resignQueue · a), (.resignContext · a), (.resignFunction · a)] ∧
      stops "engine" 16 [(.konaocAdd · a b c), (.konaocSub · a b c), (.konaocMul · a b c), (.konaocFma · a b c c), (.konaocDiv · a b c),
        (.konaocSqrt · a b), (.konaocRsqrt · a b), (.konaocMin · a b c), (.konaocMax · a b c), (.konaocAbs · a b), (.konaocNeg · a b),
        (.konaocSign · a b), (.konaocCmplt · a b c), (.konaocSel · a b c c), (.konaocMov · a b), (.konaocBsum · a b), (.konaocBmax · a b)] ∧
      stops "mailbox" 8 [(.mailboxDoorbell · a w hw)] ∧ stops "queue" 4096 [(.copyDone · a)] ∧
      stops "queue" 4160 [(.descriptorTimeout · a), (.completionTimeout · (some a)), (.completionTimeout · none)] ∧
      stops "stack" 16 [(.sequenceStart · a b), (.sequenceEnd · a)] ∧ stops "sampler" 16 [(.smpTimeout · a)] ∧
      stops "stream" 4096 [(.stream · a b), (.credit · a b)] ∧ stops "cluster" 16 [(.ivrPhaseFailed · a)] ∧
      stops "port" 32 [(.laneDropped · a)]) ∧
    (∀ (w : Consumer) (bs : List Byte) (e : List (Nat × Byte)) (b : Bool) (p : NocPkt) (x y : Nat),
      stops "granule" (2 ^ 40) [(.memRead · w e e), (.memWrite · bs w), .ceWriteback] ∧ stops "controller" 272 [(.scrub · e e)] ∧
      stops "router" 320 [(.epArrival · ⟨x, b⟩ y p), (.flitCrcFail · x b)] ∧ stops "GPIO" 8 [(.gpioEdge · b)]) ∧
    (∀ (m : BitVec 8) (p : PeerId) (f : Flit) (ts : Stamps) (o : Int) (x y z : Nat) (fs : EthBody) (b : Bool),
      stops "port" 32 [(.trainingAttempt · m), (.ident · p), (.flitReceive · f), (.tempoExchange · ts o), (.ethFrame · x y z fs)] ∧
      stops "dimension" 5 [(.noticeRing · x b)]) ∧
    (∀ (a : SyncAgent) (o : SyncOp) (v : Nat) (w : Waiter), stops "sync object" 16384 [(.syncPacket a o · v), (.syncTimeout · w)]) ∧
    (∀ (spot : Spot) (raw : List (Option Int)) (gr : List Nat), spotExists spot = false →
      exec (.sensorSample spot raw gr) s = .fault (.noSuchUnit "spot" (spotUnit spot)))

/-! ### Tiles: the sequencer, the vector engine, loads and stores, the array, streams, sync (chapters 03 and 04) -/

/-- The operation of a slot that has completed changes its own tile only, unless the tile was halting: the sequencer moves on to
the next operation, and memory, registers, the network and every other tile stay as they are (R79). -/
def Obligations.OperationChangesOnlyItsTile : Prop :=
  ∀ (d : Dev) (t : Nat) (g : Tile → Tile), (g (d.tile t)).halting = false →
    d.opDone t g = d.updTile t (fun x => (g x).advance) ∧
    (∀ u, u ≠ t → (d.opDone t g).tile u = d.tile u) ∧
    (∀ o, (d.opDone t g).reg o = d.reg o) ∧ (d.opDone t g).mem = d.mem ∧ (d.opDone t g).streams = d.streams

/-- Moving on to the next operation keeps what the tile holds: SRAM, vector registers, accumulators, weight sets, port buffers and
tables; the G registers change only by the writes that the bundle's end applies (R79). -/
def Obligations.AdvanceKeepsTileData : Prop :=
  ∀ x : Tile, x.advance.sram = x.sram ∧ x.advance.v = x.v ∧ x.advance.acc = x.acc ∧ x.advance.setA = x.setA ∧
    x.advance.setB = x.setB ∧ x.advance.latbuf = x.latbuf ∧ x.advance.inbox = x.inbox ∧ x.advance.opds = x.opds ∧
    x.advance.code = x.code ∧ x.advance.pipe = x.pipe ∧ (x.gwrites = [] → x.advance.g = x.g)

/-- The vector operations that need no approximation: VD holds lane by lane the sum, difference, product, the product plus the
third operand, the smaller, the larger, the absolute value, the negation, the comparison, the selected or the moved lane; every
other vector register and all else of the tile stay (R83, R52). -/
def Obligations.VectorExactOperations : Prop :=
  ∀ (s : State) (t : Nat),
    let fp1 := fun (f : Fp → Fp) (fmt a _b _c : Nat) => laneRound fmt (f (fpDecode fmt a))
    let fp2 := fun (f : Fp → Fp → Fp) (fmt a b _c : Nat) => laneRound fmt (f (fpDecode fmt a) (fpDecode fmt b))
    let w := s.dev.word t 2
    (s.dev.standsAt t 2 1 → exec (.vopAdd t) s = .next (s.vectorGives t (s.dev.lanewise t (fp2 Fp.add)))) ∧
    (s.dev.standsAt t 2 2 → exec (.vopSub t) s = .next (s.vectorGives t (s.dev.lanewise t (fp2 (fun a b => a.add b.negate))))) ∧
    (s.dev.standsAt t 2 3 → exec (.vopMul t) s = .next (s.vectorGives t (s.dev.lanewise t (fp2 Fp.mul)))) ∧
    (s.dev.standsAt t 2 4 → exec (.vopFma t) s = .next (s.vectorGives t (s.dev.lanewise t (fun fmt a b c =>
      laneRound fmt (((fpDecode fmt a).mul (fpDecode fmt b)).add (fpDecode fmt c)))))) ∧
    (s.dev.standsAt t 2 5 → exec (.vopMin t) s = .next (s.vectorGives t (s.dev.lanewise t (fp2 fpMin)))) ∧
    (s.dev.standsAt t 2 6 → exec (.vopMax t) s = .next (s.vectorGives t (s.dev.lanewise t (fp2 fpMax)))) ∧
    (s.dev.standsAt t 2 7 → exec (.vopAbs t) s = .next (s.vectorGives t (s.dev.lanewise t (fp1 Fp.abs)))) ∧
    (s.dev.standsAt t 2 8 → exec (.vopNeg t) s = .next (s.vectorGives t (s.dev.lanewise t (fp1 Fp.negate)))) ∧
    (s.dev.standsAt t 2 9 → exec (.vopCmp t) s = .next (s.vectorGives t (s.dev.lanewise t (fun fmt a b _ =>
      if cmpLane fmt (vVc w) a b then 2 ^ fmtBits fmt - 1 else 0)))) ∧
    (s.dev.standsAt t 2 10 → exec (.vopSel t) s = .next (s.vectorGives t (s.dev.lanewise t (fun _ a b c => if c ≠ 0 then a else b)))) ∧
    (s.dev.standsAt t 2 28 → exec (.vopMov t) s = .next (s.vectorGives t (s.dev.lanewise t (fun _ a _ _ => a))))

/-- The vector operations computed through FP32, by a correctly rounded root or by an approximation that the free choice of
`boundedPick` keeps within the operation's bound: VD holds lane by lane the result for the FP32 image of the lane, in the format; all
else of the tile stays (R50, R73, R75, R83).
The vector operations that do not work lane by lane: VOP_CVT between FP32 and BF16, the maximum and the sum over the usable
lanes put in every lane (the sum by a tree of 8 levels, unusable lanes adding +0), and VOP_SPLAT of the low word of a G register
(R83, R53). -/
def Obligations.VectorApproximateAndConvert : Prop :=
  (∀ (s : State) (t : Nat),
    let gives := fun (f : Nat → Nat → Nat → Nat) => s.vectorGives t (s.dev.lanewise t (fun fmt a b c => viaF32 f (s.dev.word t 2) fmt a b c))
    (s.dev.standsAt t 2 12 → exec (.vopSqrt t) s = .next (gives (fun _ a _ => f32Bits (fpDecode 0 a).sqrt))) ∧
    (s.dev.standsAt t 2 13 → exec (.vopRcp t) s = .next (gives (fun fmt a _ => rcpCode fmt a))) ∧
    (s.dev.standsAt t 2 14 → exec (.vopRsqrt t) s = .next (gives (fun fmt a _ => rsqrtCode fmt a))) ∧
    (s.dev.standsAt t 2 15 → exec (.vopExp2 t) s = .next (gives (fun fmt a _ => boundedPick fmt 15 a 0 1 noAbs (refExp true (fpDecode 0 a))))) ∧
    (s.dev.standsAt t 2 16 → exec (.vopLog2 t) s = .next (gives (fun fmt a _ => boundedPick fmt 16 a 0 1 (-22) (refLog true (fpDecode 0 a))))) ∧
    (s.dev.standsAt t 2 17 → exec (.vopDiv t) s = .next (gives (fun fmt a b =>
      boundedPick fmt 17 a b 2 noAbs (refDiv (fpDecode 0 a) (fpDecode 0 b))))) ∧
    (s.dev.standsAt t 2 18 → exec (.vopExp t) s = .next (gives (fun fmt a _ => boundedPick fmt 18 a 0 2 noAbs (refExp false (fpDecode 0 a))))) ∧
    (s.dev.standsAt t 2 19 → exec (.vopLog t) s = .next (gives (fun fmt a _ => boundedPick fmt 19 a 0 2 (-22) (refLog false (fpDecode 0 a))))) ∧
    (s.dev.standsAt t 2 20 → exec (.vopTanh t) s = .next (gives (fun fmt a _ => boundedPick fmt 20 a 0 2 (-24) (refTanh (fpDecode 0 a))))) ∧
    (s.dev.standsAt t 2 21 → exec (.vopSigmoid t) s = .next (gives (fun fmt a _ =>
      boundedPick fmt 21 a 0 2 (-24) (refSigmoid (fpDecode 0 a))))) ∧
    (s.dev.standsAt t 2 22 → exec (.vopSilu t) s = .next (gives (fun fmt a _ =>
      boundedPick fmt 22 a 0 3 (-24) (refGate fixSilu (fpDecode 0 a))))) ∧
    (s.dev.standsAt t 2 23 → exec (.vopGelu t) s = .next (gives (fun fmt a _ =>
      boundedPick fmt 23 a 0 4 (-24) (refGate fixGelu (fpDecode 0 a))))) ∧
    (s.dev.standsAt t 2 24 → exec (.vopSubmax t) s = .next (gives (fun _ => submaxCode))) ∧
    (s.dev.standsAt t 2 25 → exec (.vopScaleinv t) s = .next (gives scaleinvCode))) ∧
  (∀ (s : State) (t : Nat),
    let d := s.dev
    let x := d.tile t
    let w := d.word t 2
    let fmt := vFmt w
    let lanes := (lanesOf fmt (x.vreg (vVa w))).take (usableLanes fmt (d.width t))
    let n := if fmt = 0 then 128 else 256
    let sat := d.ctxSat (d.tileCtx t)
    (d.standsAt t 2 11 → fmt = 1 → exec (.vopCvt t) s = .next (s.vectorGives t
      (ofLanes 1 (((x.vreg (vVa w)).map (fun a => (convert 1 sat none (ofF32 a)).1)) ++ List.replicate 128 0)))) ∧
    (d.standsAt t 2 11 → fmt ≠ 1 → exec (.vopCvt t) s = .next (s.vectorGives t
      (((lanesOf 1 (x.vreg (vVa w))).take 128).map (fun c => toF32 (fpDecode 1 c))))) ∧
    (d.standsAt t 2 26 → exec (.vopMaxred t) s = .next (s.vectorGives t
      (ofLanes fmt (List.replicate n (laneRound fmt ((lanes.map (fpDecode fmt)).foldl fpMax (.inf true))))))) ∧
    (d.standsAt t 2 27 → exec (.vopSumred t) s = .next (s.vectorGives t
      (ofLanes fmt (List.replicate n (laneRound fmt (ofF32 (treeFold 8
        ((lanes.map (fun c => toF32 (fpDecode fmt c))) ++ List.replicate (n - lanes.length) (0 : F32))))))))) ∧
    (d.standsAt t 2 29 → fmt = 0 → exec (.vopSplat t) s = .next (s.vectorGives t
      (List.replicate 128 (BitVec.ofNat 32 ((x.reg (vVa w)).toNat % 2 ^ 32))))) ∧
    (d.standsAt t 2 29 → fmt ≠ 0 → exec (.vopSplat t) s = .next (s.vectorGives t
      (ofLanes 1 (List.replicate 256 (convert 1 sat none (fpDecode 0 ((x.reg (vVa w)).toNat % 2 ^ 32))).1)))))

/-- Loads and stores complete (R82 to R86), for every format, with and without scales: when the operand's format and tensor scale are
legal, its ranges are inside SRAM or the context's extents and every granule read can be corrected, LDV fills its register with the
decoded row (BF16 without a scale as its codes), LDG and LDC leave their value for the bundle's end, MCOPY_IN and MCOPY_OUT copy every
row, LATFILL appends its rows to the latent buffer, and STV and STG write their bytes. The bytes read and the devices after the reads
and writes are named by the shared access functions. -/
def Obligations.LoadsAndStores : Prop :=
  ∀ (s : State) (t : Nat) (err : Upsets) (e e' : Dev),
    let d := s.dev
    let x := d.tile t
    let g := d.upsets t err
    let ld := d.word t 0
    let st := d.word t 3
    let o := x.opd (lOpd ld)
    let n := vectorCount o.fmt
    let so := x.opd (lOpd st)
    let row := fun (bs : List Byte) (sc : List Nat) =>
      let codes := unpackCodes o.fmt n bs
      if o.fmt ≠ 1 then (rowValues o codes sc).map toF32
      else if o.hasT then execLdv.runsOf2 ((rowValues o codes sc).map (fun y => (convert 1 false none y).1))
      else execLdv.runsOf2 codes
    (∀ bs sc, d.standsAt t 0 1 → o.fault = none → g.runRead t o.mem (x.rowAddr o 0) (packedBytes o.fmt n) = (e, .inr bs) →
      e.rowScales t x o n = (e', .inr sc) →
      exec (.ldv t err) s = .next (s.withDev (e'.opDone t (fun z => { z with v := put (lReg ld) (row bs sc) z.v })))) ∧
    (∀ bs, d.standsAt t 0 2 → o.codeFault = none → g.runRead t o.mem (x.rowAddr o 0) 8 = (e, .inr bs) →
      exec (.ldg t err) s = .next (s.withDev (e.opDone t (fun z => z.later (lReg ld) (BitVec.ofNat 64 (leNat bs)))))) ∧
    (d.standsAt t 0 3 → exec (.ldc t) s = .next (s.opDone t (fun z => z.later (lReg ld) (x.consts.getD (lOpd ld) 0)))) ∧
    (∀ rows, d.standsAt t 0 4 → o.codeFault = none → d.runsOk t true o.rowBytes (x.memRows o) = none →
      d.runsOk t false o.rowBytes (x.packedRows o) = none → d.runsRead t true o.rowBytes (x.memRows o) = (e, .inr rows) →
      e.copyWrite t false ((x.packedRows o).zip rows) = (e', none) →
      exec (.mcopyIn t) s = .next (s.withDev (e'.opDone t id))) ∧
    (∀ rows, d.standsAt t 0 5 → o.codeFault = none → g.runsOk t false o.rowBytes (x.packedRows o) = none →
      g.runsOk t true o.rowBytes (x.memRows o) = none → g.runsRead t false o.rowBytes (x.packedRows o) = (e, .inr rows) →
      e.copyWrite t true ((x.memRows o).zip rows) = (e', none) →
      exec (.mcopyOut t err) s = .next (s.withDev (e'.opDone t id))) ∧
    (∀ rows, d.standsAt t 0 6 → o.codeFault = none → d.runsOk t true 64 (x.memRows o) = none →
      d.runsRead t true 64 (x.memRows o) = (e, .inr rows) →
      exec (.latfill t) s = .next (s.withDev (e.opDone t (fun z => { z with
        latbuf := (z.latbuf ++ z.latwait ++ rows).take 64, latwait := (z.latbuf ++ z.latwait ++ rows).drop 64 })))) ∧
    (∀ sc bs flags, d.standsAt t 3 1 → so.fault = none →
      let vs := (storeValues so.fmt ((look (lReg st) x.v).getD (List.replicate 128 0))).map (fun v =>
        if so.hasT then ofF32 (toF32 (v.mul (ofF32 (f32Div f32One so.tscale)))) else v)
      let at_ := x.scaleAddr so vs.length 0
      storeRow (d.storeRule (d.tileCtx t) so) so (x.srIndex so vs.length 0) vs = (sc, bs, flags) →
      d.runsOk t so.mem bs.length [x.rowAddr so 0] = none → d.runsOk t false sc.length (if sc.isEmpty then [] else [at_]) = none →
      d.runWrite t so.mem (x.rowAddr so 0) bs = (e, none) →
      e.runsWrite t false (if sc.isEmpty then [] else [(at_, sc)]) = (e', none) →
      exec (.stv t) s = .next (s.withDev ((e'.tileFlags t flags).opDone t id))) ∧
    (d.standsAt t 3 2 → so.codeFault = none → d.runWrite t so.mem (x.rowAddr so 0) (leBytes 8 (x.reg (lReg st)).toNat) = (e, none) →
      exec (.stg t) s = .next (s.withDev (e.opDone t id)))

/-- Where a load or a store stops the program (R33, R41, R86): a reserved format code stops every one of them with EVT 0x0141, and a
tensor scale that is not legal stops LDV and STV with EVT 0x0140; a read or write that fails stops LDG, LDV and STG with its cause,
which is EVT 0x0207 outside tile SRAM and EVT 0x0209 outside the extents of the context. -/
def Obligations.LoadsAndStoresStop : Prop :=
  (∀ (s : State) (t : Nat) (err : Upsets) (w : Stop) (e : Dev),
    let d := s.dev
    let x := d.tile t
    let g := d.upsets t err
    let o := x.opd (lOpd (d.word t 0))
    let so := x.opd (lOpd (d.word t 3))
    let stops := fun (f : Dev) => Host.Outcome.next (s.withDev (f.tileStop t w))
    (o.codeFault = some w →
      (d.standsAt t 0 2 → exec (.ldg t err) s = stops g) ∧ (d.standsAt t 0 4 → exec (.mcopyIn t) s = stops d) ∧
      (d.standsAt t 0 5 → exec (.mcopyOut t err) s = stops g) ∧ (d.standsAt t 0 6 → exec (.latfill t) s = stops d)) ∧
    (o.fault = some w → d.standsAt t 0 1 → exec (.ldv t err) s = stops g) ∧
    (so.fault = some w → d.standsAt t 3 1 → exec (.stv t) s = stops d) ∧
    (so.codeFault = some w → d.standsAt t 3 2 → exec (.stg t) s = stops d) ∧
    (o.codeFault = none → g.runRead t o.mem (x.rowAddr o 0) 8 = (e, .inl w) → d.standsAt t 0 2 → exec (.ldg t err) s = stops e) ∧
    (o.fault = none → g.runRead t o.mem (x.rowAddr o 0) (packedBytes o.fmt (vectorCount o.fmt)) = (e, .inl w) → d.standsAt t 0 1 →
      exec (.ldv t err) s = stops e) ∧
    (so.codeFault = none → d.runWrite t so.mem (x.rowAddr so 0) (leBytes 8 (x.reg (lReg (d.word t 3))).toNat) = (e, some w) →
      d.standsAt t 3 2 → exec (.stg t) s = stops e)) ∧
  (∀ o : Operand, fmtOk o.fmt = false → o.codeFault = some (.fault 0x0141) ∧ o.fault = some (.fault 0x0141)) ∧
  (∀ o : Operand, fmtOk o.fmt = true → o.hasT = true → tscaleOk o.tscale = false → o.fault = some (.fault 0x0140)) ∧
  (∀ (d : Dev) (t a len : Nat) (bs : List Byte),
    (sramSize < a + len → d.runRead t false a len = (d, .inl (.fault 0x0207))) ∧
    (sramSize < a + bs.length → d.runWrite t false a bs = (d, some (.fault 0x0207))) ∧
    (d.owns (d.tileCtx t) a len = false → d.runRead t true a len = (d, .inl (.fault 0x0209))) ∧
    (d.owns (d.tileCtx t) a bs.length = false → d.runWrite t true a bs = (d, some (.fault 0x0209))))

/-- The array operations complete (R56 to R60, R67, R184), for every format, with and without block scales: where the operand is legal
and its reads find no uncorrectable error, a weight load fills the named set with the format, scale, codes and block scales of its rows
(LOADWT with the rows transposed); an issue adds the row products of its vectors to the named entries, ISSUEL from the oldest slots of
the latent buffer, with the bias rows when bit 0 of G29 asks for them; DRAINV puts an entry's usable columns, with +0 beyond them, into
a vector register; DRAINS writes the converted rows, and with block scales their scale bytes, to SRAM.
A step of the activity ramp (R61 to R63): a tile at level 0 stays; at any other level a running tile that is told ready goes up by one,
at most to 8, and any other goes down by one; the shadow issues of the step are counted, and at level 0 credits and slots are gone. -/
def Obligations.ArrayOperations : Prop :=
  (∀ (s : State) (t : Nat) (err : Upsets) (e e' : Dev),
    let d := s.dev
    let g := d.upsets t err
    let x := d.tile t
    let w := d.word t 1
    let o := x.opd (aOpd w)
    let base := x.rowAddr o 0
    let set := x.wset (aWset w)
    let k := min (rateK o.fmt) (rateK set.fmt)
    let wd := d.width t
    let filled := fun (f : Dev) (mark : Nat) (rows : List (List Nat)) (sc : List (List Nat)) =>
      s.withDev (f.opDone t (fun z => { z with loading := some (mark, f.now + f.arrayCycles t 64) }.setWset (aWset w)
        { loaded := true, fmt := o.fmt, tscale := o.scale, bscaled := o.blocks, rows := rows, scales := sc }))
    (∀ rows sc, d.standsAt t 1 1 → o.fault = none → base % 128 = 0 → strideOk o.fmt o.stride = true →
      let addrs := (List.range (rateK o.fmt)).map (straightRow o.fmt base o.stride)
      g.runsOk t false (rowBytesOf o.fmt) addrs = none → g.runsRead t false (rowBytesOf o.fmt) addrs = (e, .inr rows) →
      e.loadScales t x o true = (e', .inr sc) →
      exec (.loadw t err) s = .next (filled e' 1 (rows.map (unpackCodes o.fmt 128)) sc)) ∧
    (∀ bs sc, d.standsAt t 1 2 → o.fault = none → base % 128 = 0 →
      let rb := rateK o.fmt * fmtBits o.fmt / 8
      g.sramRead t base (128 * rb) = (e, .inr bs) → e.loadScales t x o false = (e', .inr sc) →
      exec (.loadwt t err) s = .next (filled e' 2
        (columnsOf (rateK o.fmt) ((runsOf rb 128 bs).map (unpackCodes o.fmt (rateK o.fmt)))) sc)) ∧
    (∀ m rows sc, d.standsAt t 1 3 → x.issueCheck w = .inr m → g.runsOk t false (packedBytes o.fmt k) (x.rowAddrs o m) = none →
      g.runsRead t false (packedBytes o.fmt k) (x.rowAddrs o m) = (e, .inr rows) → e.issueScales t x o k m = (e', .inr sc) →
      exec (.issue t err) s = .next (s.withDev (e'.issueAll t w k x o false (rows.map (unpackCodes o.fmt k)) sc []))) ∧
    (∀ m bias, d.standsAt t 1 4 → x.issueCheck w = .inr m → m ≤ (x.latbuf ++ x.latwait).length →
      let biased := aClr w && (x.reg 29).getLsbD 0
      (biased && biasBad (x.reg 29).toNat) = false → (if biased then d.biasRows t x m else (d, .inr [])) = (e, .inr bias) →
      let slots := (x.latbuf ++ x.latwait).take m
      exec (.issuel t) s = .next (s.withDev ((e.setFld (R.TIL_ARRAY_STAT t) F.TIL_ARRAY_STAT_LATENT 0).issueAll t w k x o true
        (slots.map (unpackCodes o.fmt k)) (slots.map (latentScales o k)) bias))) ∧
    (d.standsAt t 1 5 → exec (.drainv t) s = .next (s.opDone t (fun z => { z with
      v := put (aCreg w) ((x.entry (aEnt w)).cols.take wd ++ List.replicate (128 - wd) (0 : F32)) z.v }))) ∧
    (∀ m, d.standsAt t 1 6 → x.count w = some m → o.fault = none → (∀ i, i < m → (x.entry (aEnt w + i)).latent = false) →
      let rows := (List.range m).map (fun r => storeRow (d.storeRule (d.tileCtx t) o) o (x.srIndex o wd r)
        (((x.entry (aEnt w + r)).cols.take wd).map (fun c => outValue o (drainValue (x.entry (aEnt w + r)) c))))
      let writes := (List.range m).zipWith (fun r p => (x.rowAddr o r, p.2.1)) rows ++
        (if o.blocks then (List.range m).zipWith (fun r p => (x.scaleAddr o wd r, p.1)) rows else [])
      (∀ p ∈ writes, sramIn p.1 p.2.length = true) → d.runsWrite t false writes = (e, none) →
      exec (.drains t) s = .next (s.withDev ((e.tileFlags t (rows.foldl (fun f p => f ||| p.2.2) 0)).opDone t id)))) ∧
  (∀ (s : State) (t : Nat) (ready : Bool), t < 256 → s.dev.alive = true →
    let d := s.dev
    let l := d.fld (R.TIL_ARRAY_STAT t) F.TIL_ARRAY_STAT_LEVEL
    let p := if d.fld (R.TIL_ARRAY_STAT t) F.TIL_ARRAY_STAT_RAMP_SHORT = 1 then 2 else 4
    let next := if ready = true ∧ d.fld (R.TIL_STATE t) F.TIL_STATE_STATE = 2 then min 8 (l + 1) else l - 1
    (l = 0 → exec (.rampStep t ready) s = .next s) ∧
    (∀ c owed shadow, l ≠ 0 → rampCycles l p ((d.tile t).credits, (d.tile t).slots, 0) = (c, owed, shadow) →
      exec (.rampStep t ready) s = .next (s.withDev
        ((((d.wrapFld (R.TIL_SHADOW_CNT t) F.TIL_SHADOW_CNT_COUNT shadow).setFld (R.TIL_ARRAY_STAT t) F.TIL_ARRAY_STAT_LEVEL
          next).rampPeriod t).updTile t (fun x =>
            { x with credits := if next = 0 then 0 else c, slots := if next = 0 then 0 else owed })))))

/-- The stream slot completes (R90 to R92): a SENDV or SEND on a port with credit for the message posts it (the 512 bytes of a vector
register, or the operand's rows) and completes; without credit the tile waits at its port. A RECVV or RECV whose next message is there
and has the size asked for takes it, gives its lines back and completes; it waits where none is there, and one of another size stops
the program with EVT 0x0205. The operand of SEND and RECV has a legal format and rows that can be reached.
On the way (R90 to R93): CREDIT gives a producer back the lines that its consumer freed and lets a send that waited go on; STREAM
delivers the oldest message of its pair to the sampler's slots or the consumer's port buffer; neither passes while its path is barred,
and a job that is being purged loses the packet. A wait past its deadline stops the program with EVT 0x0204 naming the port. -/
def Obligations.StreamOperations : Prop :=
  (∀ (s : State) (t sid : Nat) (err : Upsets) (st : Stream) (e : Dev),
    let d := s.dev
    let x := d.tile t
    let g := d.upsets t err
    let w := d.word t 4
    let o := x.opd (tOpd w)
    let bytes := ((look (tVreg w) x.v).getD (List.replicate 128 (0 : F32))).flatMap (fun a => leBytes 4 a.toNat)
    (d.standsAt t 4 1 → x.portStream (tPort w) true = some sid → look sid d.streams = some st →
      exec (.sendv t) s = .next (s.withDev (if d.canSend st t x.index (lineCount bytes.length) then
        (d.updStream sid (fun y => y.post t x.index bytes)).opDone t id else d.waitPort t (tPort w)))) ∧
    (∀ m, d.standsAt t 4 2 → x.portStream (tPort w) false = some sid → look sid d.streams = some st →
      x.nextMessage st (tPort w) = some m →
      exec (.recvv t) s = .next (s.withDev (if m.bytes.length = 512 then
        ((d.updTile t (fun z => { z with v := put (tVreg w) (wordsOf 128 m.bytes) z.v })).messageTaken t (tPort w) sid st m).opDone t id
        else d.tileStop t (.fault 0x0205)))) ∧
    (d.standsAt t 4 2 → x.portStream (tPort w) false = some sid → look sid d.streams = some st → x.nextMessage st (tPort w) = none →
      exec (.recvv t) s = .next (s.withDev (d.waitPort t (tPort w)))) ∧
    (∀ rows, d.standsAt t 4 3 → o.codeFault = none → g.runsOk t o.mem o.rowBytes (x.rowAddrs o o.rows) = none →
      g.runsRead t o.mem o.rowBytes (x.rowAddrs o o.rows) = (e, .inr rows) → x.portStream (tPort w) true = some sid →
      look sid e.streams = some st →
      exec (.send t err) s = .next (s.withDev (if e.canSend st t x.index (lineCount rows.flatten.length) then
        (e.updStream sid (fun y => y.post t x.index rows.flatten)).opDone t id else e.waitPort t (tPort w)))) ∧
    (d.standsAt t 4 4 → o.codeFault = none → d.runsOk t o.mem o.rowBytes (x.rowAddrs o o.rows) = none →
      x.portStream (tPort w) false = some sid → look sid d.streams = some st →
      (x.nextMessage st (tPort w) = none → exec (.recv t) s = .next (s.withDev (d.waitPort t (tPort w)))) ∧
      (∀ m, x.nextMessage st (tPort w) = some m → m.bytes.length ≠ o.rows * o.rowBytes →
        exec (.recv t) s = .next (s.withDev (d.tileStop t (.fault 0x0205)))) ∧
      (∀ m, x.nextMessage st (tPort w) = some m → m.bytes.length = o.rows * o.rowBytes →
        d.runsWrite t o.mem ((x.rowAddrs o o.rows).zip (rowsOf o.rowBytes o.rows m.bytes)) = (e, none) →
        exec (.recv t) s = .next (s.withDev ((e.messageTaken t (tPort w) sid st m).opDone t id))))) ∧
  (∀ (s : State) (sid prod cons : Nat) (st : Stream), s.dev.alive = true → sid < 4096 → prod < 256 → cons < 256 →
    look sid s.dev.streams = some st →
    (s.dev.streamBarred st cons prod = true → exec (.credit sid prod cons) s = .next s) ∧
    (s.dev.streamBarred st cons prod = false → s.dev.jobPurged prod = true → exec (.credit sid prod cons) s = .next (s.withDev
      { s.dev with streams := put sid { st with returning := drop1 (prod, cons) st.returning } s.dev.streams })) ∧
    (s.dev.streamBarred st cons prod = false → s.dev.jobPurged prod = false →
      let n := (look (prod, cons) st.returning).getD 0
      let st' : Stream := { st with returning := drop1 (prod, cons) st.returning,
                                    credits := put (prod, cons) (st.credit prod cons + n) st.credits }
      exec (.credit sid prod cons) s = .next (s.withDev
        ((({ s.dev with streams := put sid st' s.dev.streams } : Dev)).sendAgain sid st' prod))) ∧
    (∀ f, st.flight.find? (fun f => f.prod = prod && f.cons = cons) = some f →
      let d := s.dev.updStream sid (fun st => { st with flight := dropFlight prod cons st.flight })
      let index := (st.prods.findIdx? (fun p => p = prod)).getD 0
      (s.dev.streamBarred st prod cons = true → exec (.stream sid prod cons) s = .next s) ∧
      (s.dev.streamBarred st prod cons = false → exec (.stream sid prod cons) s = .next (s.withDev
        (if d.jobPurged prod then d
          else st.sampler.elim (d.portTakes st cons index f.bytes) (fun n => d.slotTakes n sid index f.bytes))))) ∧
    (∀ port deadline, (s.dev.tile cons).seq = .waitStream port deadline → deadline ≤ s.dev.now →
      exec (.streamTimeout cons) s = .next (s.withDev (s.dev.tileStop cons (.fault 0x0204) [port]))))

/-- The sync slot's arithmetic and branches complete (R82, R83): GADDI, GADD and GSHL leave their sum or shift, LOOP the count less one,
and GINFO its item, to be written at the bundle's end; BR always branches, LOOP while the count left is not zero, BNE when its registers
differ. HALT ends the tile's program: it lets go of what the tile consumed, and of its pipeline when it was the last. -/
def Obligations.ControlOperations : Prop :=
  ∀ (s : State) (t : Nat),
    let d := s.dev
    let x := d.tile t
    let w := d.word t 5
    (d.standsAt t 5 1 → exec (.gaddi t) s = .next (s.opDone t (fun z => z.later (cGd w) (x.reg (cGa w) + immWord w)))) ∧
    (d.standsAt t 5 2 → exec (.gadd t) s = .next (s.opDone t (fun z => z.later (cGd w) (x.reg (cGa w) + x.reg (bits w 18 14))))) ∧
    (d.standsAt t 5 3 → exec (.gshl t) s = .next (s.opDone t (fun z => z.later (cGd w) (x.reg (cGa w) <<< bits w 19 14)))) ∧
    (d.standsAt t 5 4 → x.reg (cGa w) = 1 → exec (.loop t) s = .next (s.opDone t (fun z => z.later (cGa w) 0))) ∧
    (d.standsAt t 5 4 → x.reg (cGa w) ≠ 1 → exec (.loop t) s = .next (s.opDone t (fun z =>
      { z.later (cGa w) (x.reg (cGa w) - 1) with branch := some (x.target w) }))) ∧
    (d.standsAt t 5 5 → exec (.br t) s = .next (s.opDone t (fun z => { z with branch := some (x.target w) }))) ∧
    (d.standsAt t 5 6 → x.reg (cGd w) ≠ x.reg (cGa w) → exec (.bne t) s = .next (s.opDone t (fun z => { z with branch := some (x.target w) }))) ∧
    (d.standsAt t 5 6 → x.reg (cGd w) = x.reg (cGa w) → exec (.bne t) s = .next (s.opDone t id)) ∧
    (d.standsAt t 5 7 → exec (.ginfo t) s = .next (s.opDone t (fun z => z.later (cGd w) (BitVec.ofNat 64 (d.ginfo t x (bits w 23 14)))))) ∧
    (d.standsAt t 5 11 →
      let e := (d.updTile t (fun z => z.haltOp)).consumerEnds t
      exec (.halt t) s = .next (s.withDev ((e.tile t).pipe.elim e (fun pid => e.pipeCheck pid))))

/-- Synchronisation completes (R95 to R98, R104). On an object of its context a tile's SIGNAL adds and SRESET clears, SIGNAL once the
tile's earlier work is seen; a WAIT whose value has come completes, any other waits until its deadline, or halts a tile that is
halting; an object of another context, or a proxy for WAIT, refuses the tile. A SYNC packet of an agent that may use the object adds to
it or clears it, a WAIT packet acts for the tile that stands at that WAIT; a packet of an agent that may not is refused, and one of a
job that is being purged is dropped. A wait past its deadline ends, counted: a tile's with EVT 0x0201, a descriptor's with TIMEOUT too.
Adding stores the sum and releases the waits that it meets, clearing stores 0; a proxy sends the operation to its peer. -/
def Obligations.SyncOperations : Prop :=
  (∀ (s : State) (t : Nat),
    let d := s.dev
    let x := d.tile t
    let w := d.word t 5
    let h := x.handle (cHnd w)
    let o := h.1
    (d.standsAt t 5 8 → d.syncOwned o (d.tileCtx t) = true → exec (.signal t) s = .next (s.withDev
      (if d.tileSettled t then (d.opDone t id).syncSignal o (x.syncArg w) (some t) else d))) ∧
    (d.standsAt t 5 8 → d.syncOwned o (d.tileCtx t) = false → exec (.signal t) s = .next (s.withDev (d.tileRefused t))) ∧
    (d.standsAt t 5 9 → d.syncOwned o (d.tileCtx t) = true → d.proxyOf o = none → x.syncArg w ≤ d.syncValue o →
      exec (.wait t) s = .next (s.opDone t id)) ∧
    (d.standsAt t 5 9 → d.syncOwned o (d.tileCtx t) = true → d.proxyOf o = none → d.syncValue o < x.syncArg w →
      exec (.wait t) s = .next (s.withDev (if x.halting then d.haltNow t else
        (d.updTile t (fun z => { z with seq := .waitSync o (x.syncArg w) (d.now + h.2) })).syncWait o (x.syncArg w) h.2 (.tile t)))) ∧
    (d.standsAt t 5 9 → (d.syncOwned o (d.tileCtx t) = false ∨ (d.proxyOf o).isSome = true) →
      exec (.wait t) s = .next (s.withDev (d.tileRefused t))) ∧
    (d.standsAt t 5 10 → exec (.sreset t) s = .next (s.withDev
      (if d.syncOwned o (d.tileCtx t) then (d.opDone t id).syncReset o (some t) else d.tileRefused t)))) ∧
  (∀ (s : State) (a : SyncAgent) (obj v : Nat), s.dev.alive = true → obj < 16384 →
    let d := s.dev
    let byTile := fun (f : Nat → Dev) (g : Dev) => s.withDev (agentCase a f g)
    (∀ op, d.syncPurged a = true → exec (.syncPacket a op obj v) s = .next s) ∧
    (d.syncPurged a = false →
      (∀ op, d.agentMay a obj op = false → exec (.syncPacket a op obj v) s = .next
        (byTile (fun t => if (d.tile t).pipe.isSome then d.tileRefused t else d.syncRefused) d.syncRefused)) ∧
      (d.agentMay a obj .signal = true → exec (.syncPacket a .signal obj v) s = .next
        (byTile (fun t => d.syncSignal obj v (some t)) (d.syncSignal obj v))) ∧
      (d.agentMay a obj .sreset = true → exec (.syncPacket a .sreset obj v) s = .next
        (byTile (fun t => d.syncReset obj (some t)) (d.syncReset obj))) ∧
      (d.agentMay a obj .wait = true → exec (.syncPacket a .wait obj v) s = .next
        (byTile (fun t => d.tileOp t 5 9 (fun d x w => if (x.handle (cHnd w)).1 = obj then d.tileWait t x w else d)) d)))) ∧
  (∀ (s : State) (obj : Nat) (who : Waiter) (y : SyncWait), s.dev.alive = true → obj < 16384 →
    s.dev.waits.find? (fun y => y.obj = obj && y.who = who && decide (y.deadline ≤ s.dev.now)) = some y →
    let d : Dev := { s.dev with waits := s.dev.waits.filter (fun y => !(y.obj = obj && y.who = who)) }
    let e := (d.countWaiters obj).satFld R.SYN_STAT F.SYN_STAT_TIMEOUTS 1
    (∀ t, who = .tile t → exec (.syncTimeout obj who) s = .next (s.withDev (e.tileStop t (.fault 0x0201) [obj]))) ∧
    (∀ q n, who = .desc q n → exec (.syncTimeout obj who) s = .next (s.withDev
      ((e.raise { e.descEvent 0x0201 q n with
        job := e.syncJob obj, args := [obj, q, ((e.desc q n).elim 0 Desc.cid)] }).complete q n stTimeout 0)))) ∧
  (∀ (d : Dev) (o v : Nat) (tile : Option Nat),
    (d.proxyOf o = none → d.syncValue o + v % 2 ^ 32 < 2 ^ 32 →
      d.syncSignal o v tile = (d.setFld (R.SYN_OBJ o) F.SYN_OBJ_VALUE (d.syncValue o + v % 2 ^ 32)).releaseWaits o) ∧
    (d.proxyOf o = none → d.syncReset o tile = (d.setFld (R.SYN_OBJ o) F.SYN_OBJ_VALUE 0).releaseWaits o) ∧
    (∀ p, d.proxyOf o = some p → d.syncSignal o v tile = d.proxySend p tile 6 v ∧ d.syncReset o tile = d.proxySend p tile 7 0))

/-! ### Konaoc (chapter 10) -/

/-- The lane operations of Konaoc (R231): on engine n each element's register D takes the value of its operation on that element's
own registers, for every element in hand; registers F8 to F19 are never written (R232), and the other engines stay.
The block operations of Konaoc (R233): BSUM and BMAX put the tree result over register A of every element in hand into block
result F28 to F31 and touch no element, and leave the engine as it is for any other destination; PHASE starts every element's F0 to F27 again and gives it the block results. -/
def Obligations.KonaocOperations : Prop :=
  (∀ (s : State) (n d a b c : Nat), s.dev.alive = true → n < 16 → d < 32 → a < 32 → b < 32 → c < 32 →
    let puts := fun (f : List F32 → F32) => s.withDev (s.dev.updEngine n (fun e =>
      if d < 8 ∨ 20 ≤ d then { e with files := e.files.map (fun r => setAt r d (f r)) } else e))
    let A := fun (r : List F32) => r.getD a 0
    let B := fun (r : List F32) => r.getD b 0
    let C := fun (r : List F32) => r.getD c 0
    exec (.konaocAdd n d a b) s = .next (puts (fun r => f32Add (A r) (B r))) ∧
    exec (.konaocSub n d a b) s = .next (puts (fun r => f32Sub (A r) (B r))) ∧
    exec (.konaocMul n d a b) s = .next (puts (fun r => f32Mul (A r) (B r))) ∧
    exec (.konaocFma n d a b c) s = .next (puts (fun r => f32Fma (A r) (B r) (C r))) ∧
    exec (.konaocDiv n d a b) s = .next (puts (fun r => f32Div (A r) (B r))) ∧
    exec (.konaocSqrt n d a) s = .next (puts (fun r => f32Sqrt (A r))) ∧
    exec (.konaocRsqrt n d a) s = .next (puts (fun r => BitVec.ofNat 32 (rsqrtCode 0 (A r).toNat))) ∧
    exec (.konaocMin n d a b) s = .next (puts (fun r => toF32 (fpMin (ofF32 (A r)) (ofF32 (B r))))) ∧
    exec (.konaocMax n d a b) s = .next (puts (fun r => toF32 (fpMax (ofF32 (A r)) (ofF32 (B r))))) ∧
    exec (.konaocAbs n d a) s = .next (puts (fun r => f32Abs (A r))) ∧
    exec (.konaocNeg n d a) s = .next (puts (fun r => f32Neg (A r))) ∧
    exec (.konaocSign n d a) s = .next (puts (fun r => f32Sign (A r))) ∧
    exec (.konaocCmplt n d a b) s = .next (puts (fun r => if (ofF32 (A r)).lt (ofF32 (B r)) then f32One else 0)) ∧
    exec (.konaocSel n d a b c) s = .next (puts (fun r => if (ofF32 (A r)).isZero then C r else B r)) ∧
    exec (.konaocMov n d a) s = .next (puts A)) ∧
  (∀ (s : State) (n d a : Nat), s.dev.alive = true → n < 16 → a < 32 →
    (28 ≤ d → d < 32 → exec (.konaocBsum n d a) s = .next (s.withDev (s.dev.updEngine n (fun e =>
      { e with results := setAt e.results (d - 28) (blockSum (e.files.map (fun r => r.getD a 0))) })))) ∧
    (28 ≤ d → d < 32 → exec (.konaocBmax n d a) s = .next (s.withDev (s.dev.updEngine n (fun e =>
      { e with results := setAt e.results (d - 28) (blockMax (e.files.map (fun r => r.getD a 0))) })))) ∧
    (d < 28 → exec (.konaocBsum n d a) s = .next (s.withDev (s.dev.updEngine n (fun e => e))) ∧
      exec (.konaocBmax n d a) s = .next (s.withDev (s.dev.updEngine n (fun e => e)))) ∧
    exec (.konaocPhase n) s = .next (s.withDev (s.dev.updEngine n (fun e =>
      { e with files := e.start.map (fun r => r.take 28 ++ e.results) }))))

/-! ### Descriptors that act at once (chapter 13) -/

/-- Descriptors that make, give up and adopt contexts and queues complete with OK when they start (R305, R306, R319): NOP does nothing
more; CTX_CREATE makes the lowest free context with its mode word and seed, ACTIVE and without faults, and answers its number;
CTX_DESTROY takes the context away and with it its extents, mirrors and proxies; QUEUE_CREATE makes the lowest free queue, ACTIVE and
empty, with the class, rings, size, context and vector of its body, and answers its number and, for a VF, its local number (R302);
QUEUE_DESTROY takes the named queue away, and QUEUE_ADOPT gives the named queue new rings, writes the records it held and raises
EVT 0x0B31; either may end the function's orphan mode. -/
def Obligations.ContextAndQueueDescriptors : Prop :=
  (∀ (s : State) (q : Nat) (e : Dev) (y : Desc) (check : Dev → Nat → Desc → Checked), s.dev.startsNow q check e y →
    (check = (fun d _ _ => (d, .inr [])) → y.typ = 1 → q < 4096 → exec (.nop q) s = .next (s.completes e q y 0)) ∧
    (check = Dev.ctxCreateCheck → y.typ = 2 → q < 4160 →
      let f := e.queueFn q
      let c := (lowest 1024 (fun i => (look i e.ctxs).isNone)).getD 0
      let x : Ctx := { state := .active, fn := f, maxq := y.body 0x10 1, mode := BitVec.ofNat 64 (y.body 0 8),
                       seed := BitVec.ofNat 64 (y.body 8 8), astat := 0, faultEvt := 0, faultPc := 0, faultTile := 0,
                       energy := 0, created := e.now }
      exec (.ctxCreate q) s = .next (s.completes (({ e with ctxs := put c x e.ctxs } : Dev).fnShow f) q y c)) ∧
    (check = Dev.ctxDestroyCheck → y.typ = 3 → q < 4160 →
      let c := y.body 0 2
      let g := e.destroyCtx c
      exec (.ctxDestroy q) s = .next (s.completes g q y 0) ∧ look c g.ctxs = none ∧ (∀ x ∈ g.extents, x.ctx ≠ c) ∧
        (∀ x ∈ g.lnk.mirrors, x.2.ctx ≠ c) ∧ (∀ x ∈ g.lnk.proxies, x.2.ctx ≠ c)) ∧
    (∀ k, check = Dev.queueDestroyCheck → y.typ = 5 → q < 4160 → e.namedQueue q (y.body 0 2) = some k →
      let f := e.queueFn k
      exec (.queueDestroy q) s = .next (s.completes
        ((({ e with queues := drop1 k e.queues } : Dev).fnShow f).orphanExit f) q y 0)) ∧
    (∀ k z, check = Dev.queueAdoptCheck → y.typ = 6 → q < 4160 → e.namedQueue q (y.body 0x10 2) = some k → e.queue k = some z →
      let g := e.updQueue k (fun x => { x with
        state := .active, sq := y.body 0 8, cq := y.body 8 8, tail := 0, fetch := 0, head := 0, written := 0, held := [],
        epoch := x.epoch + 1 })
      let g := (g.writeHeld k z.held).raise
        { code := 0x0B31, fn := e.queueFn k, ctx := g.queueCtx k, args := [k] }
      exec (.queueAdopt q) s = .next (s.completes (g.orphanExit (e.queueFn k)) q y 0))) ∧
  (∀ (s : State) (q : Nat) (e : Dev) (y : Desc), s.dev.startsNow q Dev.queueCreateCheck e y → y.typ = 4 → q < 4160 →
    let f := e.queueFn q
    let k := (lowest 4096 (fun i => (e.queue i).isNone)).getD 0
    let loc := if f = 0 then 0 else (lowest 64 (fun i => e.queues.all (fun z => isAdmin z.1 || z.2.fn ≠ f || z.2.loc ≠ i))).getD 0
    let x : Queue := { state := .active, cls := y.body 0x13 1, base := y.body 0x13 1, fn := f, loc := loc, log2 := y.body 0x12 1,
                       ctx := y.body 0x10 2, vector := y.body 0x14 2, sq := y.body 0 8, cq := y.body 8 8, tail := 0, fetch := 0,
                       head := 0, written := 0, dropped := 0, lastService := 0, fetched := [], held := [], recordLost := false,
                       resignAtOrphan := false, wasOrphaned := false, orphanedDone := 0, epoch := 0 }
    let g := ({ e with pwr := { e.pwr with queueNj := drop1 k e.pwr.queueNj } } : Dev).setReg (R.PWR_Q_ENERGY k) 0
    exec (.queueCreate q) s = .next (s.completes (({ g with queues := put k x g.queues } : Dev).fnShow f) q y (k + loc * 2 ^ 16)))

/-- Descriptors over memory, sync objects and links complete with OK when they start (R305, R306): MEM_ALLOC clears the lowest fitting range, records it as the context's extent and answers its base; MEM_FREE drops the
context's extent at that base; SYNC_ALLOC takes the first run of free objects for its context and job; SYNC_FREE gives the objects
back (R95, R130, R306).
SYNC_OP acts on the context's object: SIGNAL adds its value and SRESET clears it, and each completes; a WAIT at the head of its queue
completes at once where its threshold has been reached, and otherwise waits until its own deadline; MIRROR_ADD, MIRROR_DEL,
PROXY_ADD and PROXY_DEL set up or take down a mirror or a proxy of the context (R95, R277, R306, R310). -/
def Obligations.MemorySyncAndLinkDescriptors : Prop :=
  (∀ (s : State) (q : Nat) (e : Dev) (y : Desc) (check : Dev → Nat → Desc → Checked), s.dev.startsNow q check e y → q < 4096 →
    (∀ a, check = Dev.memAllocCheck → y.typ = 7 → e.allocBase (y.body 0 1) (y.body 1 1) (y.body 8 8) = some a →
      let g := e.memZero a (y.body 8 8)
      exec (.memAlloc q) s = .next (s.completes
        { g with extents := g.extents ++ [⟨a, y.body 8 8, g.queueCtx q, y.body 0 1⟩] } q y a)) ∧
    (check = Dev.memFreeCheck → y.typ = 8 →
      exec (.memFree q) s = .next (s.completes
        { e with extents := e.extents.filter (fun x => !(x.ctx = e.queueCtx q && x.base = y.body 0 8)) } q y 0)) ∧
    (∀ a, check = Dev.syncAllocCheck → y.typ = 9 → e.freeSyncs (y.body 0 2) = some a →
      let os := (List.range (y.body 0 2)).map (· + a)
      let g := os.foldl (fun d o => d.setReg (R.SYN_OBJ o)
        (BitVec.ofNat 64 (e.queueCtx q * 2 ^ 32 + 2 ^ 42 + (y.body 2 2 % 4096) * 2 ^ 44))) e
      exec (.syncAlloc q) s = .next (s.completes
        { g with syncJobs := if (y.body 2 2).testBit 15 then g.syncJobs ++ os else g.syncJobs } q y a)) ∧
    (check = Dev.syncFreeCheck → y.typ = 10 →
      exec (.syncFree q) s = .next (s.completes (((List.range (y.body 2 2)).map (· + y.body 0 2)).foldl Dev.freeSync e) q y 0))) ∧
  (∀ (s : State) (q : Nat) (e : Dev) (y : Desc),
    let o := y.body 2 2 % 2 ^ 14
    let c := e.queueCtx q
    (s.dev.startsNow q Dev.syncOpCheck e y → q < 4096 → y.typ = 11 →
      (y.body 0 1 = 1 → exec (.syncOpSignal q) s = .next (s.completes (e.syncSignal o (y.body 4 4)) q y 0)) ∧
      (y.body 0 1 = 3 → exec (.syncOpSreset q) s = .next (s.completes (e.syncReset o) q y 0))) ∧
    (∀ x o thr window, q < 4096 → s.dev.alive = true → s.dev.fwRuns = true → (s.dev.queue q).bind Queue.headDesc = some x →
      s.dev.desc q x.n = some x → x.phase = .dispatched → x.typ = 11 → x.body 0 1 = 2 →
      s.dev.syncOpCheck q x = (s.dev, .inr []) → x.namedWait = some (o, thr, window) → s.dev.proxyOf o = none →
      s.dev.syncOwned o (s.dev.queueCtx q) = true →
      let g := (s.dev.updDesc q x.n (fun y => { y with table := [] })).updDesc q x.n (fun y => { y with phase := .waiting })
      (thr ≤ s.dev.syncValue o → exec (.syncOpWait q) s = .next (s.withDev ((g.completeRaw q x.n stOk 0).pass))) ∧
      (s.dev.syncValue o < thr → exec (.syncOpWait q) s = .next (s.withDev
        (((({ g with waits := g.waits ++ [⟨o, thr, .desc q x.n, g.now + window⟩] } : Dev).countWaiters o).traceWait 3 o thr
          (.desc q x.n)))))) ∧
    (s.dev.startsNow q Dev.linkMapCheck e y → q < 4096 → y.typ = 21 →
      let mirrors := fun l => s.completes { e with lnk := { e.lnk with mirrors := l } } q y 0
      let proxies := fun l => s.completes { e with lnk := { e.lnk with proxies := l } } q y 0
      let m : Mirror := { ctx := c, job := y.body 2 2, peer := y.body 4 2, local_ := y.body 8 8, remote := y.body 0x10 8, len := y.body 0x18 8 }
      let p : Proxy := { obj := y.body 6 2, ctx := c, job := y.body 2 2, peer := y.body 4 2, remote := y.body 0x10 8 }
      let rest := e.lnk.proxies.filter (fun p => p.2.obj ≠ y.body 6 2)
      (y.body 0 1 = 1 → exec (.mirrorAdd q) s = .next (mirrors (put (freeSlot e.lnk.mirrors) m e.lnk.mirrors))) ∧
      (y.body 0 1 = 2 → exec (.mirrorDel q) s = .next (mirrors
        (e.lnk.mirrors.filter (fun m => !(m.2.ctx = c && m.2.local_ = y.body 8 8))))) ∧
      (y.body 0 1 = 3 → exec (.proxyAdd q) s = .next (proxies (put (freeSlot rest) p rest))) ∧
      (y.body 0 1 = 4 → exec (.proxyDel q) s = .next (proxies
        (e.lnk.proxies.filter (fun p => !(p.2.obj = y.body 6 2 && p.2.ctx = c)))))))

/-! ### Descriptors that engines carry out -/

/-- In-stack commands are accepted when they start (R156, R160, R161, R163): the command joins the end of the commands of the stack its
operand names, and where that stack has none, the controller takes it in hand at once: for PIM_ADD, PIM_MUL, PIM_MAD, PIM_RELU,
PIM_GELU, PIM_SILU and PIM_CLAMP it forms, element by element, the operation's result for the elements of the sources, in the command's
format, as the bytes to be written at D, and the block sums when the descriptor asks for them; for POOL it forms the bags' sums, or
completes the descriptor with the status of what it finds wrong. The elements are written by PIM_CMD_DONE. -/
def Obligations.InStackCommands : Prop :=
  (∀ (s : State) (q : Nat) (e : Dev) (y x : Desc), s.dev.startsNow q Dev.pimCheck e y → q < 4096 → y.typ = 14 → e.desc q y.n = some x →
    let n := pimStk y
    let c : PimCmd := { q := q, n := y.n, ctx := e.queueCtx q, started := false, lanes := [], writes := [], sums := [], flags := [],
                        stopping := false }
    let g := e.updPim n (fun z => { z with cmds := z.cmds ++ [c] })
    let does := fun (i : Instr) (t : Dev) => exec i s = .next (s.withDev t.pass)
    (∀ b r, (e.pimStack n).cmds = b :: r → b.started = true →
      (pimOp y = 1 → does (.pimAdd q) g) ∧ (pimOp y = 2 → does (.pimMul q) g) ∧ (pimOp y = 3 → does (.pimMad q) g) ∧
      (pimOp y = 4 → does (.pimRelu q) g) ∧ (pimOp y = 5 → does (.pimGelu q) g) ∧ (pimOp y = 6 → does (.pimSilu q) g) ∧
      (pimOp y = 7 → does (.pimClamp q) g) ∧ (pimOp y = 8 → does (.pool q) g)) ∧
    ((e.pimStack n).cmds = [] → pimOp x = pimOp y →
      let t := g.updPim n (fun z => { z with cmds := [g.pimElements x (e.ctxSat (e.queueCtx q)) c] })
      (pimOp y = 1 → does (.pimAdd q) t) ∧ (pimOp y = 2 → does (.pimMul q) t) ∧ (pimOp y = 3 → does (.pimMad q) t) ∧
      (pimOp y = 4 → does (.pimRelu q) t) ∧ (pimOp y = 5 → does (.pimGelu q) t) ∧ (pimOp y = 6 → does (.pimSilu q) t) ∧
      (pimOp y = 7 → does (.pimClamp q) t) ∧
      (∀ h k, pimOp y = 8 → g.poolCompute q x (e.ctxSat (e.queueCtx q)) c = (h, .inr k) →
        does (.pool q) (h.updPim n (fun z => { z with cmds := [k] }))))) ∧
  (∀ (d : Dev) (x : Desc) (sat : Bool) (c : PimCmd),
    let f := pimFmt x
    let a := d.pimCodes f (pimA x) (pimLen x)
    let b := d.pimSource f (pimLen x) (pimUsesB (pimOp x)) (pimFlag x 0) (pimB x)
    let e := d.pimSource f (pimLen x) (pimUsesC (pimOp x)) (pimFlag x 1) (pimC x)
    let codes := (a.zip (b.zip e)).map (fun v => (pimElem (pimOp x) f sat v.1 v.2.1 v.2.2 (pimFlag x 0) (pimFlag x 1)).1)
    (d.pimElements x sat c).started = true ∧
    (d.pimElements x sat c).writes = [(pimD x, leBytes (pimLen x) (packBits (pimBytes f * 8) codes))] ∧
    (d.pimElements x sat c).sums =
      (if pimFlag x 2 then [(pimSumAt x, (blockSums f codes).flatMap (fun s => leBytes 4 s.toNat))] else [])) ∧
  (∀ a b c : Fp, pimFloat 1 a b c = ofF32 (toF32 (a.add b)) ∧ pimFloat 2 a b c = ofF32 (toF32 (a.mul b)) ∧
    pimFloat 3 a b c = ofF32 (toF32 ((a.mul b).add c)) ∧ pimFloat 4 a b c = fpMax a (.fin false 0 0) ∧
    pimFloat 5 a b c = pimGate 5 fixGelu a ∧ pimFloat 6 a b c = pimGate 6 fixSilu a ∧ pimFloat 7 a b c = fpMin (fpMax a b) c)

/-- Commands of the page engine are accepted when they start and join the end of its work (R173, R190 to R194, R199). Where the engine
is idle it does the command at once: SEQ_OPEN opens its sequence with a clear map; SEQ_CLOSE releases the sequence's pages and closes
it; POOL_ADD gives the frames of its range to the context; APPEND, its entries checked and its frames reserved, goes through them in
order; TRUNCATE releases the pages beyond the new length and sets it; FORK, where no page is at its highest count, opens a sequence
that shares every page; each of these completes with OK. FETCH takes frames for its pages and sends the reads to the peer; PUSH reads
its pages and sends them to the peer. -/
def Obligations.PageCommands : Prop :=
  ∀ (s : State) (q : Nat) (e : Dev) (y : Desc), s.dev.startsNow q Dev.kvCheck e y → q < 4096 → y.typ = 15 →
    let w : KvWork := .desc q y.n
    let g := e.updKvp (fun k => { k with work := k.work ++ [w] })
    (e.kvp.running.isSome = true →
      let t := s.withDev (g.kvShow.pass)
      (y.body 0 1 = 1 → exec (.seqOpen q) s = .next t) ∧ (y.body 0 1 = 2 → exec (.seqClose q) s = .next t) ∧
      (y.body 0 1 = 3 → exec (.poolAdd q) s = .next t) ∧ (y.body 0 1 = 4 → exec (.append q) s = .next t) ∧
      (y.body 0 1 = 5 → exec (.fork q) s = .next t) ∧ (y.body 0 1 = 6 → exec (.truncate q) s = .next t) ∧
      (y.body 0 1 = 7 → exec (.fetch q) s = .next t) ∧ (y.body 0 1 = 8 → exec (.push q) s = .next t)) ∧
    (e.kvp.running = none → e.kvp.work = [] → g.workHeld w = false → e.desc q y.n = some y →
      let h := g.updKvp (fun k => { k with work := [] })
      let c := h.queueCtx q
      let seq := kvSeqNo y
      let does := fun (i : Instr) (t : Dev) => exec i s = .next (s.withDev ((t.kvPump 1).pass))
      let ends := fun (i : Instr) (t : Dev) => does i (t.complete q y.n stOk 0)
      (y.body 0 1 = 1 → look seq h.kvp.seqs = none →
        let x : KvSeq := { ctx := c, layers := kvNlayer y, maxPages := bits (kvArg y) 47 32, w := bits (kvArg y) 18 8,
                           fmt := kvArg y % 4, remoteOk := (kvRemote y).testBit 44, job := bits (kvRemote y) 43 32, len := 0,
                           map := kvAddr y }
        kvAddr y % 64 = 0 → h.owns c (kvAddr y) (mapBytes x.layers x.maxPages) = true →
        ends (.seqOpen q) ((h.memZero x.map (mapBytes x.layers x.maxPages)).updKvp (fun k => { k with seqs := put seq x k.seqs }))) ∧
      (∀ x m, y.body 0 1 = 2 → h.ownSeq c seq = some x →
        h.mapRead seq x (pageGrid 0 x.layers 0 (pagesOf x.len)) = (m, none) →
        ends (.seqClose q) ((m.releaseFrom x true 0).updKvp (fun k => { k with seqs := drop1 seq k.seqs }))) ∧
      (y.body 0 1 = 3 → 1 ≤ kvCount y → kvCount y ≤ memSize / frameSize → kvAddr y % frameSize = 0 →
        h.inOneExtent c (kvAddr y) (kvCount y * frameSize) = true → h.isCompute (kvAddr y) = false →
        let fs := (List.range (kvCount y)).map (fun i => kvAddr y + i * frameSize)
        fs.any (fun f => h.kvp.pooled.any (fun p => p.2 = f)) = false →
        ends (.poolAdd q) (fs.foldl (fun d f => d.giveKvFrame c f)
          (h.updKvp (fun k => { k with pooled := k.pooled ++ fs.map (fun f => (c, f)) })))) ∧
      (∀ m es fs, y.body 0 1 = 4 → h.kvAppendCheck c y = (m, .inr (es, fs)) →
        does (.append q) ((m.updKvp (fun k => { k with
          running := some { q := q, n := y.n, ctx := c, entries := es, ue := none, reserved := fs } })).appendGo (es.length + 1))) ∧
      (∀ x m, y.body 0 1 = 5 → look seq h.kvp.seqs = none → h.ownSeq c (y.body 0x0C 2) = some x → kvCount y ≤ x.len →
        kvAddr y % 64 = 0 → h.owns c (kvAddr y) (mapBytes x.layers x.maxPages) = true →
        let z : KvSeq := { x with len := kvCount y, map := kvAddr y }
        let grid := pageGrid 0 x.layers 0 (pagesOf (kvCount y))
        h.mapRead (y.body 0x0C 2) x grid = (m, none) →
        (∀ p ∈ grid, ∀ v, look (m.mapId x p.1 p.2) m.kvp.dir = some v → v.refcnt < 65535) →
        ends (.fork q) (grid.foldl (fun d p => d.forkPage x z p.1 p.2) (m.openSeq seq z))) ∧
      (∀ x m, y.body 0 1 = 6 → h.ownSeq c seq = some x → kvCount y ≤ x.len →
        h.mapRead seq x (pageGrid 0 x.layers (pagesOf (kvCount y)) (pagesOf x.len)) = (m, none) →
        ends (.truncate q) ((m.releaseFrom x true (pagesOf (kvCount y))).updKvp (fun k =>
          { k with seqs := put seq { x with len := kvCount y } k.seqs }))) ∧
      (∀ x m todo, y.body 0 1 = 7 → h.ownSeq c seq = some x → fetchShapeOk x (y.body 0x0E 2) (kvNlayer y) (kvCount y) = true →
        let grid := pageGrid (y.body 0x0E 2) (kvNlayer y) 0 (pagesOf (kvCount y))
        grid.length ≤ h.framesFree c → grid.length ≤ h.entriesFree → grid ≠ [] → h.takeFrames c 0 grid = (m, todo) →
        let f : KvFetch := { kind := .fetch, q := q, n := y.n, ctx := c, seq := seq, peer := kvRemote y % 65536,
                             peerSeq := bits (kvRemote y) 31 16, job := bits (kvRemote y) 43 32, count := kvCount y, todo := todo,
                             got := [] }
        does (.fetch q) ((m.updKvp (fun k => { k with fetches := k.fetches ++ [f] })).sendReads f)) ∧
      (∀ x m u, y.body 0 1 = 8 → h.ownSeq c seq = some x → 1 ≤ kvNlayer y → y.body 0x0E 2 + kvNlayer y ≤ x.layers →
        kvCount y ≤ x.len →
        let grid := pageGrid (y.body 0x0E 2) (kvNlayer y) 0 (pagesOf (kvCount y))
        h.mapRead seq x grid = (m, none) →
        let pages := grid.filterMap (fun e => (look (m.mapId x e.1 e.2) m.kvp.dir).map (fun p => (e, p)))
        m.readsOk c x.used (pages.map (fun p => p.2.frame)) = (u, none) → pages ≠ [] →
        let f : KvFetch := { kind := .pushOut, q := q, n := y.n, ctx := c, seq := seq, peer := kvRemote y % 65536,
                             peerSeq := bits (kvRemote y) 31 16, job := bits (kvRemote y) 43 32, count := kvCount y, todo := [],
                             got := [] }
        let n := x.used / 1024
        does (.push q) (pages.foldl (fun d p => (List.range n).foldl (fun d i => d.bamatSend { BamatPkt.blank with
          op := 9, vc := 5, job := f.job, tag := f.peerSeq, dstdev := f.peer, srcdev := d.selfDev, dstep := 321, srcep := 321,
          addr := 1024 * i + p.1.1 * 2 ^ 15 + p.1.2 * 2 ^ 23 + (x.layers - 1) * 2 ^ 40, cnt := kvNlayer y % 256,
          total := y.body 0x0E 2 % 256, hb := x.shape, arg := p.2.fill + 128 * b2n (i + 1 = n) + f.count * 256,
          payload := d.memBytes (p.2.frame + 1024 * i) 1024 }) d) (u.updKvp (fun k => { k with fetches := k.fetches ++ [f] })))))

/-- Descriptors for the pipelines, samplers, update engines and collectives, and COPY, are accepted when they start (R99, R101, R143,
R204, R224, R239, R246, R248, R260): PIPELINE takes the lowest free number, its streams and their groups, and binds every stage to the
tiles the pass chose; SAMPLE and GAMBIT join the commands of their sampler; UPDATE, its skip flag read, and AUDIT join the update
engines' commands, UPDATE with the units to do, or skipped with EVT 0x0810, or with UE; a collective whose arrays lie apart opens under
the next identifier and begins, one whose arrays overlap ends with INVALID and EVT 0x0901, one beyond 256 with BUSY; COPY runs until
COPY_DONE, which moves the bytes that can be read and ends it with OK, or with UE, ACCESS or ORPHANED; COPY_DONE leaves any descriptor
that is no running copy alone (R295, R317). -/
def Obligations.EngineDescriptors : Prop :=
  (∀ (s : State) (q : Nat) (e : Dev) (y : Desc), q < 4096 →
    let c := e.queueCtx q
    (s.dev.startsNow q Dev.pipelineCheck e y → y.typ = 13 →
      let t := y.table
      let pid := ((List.range 4096).find? (fun i => (look i e.pipes).isNone)).getD 4096
      let ss := giveGroups ((e.freeStreams (pStreams t)).zip ((List.range (pStreams t)).map (pStream t))) (e.freeGroups 255)
      let stages := ((List.range (pStages t)).zip y.tiles).map (fun k => (⟨k.2, (natAt (pStage t k.1) 0x0E 2).testBit 0⟩ : Stage))
      let p : Pipe := { q := q, n := y.n, ctx := c, job := pJob t, stages := stages, timeout := pipeTimeout t, released := false,
                        ending := none }
      let d : Dev := { e.urgentAccount with pipes := put pid p e.urgentAccount.pipes }
      let d := ss.foldl (fun d k => { d with streams := put k.1 (makeStream t pid y.tiles k.2.1 k.2.2) d.streams }) d
      let d := ss.foldl (fun d k => k.2.2.elim d (fun g =>
        let members := y.tiles.getD (natAt k.2.1 2 1) []
        ({ d with noc := { d.noc with groups := put g members d.noc.groups } } : Dev).setReg (R.NOC_MCAST g)
          (BitVec.ofNat 64 (1 + pJob t * 2 ^ 4 + k.1 * 2 ^ 16 + members.length * 2 ^ 28)))) d
      let d := ss.foldl (fun d k => d.bindSlot t pid c k) d
      let d := ((List.range (pStages t)).zip y.tiles).foldl (fun d k => d.bindStage t pid c k.1 k.2 ss) d
      exec (.pipeline q) s = .next (s.withDev d.pass)) ∧
    (s.dev.startsNow q Dev.smpCheck e y → y.typ = 16 ∨ y.typ = 17 →
      let x : SampleCmd := { gambit := y.typ = 17, q := q, n := y.n, ctx := c, row := 0, lrow := 0, kept := [],
                             nonfinite := false, since := e.now, stopping := false }
      let t := s.withDev (((e.updSampler y.smp.sampler (fun z => { z with cmds := z.cmds ++ [x] })).smpShow y.smp.sampler).pass)
      (y.typ = 16 → exec (.sample q) s = .next t) ∧ (y.typ = 17 → exec (.gambit q) s = .next t)) ∧
    (s.dev.startsNow q Dev.copyCheck e y → y.typ = 12 → exec (.copy q) s = .next (s.withDev e.pass)) ∧
    (∀ g ue block prog, s.dev.startsNow q Dev.updateCheck e y → y.typ = 18 →
      (if y.body 0x20 8 = 0 then (e, none) else e.memCheckRead { ctx := c } (y.body 0x20 8) 8) = (g, ue) →
      let rest := y.table.drop (64 * y.body 6 2)
      let table := y.table.take (64 * y.body 6 2)
      (parseProgram (rest.drop 44)).getD (false, []) = (block, prog) →
      let flagged := decide (y.body 0x20 8 ≠ 0) && decide (g.memNat (y.body 0x20 8) 1 ≠ 0)
      let x : UpdCmd := { audit := false, q := q, n := y.n, ctx := c, table := table, prog := prog, block := block,
                          params := wordsOf 11 rest, flag := if flagged then f32One else 0, step := y.body 0x28 4,
                          todo := updateTodo (tensorsOf table), nonfinite := false, status := stOk, result := 0 }
      let joins := fun (x : UpdCmd) => g.updCmds (fun l => l ++ [x])
      let t := fun (d : Dev) => Host.Outcome.next (s.withDev (d.updGo.pass))
      (ue = none → (flagged = false ∨ (y.body 0 1).testBit 2 = true) → exec (.update q) s = t (joins x)) ∧
      (ue = none → flagged = true → (y.body 0 1).testBit 2 = false →
        let x : UpdCmd := { x with todo := [], status := stSkipped }
        exec (.update q) s = t (((joins x).satFld R.UPD_STAT F.UPD_STAT_SKIPPED 1).raise
          (((joins x).satFld R.UPD_STAT F.UPD_STAT_SKIPPED 1).updEvent 0x0810 c [y.body 0x28 4]))) ∧
      (∀ a, ue = some a → exec (.update q) s = t (joins { x with todo := [], status := stUe, result := a }))) ∧
    (s.dev.startsNow q Dev.auditDescCheck e y → y.typ = 19 →
      let x : UpdCmd := { audit := true, q := q, n := y.n, ctx := c, table := y.table, prog := [], block := false, params := [],
                          flag := 0, step := y.body 0x18 4, todo := [], nonfinite := false, status := stOk, result := 0 }
      exec (.audit q) s = .next (s.withDev (((e.updCmds (fun l => l ++ [x])).updGo).pass))) ∧
    (s.dev.startsNow q Dev.collCheck e y → y.typ = 20 →
      let z : CollDesc := ⟨y.raw.drop 16, y.table⟩
      let all := fun (d : Dev) =>
        let t := s.withDev d.pass
        (y.body 0 1 = 1 → exec (.reduceScatter q) s = .next t) ∧ (y.body 0 1 = 2 → exec (.allGather q) s = .next t) ∧
        (y.body 0 1 = 3 → exec (.allReduce q) s = .next t) ∧ (y.body 0 1 = 4 → exec (.broadcast q) s = .next t) ∧
        (y.body 0 1 = 5 → exec (.allToAll q) s = .next t)
      (e.collApart z = false → all ((e.raise (e.collDescEvent 0x0901 q y.n z.job z.step)).complete q y.n stInvalid (invalidTable 0x0901))) ∧
      (e.collApart z = true → 256 ≤ e.col.open_.length → all (e.complete q y.n stBusy 0)) ∧
      (∀ j, e.collApart z = true → e.col.open_.length < 256 → look z.job e.jobs = some j →
        let k : Contrib := { complete := none, excluded := false, abandoned := false, asked := false }
        let x : Collective := {
          q := q, n := y.n, ctx := c, job := z.job, body := z.body, table := z.table, start := e.now,
          red := z.redOn j.det (e.checkOn z), det := j.det, check := e.checkOn z, policy := j.policy,
          contribs := z.members.map (fun m => (m, k)), taken := [], has := [], counts := [], staged := [], next := [], order := [],
          checks := [], compared := [], nf := none, checkElem := none, flags := 0, backupUsed := false, tm := none, d2 := none,
          finished := false, ue := none, sums := [], gone := [], goneDevs := [], marked := [], statusDone := false, gather := [],
          refetch := [], mcast := none }
        let d : Dev := { e with col := { e.col with open_ := put e.col.next x e.col.open_, next := e.col.next + 1 } }
        all (d.collShow.collBegin e.col.next)))) ∧
  (∀ (s : State) (q n : Nat) (y : Desc), s.dev.alive = true → q < 4096 → s.dev.desc q n = some y →
    let d := s.dev
    let f := d.queueFn q
    let iova := if copySrcHost y then y.body 0 8 else y.body 8 8
    let host := copySrcHost y || copyDstHost y
    let ends := fun (g : Dev) (st res : Nat) => exec (.copyDone q n) s = .next (s.withDev (g.complete q n st res))
    (y.typ ≠ 12 ∨ y.phase ≠ .running → exec (.copyDone q n) s = .next s) ∧
    (y.typ = 12 → y.phase = .running →
      (host = true → d.suppressed q = true → ends d stOrphaned 0) ∧
      (host = true → d.suppressed q = false → d.hostReach f iova (y.body 0x10 8) = false → ends (d.hostFailed q y.n) stAccess iova) ∧
      (∀ g k w, (host = true → d.suppressed q = false ∧ d.hostReach f iova (y.body 0x10 8) = true) →
        d.copyGuard (d.queueCtx q) y (y.body 0x10 8) = (g, k, w) →
        (w = none → ends (g.copyMove f y k) stOk 0) ∧ (∀ a, w = some a → ends (g.copyMove f y k) stUe a))))

/-! ### Pipelines (chapter 04) -/

/-- PIPE_BOUND, of a pipeline that is bound and not ending, marks it released, starts the sequencer of every one of its tiles at once
and raises EVT 0x0220; PIPE_DONE, of a released pipeline whose tiles have all reached HALT and seen their writes answered, frees its
tiles, streams and groups, completes its descriptor with OK and raises EVT 0x0221 (R98, R101). A number that holds no pipeline, a
pipeline already released, or one not yet done leaves the state as it is. -/
def Obligations.PipelineEvents : Prop :=
  ∀ (s : State) (p : Nat), s.dev.alive = true → p < 4096 →
    (look p s.dev.pipes = none → exec (.pipeBound p) s = .next s ∧ exec (.pipeDone p) s = .next s) ∧
    ∀ x, look p s.dev.pipes = some x →
      let ready := x.tiles.all (fun t => (s.dev.tile t).seq == .done && (s.dev.tile t).latwait.isEmpty && s.dev.tileAcked t)
      (x.released = false → x.ending = none →
        let d := { s.dev with pipes := put p { x with released := true } s.dev.pipes }
        let d := x.tiles.foldl (fun d t => d.updTile t (fun y => Tile.settle (y.code.length + 2) { y with seq := .run })) d
        exec (.pipeBound p) s = .next (s.withDev
          (d.raise { code := 0x0220, fn := d.ctxFn x.ctx, ctx := x.ctx, job := x.job, args := [x.q] }))) ∧
      (x.released = true ∨ x.ending.isSome = true → exec (.pipeBound p) s = .next s) ∧
      (x.released = true → x.ending = none → ready = true →
        let d := (s.dev.streams.filter (fun e => e.2.pipe = p)).foldl (fun d e => d.endStream true e.1 e.2) s.dev
        let d := x.tiles.foldl (fun d t => d.freeTile x.ctx t) d
        let d := { d.urgentAccount with pipes := drop1 p d.pipes }
        let d := (List.range 16).foldl Dev.smpStarved (d.complete x.q x.n stOk 0)
        exec (.pipeDone p) s = .next (s.withDev
          (d.raise { code := 0x0221, fn := d.ctxFn x.ctx, ctx := x.ctx, job := x.job, args := [x.q] }))) ∧
      (x.released = false ∨ x.ending.isSome = true ∨ ready = false → exec (.pipeDone p) s = .next s)

/-! ### The network (chapter 05) -/

/-- PACKET_INJECT (R108, R109, R111, R116): a packet whose DST is reserved or names no group, or whose type may not use its channel, is
counted in BADDST and dropped; a packet of the job being purged is dropped; any other is put on its way, one to the router of its
destination, or one for each member that the walk of its group reaches, with its PH.
EP_ARRIVAL (R113, R119, R121, R122): a packet that is not the first of its order, or comes to a port behind one already handled or to a
failed link, changes nothing; one of a purged job is taken and dropped; a packet that is not reducible is taken at its destination. A
reducible packet of a DETERMINISTIC job is counted and goes on, and so does one with EP_EN = 0 or from or to an old link; one that is
not finite goes on with HB = 0, and meeting its partner counts NONFINITE; one that meets its partner merges with it unless the counts
pass the total or 255, or the sum is not finite; one alone parks when it may and an entry is free. EP_HOLD_EXPIRY sends the expired
packet on with HB = 0 and counts it.
PURGE_DONE ends the purge in hand with EVT 0x0320, the quiet period if it asked for one, and begins the next (R123, R315).
FLIT_CRC_FAIL counts a retry, EVT 0x0340 at the 64th in 1 s; the 16th in a row fails the link with EVT 0x0341, a resign of the device
and a defect entry; on a failed link or one that does not exist it changes nothing (R125). -/
def Obligations.Packets : Prop :=
  (∀ (s : State) (p : NocPkt), s.dev.alive = true →
    (s.dev.dstOk p.dst = false ∨ vcOk p.typ p.vc = false →
      exec (.packetInject p) s = .next (s.withDev (s.dev.satFld R.NOC_LINK_ERR F.NOC_LINK_ERR_BADDST 1))) ∧
    (s.dev.dstOk p.dst = true → vcOk p.typ p.vc = true → s.dev.purgingNow p.job = true → exec (.packetInject p) s = .next s) ∧
    (s.dev.dstOk p.dst = true → vcOk p.typ p.vc = true → s.dev.purgingNow p.job = false →
      let out : List MeshPkt := if p.dst < 1024 then [⟨p, targetRouter p, none⟩]
        else (mcastWalk ((look (p.dst - 1024) s.dev.noc.groups).getD []) (startRouter p)).map (fun m => ⟨{ p with ph := m.2 }, m.1, none⟩)
      exec (.packetInject p) s = .next (s.withDev { s.dev with noc := { s.dev.noc with flight := s.dev.noc.flight ++ out } }))) ∧
  (∀ (s : State) (node port dstdev : Nat) (odd : Bool) (p : NocPkt), s.dev.alive = true → node < 320 → port < 7 →
    let cycle := 2 * s.dev.now + b2n odd
    let mine := fun (x : MeshPkt) => x.pkt = p && (decide (p.dst < 1024) || x.target = node)
    let d := s.dev.meshTaken mine
    let ans := exec (.epArrival node ⟨port, odd⟩ dstdev p) s
    (s.dev.portPassed node cycle port = true ∨ s.dev.portStopped node port = true ∨ s.dev.meshFirst mine = false → ans = .next s) ∧
    (s.dev.portPassed node cycle port = false → s.dev.portStopped node port = false → s.dev.meshFirst mine = true →
      (s.dev.purgingNow p.job = true → ans = .next (s.withDev d)) ∧
      (s.dev.purgingNow p.job = false → reducible p = false →
        ans = .next (if p.typ ≠ 5 && (decide (1024 ≤ p.dst) || node = targetRouter p) then s.withDev d else s)) ∧
      (s.dev.purgingNow p.job = false → reducible p = true →
        let hdr := (s.dev.noc.flight.find? mine).bind (fun x => x.hdr)
        let dev := (hdr.map (fun h => h.dstdev)).getD dstdev
        let d : Dev := { d with noc := { d.noc with handled := put node (cycle, port) d.noc.handled } }
        let on := fun (g : Dev) (p : NocPkt) => Host.Outcome.next (s.withDev (g.goesOn node dev hdr p))
        let partner := d.noc.parked.find? (fun x => x.node = node && pktMatch x dev p && decide (cycle < x.since + 2 * x.pkt.hb))
        (d.detJob p.job = true → ans = on (d.detBypass node p) p) ∧
        (d.detJob p.job = false →
          d.fld R.NOC_CFG F.NOC_CFG_EP_EN = 0 ∨ d.oldLink p.src = true ∨ d.oldLink p.dst = true → ans = on d p) ∧
        (d.detJob p.job = false → d.fld R.NOC_CFG F.NOC_CFG_EP_EN ≠ 0 → d.oldLink p.src = false → d.oldLink p.dst = false →
          (nonFinitePayload p = true → partner = none → ans = on d { p with hb := 0 }) ∧
          (∀ x, nonFinitePayload p = true → partner = some x →
            ans = on (d.satFld R.NOC_EP_MISS F.NOC_EP_MISS_NONFINITE 1) { p with hb := 0 }) ∧
          (∀ x, nonFinitePayload p = false → partner = some x →
            (p.total < x.pkt.cnt + p.cnt ∨ 255 < x.pkt.cnt + p.cnt → ans = on d p) ∧
            (x.pkt.cnt + p.cnt ≤ p.total → x.pkt.cnt + p.cnt ≤ 255 →
              (∀ sum, sumPayload x.pkt p = some sum →
                ans = on ((d.freeEntry x cycle).satFld R.NOC_EP_CNT F.NOC_EP_CNT_MERGES 1)
                  { p with cnt := x.pkt.cnt + p.cnt, hb := min (x.budget cycle) p.hb, payload := sum }) ∧
              (sumPayload x.pkt p = none →
                ans = on (((d.freeEntry x cycle).satFld R.NOC_EP_MISS F.NOC_EP_MISS_NONFINITE 1).goesOn node x.dstdev x.hdr
                  { x.pkt with hb := 0 }) { p with hb := 0 }))) ∧
          (nonFinitePayload p = false → partner = none →
            ((mayPark node port p && decide (p.cnt < p.total) && decide (0 < p.hb)) = false → ans = on d p) ∧
            ((mayPark node port p && decide (p.cnt < p.total) && decide (0 < p.hb)) = true →
              (d.entryFree node cycle = false → ans = on (d.satFld R.NOC_EP_MISS F.NOC_EP_MISS_NOFREE 1) p) ∧
              (d.entryFree node cycle = true →
                ans = .next (s.withDev { d with noc := { d.noc with parked := d.noc.parked ++ [⟨node, p, dev, hdr, cycle⟩] } }))))))) ∧
    (∀ x, s.dev.noc.parked.find? (fun x => x.node = node && decide (x.since + 2 * x.pkt.hb ≤ 2 * s.dev.now + 1)) = some x →
      exec (.epHoldExpiry node) s = .next (s.withDev
        (((s.dev.freeEntry x (x.since + 2 * x.pkt.hb)).satFld R.NOC_EP_MISS F.NOC_EP_MISS_EXPIRED 1).goesOn node x.dstdev x.hdr
          { x.pkt with hb := 0 }))) ∧
    (s.dev.noc.parked.find? (fun x => x.node = node && decide (x.since + 2 * x.pkt.hb ≤ 2 * s.dev.now + 1)) = none →
      exec (.epHoldExpiry node) s = .next s)) ∧
  (∀ (s : State), s.dev.alive = true →
    (s.dev.noc.purging = [] → exec .purgeDone s = .next s) ∧
    (∀ job quiet r, s.dev.noc.purging = (job, quiet) :: r →
      let d := { s.dev with noc := { s.dev.noc with purging := r },
                            quiet := if quiet then put job (s.dev.now + 10000000, false) s.dev.quiet else s.dev.quiet }
      exec .purgeDone s = .next (s.withDev
        (((d.wrapFld R.NOC_PURGE F.NOC_PURGE_COUNT 1).raise { code := 0x0320, job := job }).purgeBegin))) ∧
    (∀ node dir again, node < 320 → dir < 5 →
      let there := neighbour node dir
      (s.dev.linkFailed node there = true ∨ linkDir node there ≠ dir → exec (.flitCrcFail node dir again) s = .next s) ∧
      (∀ row times, s.dev.linkFailed node there = false → linkDir node there = dir → s.dev.linkRetries node dir = (row, times) →
        let now := if again then row + 1 else 1
        let old := times.filter (fun t => decide (s.dev.now < t + 1000000))
        let d : Dev := { s.dev with noc := { s.dev.noc with retries := put (node, dir) (now, s.dev.now :: old) s.dev.noc.retries } }
        let d := d.satFld R.NOC_LINK_ERR F.NOC_LINK_ERR_RETRIES 1
        let d := if old.length = 63 then d.raise { code := 0x0340, unit := routerUnit node, args := [dir, node] } else d
        (now ≠ 16 → exec (.flitCrcFail node dir again) s = .next (s.withDev d)) ∧
        (now = 16 →
          let d : Dev := { d with noc := { d.noc with failed := (node, dir) :: d.noc.failed } }
          let d := ((d.setFld R.NOC_LINK_ERR F.NOC_LINK_ERR_FAILED 1).setFld R.NOC_LINK_ERR F.NOC_LINK_ERR_NODE node).setFld
            R.NOC_LINK_ERR F.NOC_LINK_ERR_DIR dir
          exec (.flitCrcFail node dir again) s = .next (s.withDev
            ((d.raise { code := 0x0341, unit := routerUnit node, args := [dir, node] }).deviceResign.addDefect 10 node dir 3))))))

/-! ### Memory (chapter 06) -/

/-- MEM_WRITE (R130, R138, R143, R167), of a run that its consumer's context holds and to a lane that runs no sequence. Where no granule
of the run holds a stored error, lies on a failed pin or is retired, it answers a next state in which each byte of the run reads what
was written, every other byte of memory reads as before, the canonical form is kept, and nothing else changes but the in-stack units'
count of requests held in lanes that the rest of the run meets, which does not change where the stack runs no sequence. Where such
granules are met, those before the first that cannot be written are written, and the consumer ends there, or they are all written.
A run of a lane that a sequence holds waits; one that its consumer's context does not hold is refused; an empty run does nothing. -/
def Obligations.MemoryWriteStoresItsBytes : Prop :=
  ∀ (s : State) (a : Nat) (bs : List Byte) (who : Consumer), s.dev.alive = true → a < memSize → a + bs.length ≤ memSize →
    let d := s.dev.holdRun a bs.length
    let ans := exec (.memWrite a bs who) s
    (s.dev.accessOwned who a bs.length = false → ans = .next (s.withDev (s.dev.accessRefused who))) ∧
    (s.dev.accessOwned who a bs.length = true → s.dev.laneBusy a = true →
      ans = .next (s.withDev (s.dev.holdReq a (.write a bs who)))) ∧
    (s.dev.accessOwned who a bs.length = true → s.dev.laneBusy a = false →
      (bs = [] → ans = .next s) ∧
      (bs ≠ [] → d.writeSpecial a (a + bs.length) = [] →
        ∃ t, ans = .next t ∧ (Memory.wf s.dev.mem.cells → Memory.wf t.dev.mem.cells) ∧
          (∀ i, i < bs.length → canonGet zeroByte t.dev.mem.cells (a + i) = bs.getD i 0) ∧
          sameOutside (fun x => a ≤ x ∧ x < a + bs.length) s.dev.mem.cells t.dev.mem.cells ∧
          t = s.withDev { s.dev with mem := { s.dev.mem with cells := t.dev.mem.cells }, regs := t.dev.regs, pim := t.dev.pim } ∧
          ((s.dev.pimStack (stackOf (s.dev.phys a))).seqs = [] → t.dev.regs = s.dev.regs ∧ t.dev.pim = s.dev.pim)) ∧
      (∀ g, bs ≠ [] → d.writeGranules (d.accessOf who) a bs.length (d.writeSpecial a (a + bs.length)) = (g, none) →
        ans = .next (s.withDev (g.poke a bs))) ∧
      (∀ g f, bs ≠ [] → d.writeGranules (d.accessOf who) a bs.length (d.writeSpecial a (a + bs.length)) = (g, some f) →
        ans = .next (s.withDev ((g.poke a (bs.take (f - a))).consumerFails who f))))

/-- MEM_READ (R130, R139, R141, R142, R158, R167): a granule that its consumer's context does not hold is refused; one in a lane that a
sequence holds waits in arrival order; otherwise one in COMPUTE, or that shows no error, leaves the device as it is, one symbol that
can be corrected is counted and queues the granule for writing back, an error that the read again does not show is counted alone, and
one that it cannot mend ends the consumer. CE_WRITEBACK removes the stored error of a granule that waits for it (R142).
REFRESH_BOUNDARY takes a tile into the fallback that waits, and a TSV that fails at two boundaries in a row is failed; a slice that is
lost or served elsewhere is not tested (R133, R151). CLK_FALLBACK, when every tile has switched, sets CLK_FALLBACK and LAYER with EVT
0x0420 (R133). EVAC_PAGE_COPY copies the next page, retiring its copy where it cannot be read, and ends with the last (R153). SCRUB
reads, mends and passes the granule at its position, waiting where a sequence holds the lane (R146, R147). A refresh of a near bank,
or of a far bank whose lane is free, changes nothing; one of a lane that runs a sequence is postponed, up to 4 (R165). -/
def Obligations.MemoryControllers : Prop :=
  (∀ (s : State) (a : Nat) (who : Consumer) (err retry : List (Nat × Byte)), s.dev.alive = true → a < memSize →
    let d := s.dev
    let g := a / 64 * 64
    let p := d.phys g
    let first := decodeWord (wrongAdd (d.seenErr p) err)
    let second := decodeWord (wrongAdd (d.seenErr p) retry)
    let ans := exec (.memRead a who err retry) s
    (d.accessOwned who a 1 = false → ans = .next (s.withDev (d.accessRefused who))) ∧
    (d.accessOwned who a 1 = true → d.laneBusy a = true → ans = .next (s.withDev (d.holdReq a (.read a who err retry)))) ∧
    (d.accessOwned who a 1 = true → d.laneBusy a = false → d.accessFails g = false →
      (d.isCompute g = true → ans = .next s) ∧
      (d.isCompute g = false → d.mem.wbPend.contains (p / 64) = false →
        (first = .clean → ans = .next s) ∧
        (∀ pos v, first = .corrected pos v → ans = .next (s.withDev ((d.countCe p pos v).wbQueue p))) ∧
        (first = .ue ∨ first = .addrErr →
          (second = .clean → ans = .next (s.withDev (d.countCe p 0 0))) ∧
          (∀ pos v, second = .corrected pos v → ans = .next (s.withDev ((d.countCe p pos v).wbQueue p))) ∧
          (second = .ue ∨ second = .addrErr →
            let e := d.ueAt (d.accessOf who) g p (second = .addrErr)
            let q := e.phys a
            let errs := retry.foldl (fun l (k : Nat × Byte) => canonSet zeroByte l (q / 64 * 128 + k.1 % 128) k.2) e.mem.err
            ans = .next (s.withDev (({ e with mem := { e.mem with err := errs } } : Dev).consumerFails who g))))))) ∧
  (∀ (s : State), s.dev.alive = true →
    let d := s.dev
    (∀ a, a < memSize → exec (.ceWriteback a) s = .next (s.withDev
      (if d.mem.wbPend.contains (d.phys a / 64) then
        { d with mem := { d.mem with err := canonClear (d.phys a / 64 * 128) (d.phys a / 64 * 128 + 128) d.mem.err,
                                     wbPend := d.mem.wbPend.filter (· ≠ d.phys a / 64) } } else d))) ∧
    (∀ t fails, t < 256 →
      let switched := if d.mem.clkPend && !d.mem.switched.contains t then t :: d.mem.switched else d.mem.switched
      let g : Dev := { d with mem := { d.mem with switched := switched } }
      (3 ≤ d.sliceState t → exec (.refreshBoundary t fails) s = .next (s.withDev g)) ∧
      (d.sliceState t < 3 →
        let fs := (fails.filter (fun i => decide (i / 2 < 1184))).eraseDups
        let k : Dev := { g with mem := { g.mem with tsvFail := d.mem.tsvFail.filter (fun e => e.1 ≠ t) ++ fs.map (fun i => (t, i)) } }
        exec (.refreshBoundary t fails) s = .next (s.withDev
          ((fs.filter (fun i => d.mem.tsvFail.contains (t, i))).foldl (fun d i => d.tsvFailed t i) k)))) ∧
    (∀ all, (List.range 256).all (fun t => decide (3 ≤ d.sliceState t) || d.mem.switched.contains t) = all →
      (d.mem.clkPend = true → all = true → exec .clkFallback s = .next (s.withDev
        ((((({ d with mem := { d.mem with clkPend := false, switched := [] } } : Dev).setFld R.MEM_CFG F.MEM_CFG_CLK_FALLBACK 1).setFld
          R.MEM_CFG F.MEM_CFG_NM_CLOCK 1)).raise { code := 0x0420, unit := d.mem.clkTile }))) ∧
      (d.mem.clkPend = false ∨ all = false → exec .clkFallback s = .next s)) ∧
    (d.mem.evac = [] → exec .evacPageCopy s = .next s) ∧
    (∀ e r, d.mem.evac = e :: r →
      (d.nextExtentPage e.tile e.next = none → exec .evacPageCopy s = .next (s.withDev (d.evacEnd e))) ∧
      (∀ a g bad, d.nextExtentPage e.tile e.next = some a →
        d.memCheckRead { ctx := (d.pageOwners (a / 4096)).headD 0 } a 4096 = (g, bad) →
        let f : Evac := { e with next := a + 4096 }
        let moved := g.mem.evac.map (fun x : Evac => if x.tile = e.tile then f else x)
        let g : Dev := { g with mem := { g.mem with evac := moved } }
        let g := if bad.isSome then g.retireFor a (e.frame + a % gib) else g
        exec .evacPageCopy s = .next (s.withDev
          (if (g.nextExtentPage e.tile (a + 4096)).isNone then g.evacEnd f else g)))) ∧
    (∀ c err retry, c < 272 →
      let a := d.scrubAddr c
      let base := ctrlBase c
      let o := a - base
      (256 ≤ c → stackOf a = c - 256 → d.laneBusy a = true →
        exec (.scrub c err retry) s = .next (s.withDev (d.holdReq a (.scrub err retry)))) ∧
      (c < 256 ∨ stackOf a ≠ c - 256 ∨ d.laneBusy a = false →
        ((d.scrubBounds c).2 ≤ (d.scrubBounds c).1 ∨ (c < 256 ∧ 3 ≤ d.sliceState c) → exec (.scrub c err retry) s = .next s) ∧
        (∀ g r, (d.scrubBounds c).1 < (d.scrubBounds c).2 → (256 ≤ c ∨ d.sliceState c < 3) →
          (if decide ((d.scrubBounds c).2 ≤ o) || d.phys a ≠ a then (d, .clean) else d.granuleRead { scrub := true } a err retry) = (g, r) →
          let k := if r = .mended then (g.markRow c a).granuleMended a else g
          exec (.scrub c err retry) s = .next (s.withDev
            (if (d.scrubBounds c).2 ≤ o / 64 * 64 + 64 then (k.setScrubPos c (d.scrubBounds c).1).sweepEnd c
              else k.setScrubPos c (o / 64 * 64 + 64)))))) ∧
    (∀ t l, t < 256 → l < 4 → exec (.refresh (.near t l)) s = .next s) ∧
    (∀ n pc bg b, n < 16 → pc < 32 → bg < 4 → b < 4 →
      let l := 32 * bg + pc
      ((d.pimStack n).seqs.any (fun e => e.lane = l) = false → exec (.refresh (.far n pc bg b)) s = .next s) ∧
      ((d.pimStack n).seqs.any (fun e => e.lane = l) = true →
        let k := min 4 ((look (4 * l + b) (d.pimStack n).postponed).getD 0 + 1)
        let g := d.updPim n (fun x => { x with postponed := put (4 * l + b) k x.postponed })
        exec (.refresh (.far n pc bg b)) s = .next (s.withDev (g.setFld (R.PIM_STK_REF n) F.PIM_STK_REF_MAX_POSTPONED
          (max k (g.fld (R.PIM_STK_REF n) F.PIM_STK_REF_MAX_POSTPONED)))))))

/-! ### In-stack sequences (chapter 07) -/

/-- SEQUENCE_START rolls the stack's window on; a sequence that its lane allows and the window's budget can pay spends its charge and
takes its rows from the first command's; one beyond the budget is deferred; any other does nothing more (R164, R166, R168).
SEQUENCE_END of a running lane ends it, counts it, shows the longest hold and serves what the lane held, oldest first (R165, R167).
PIM_CMD_DONE, with no sequence running and the first command started: a stopped command writes some of its granules and ends with
RESIGNED, one whose rows are all done writes its result and ends with OK, or with UE at the granule that could not be written (R163,
R169). PIM_BUDGET_WINDOW rolls every stack's window on (R168).
PAGE_READ is taken as every packet is (R273), and at its device is refused by the status of its job, by a sequence that cannot show the
page, by its map or by an error; held while the page is being copied; and otherwise served (R184, R196, R198). PAGE_DATA is taken
likewise: at its device an answer fits its FETCH and gives its bytes to its page, or ends the FETCH with INVALID and EVT 0x0602; a PUSH
opens with its first packet, and its bytes go to the page they name; bytes that nothing awaits are dropped (R199). COPY_ON_WRITE ends
the copy it names, and with the last copy of the entry in hand goes on to the next; a copy that is not running is no copy (R194). -/
def Obligations.InStackAndPageEvents : Prop :=
  (∀ (s : State) (n lane rows : Nat), s.dev.alive = true → n < 16 → lane < 128 →
    let d := s.dev.pimRoll n
    let charge := rows * d.fld (R.PIM_STK_BUDGET n) F.PIM_STK_BUDGET_ROWOP_NJ
    let budget := d.fld (R.PIM_STK_BUDGET n) F.PIM_STK_BUDGET_BUDGET_UJ * 1000
    let starts := exec (.sequenceStart n lane rows) s
    (d.seqAllowed n lane rows = false → starts = .next (s.withDev d)) ∧
    (d.seqAllowed n lane rows = true → budget < (d.pimStack n).spent + charge → starts = .next (s.withDev (d.pimDefer n))) ∧
    (d.seqAllowed n lane rows = true → (d.pimStack n).spent + charge ≤ budget →
      starts = .next (s.withDev ((d.updPim n (fun x => { x with
        spent := x.spent + charge, seqs := x.seqs ++ [⟨lane, rows, d.now⟩],
        cmds := x.cmds.modifyHead (fun c => { c with lanes := alter lane (fun k => k - rows) c.lanes }) })).pimActive n))) ∧
    (let x := s.dev.pimStack n
     let mine := x.held.filter (fun h => h.1 = lane)
     let worst := mine.foldl (fun m h => max m (s.dev.now - h.2.1)) (s.dev.fld (R.PIM_STK_HOLD n) F.PIM_STK_HOLD_HOLD_MAX)
     (x.seqs.any (fun e => e.lane = lane) = false → exec (.sequenceEnd n lane) s = .next s) ∧
     (x.seqs.any (fun e => e.lane = lane) = true →
      let g := ((s.dev.updPim n (fun x => { x with
          seqs := x.seqs.filter (fun e => e.lane ≠ lane), postponed := x.postponed.filter (fun e => e.1 / 4 ≠ lane),
          held := x.held.filter (fun h => h.1 ≠ lane) })).wrapFld (R.PIM_STK_STAT n) F.PIM_STK_STAT_SEQUENCES 1).setFld
          (R.PIM_STK_HOLD n) F.PIM_STK_HOLD_HOLD_MAX (min worst 65535)
      exec (.sequenceEnd n lane) s = .next (s.withDev ((mine.foldl (fun d h => d.serveHeld n h.2.2) g).pimActive n)))) ∧
    ((s.dev.pimStack n).cmds = [] ∨ (s.dev.pimStack n).seqs ≠ [] → exec (.pimCmdDone n) s = .next s) ∧
    (∀ c r, (s.dev.pimStack n).seqs = [] → (s.dev.pimStack n).cmds = c :: r →
      (c.started = false → exec (.pimCmdDone n) s = .next s) ∧
      (c.started = true → c.stopping = true →
        exec (.pimCmdDone n) s = .next (s.withDev
          ((s.dev.drew.pimWrites c (partWrites s.dev.fresh c.writes)).1.pimEnd n c stResigned 0))) ∧
      (c.started = true → c.stopping = false → c.lanes.any (fun e => decide (0 < e.2)) = true →
        exec (.pimCmdDone n) s = .next s) ∧
      (c.started = true → c.stopping = false → c.lanes.any (fun e => decide (0 < e.2)) = false →
        (∀ g, s.dev.pimWrites c (c.writes ++ c.sums) = (g, none) →
          exec (.pimCmdDone n) s = .next (s.withDev (g.pimEnd n c stOk 0))) ∧
        (∀ g a, s.dev.pimWrites c (c.writes ++ c.sums) = (g, some a) →
          exec (.pimCmdDone n) s = .next (s.withDev (g.pimEnd n c stUe a))))) ∧
    exec .pimBudgetWindow s = .next (s.withDev ((List.range 16).foldl Dev.pimRoll s.dev))) ∧
  (∀ (s : State) (p : BamatPkt), s.dev.alive = true →
    Takes p 8 s (fun d => d.pageRead p) (exec (.pageRead p) s) ∧
    (∀ d : Dev,
      let seq := look (p.addr % 65536) d.kvp.seqs
      let x := bits p.addr 39 24
      let fits := fun (z : KvSeq) => z.remoteOk && z.job = p.job && decide (bits p.addr 23 16 < z.layers) && decide (x < z.maxPages)
      let status := d.bamatStatus p.job (!seq.any fits)
      (∀ st, status = some st → d.pageRead p = if st = 3 then d.pageRefused p (p.addr % 65536) x else d.bamatRefuse p st) ∧
      (∀ z g w, status = none → seq = some z → d.mapRead (p.addr % 65536) z [(bits p.addr 23 16, x)] = (g, w) →
        (∀ st a, w = some (st, a) → d.pageRead p = if st = stUe then g.bamatRefuse p 7 else g.pageRefused p (p.addr % 65536) x) ∧
        (∀ e, w = none → look (g.mapId z (bits p.addr 23 16) x) g.kvp.dir = some e →
          (e.busy = true → d.pageRead p =
            g.updKvp (fun k => { k with waiting := k.waiting ++ [(p, g.mapId z (bits p.addr 23 16) x)] })) ∧
          (e.busy = false →
            (∀ h, g.memCheckRead { ctx := z.ctx } e.frame z.used = (h, none) →
              d.pageRead p = (h.satFld R.KVP_CNT F.KVP_CNT_SERVED 1).sendPage p z e) ∧
            (∀ h a, g.memCheckRead { ctx := z.ctx } e.frame z.used = (h, some a) → d.pageRead p = h.bamatRefuse p 7))))) ∧
    (∃ here : Dev → Dev, Takes p 9 s here (exec (.pageData p) s) ∧ ∀ d : Dev,
      let mine := fun (f : KvFetch) => f.kind = .pushIn && f.peer = p.srcdev && f.seq = p.tag
      let page := bits p.addr 38 23
      let fetch := d.kvp.fetches.find? (fun f => f.kind = .fetch && f.peer = p.srcdev && f.job = p.job && f.todo.any (fun r => r.tag = p.tag))
      (p.arg / 256 = 0 → fetch = none → here d = d) ∧
      (∀ f, p.arg / 256 = 0 → fetch = some f →
        (d.shapeAgrees f p = false →
          here d = (d.raise (d.kvEvent 0x0602 f.ctx [f.seq])).fetchFails f stInvalid (invalidAt 0x0602 0x38)) ∧
        (∀ r, d.shapeAgrees f p = true → f.todo.find? (fun r => r.tag = p.tag) = some r → here d = d.pageBytes f r p)) ∧
      (p.arg / 256 ≠ 0 →
        let opens := bits p.addr 22 15 = p.total && page = 0 && p.addr % 2 ^ 15 = 0
        let e := if d.kvp.fetches.any mine then d else if opens then d.pushBegin p else d
        (e.kvp.fetches.find? mine = none → here d = e) ∧
        (∀ f, e.kvp.fetches.find? mine = some f →
          let read := f.todo.find? (fun r => r.layer = bits p.addr 22 15 && r.page = page)
          (read = none → here d = e) ∧ (∀ r, read = some r → here d = e.pageBytes f r p)))) ∧
    (∀ seq layer page,
      let copy := s.dev.kvp.copies.find? (fun c => c.seq = seq && c.layer = layer && c.page = page)
      (copy = none → exec (.copyOnWrite seq layer page) s = .next s) ∧
      (∀ c, copy = some c →
        let d := s.dev.finishCopy c
        let entry := d.kvp.running.bind (fun a => a.entries.head?.map (fun e => (e, a.entries.length)))
        (d.kvp.copies ≠ [] ∨ entry = none → exec (.copyOnWrite seq layer page) s = .next (s.withDev d.kvShow)) ∧
        (∀ sq ntok stage k, d.kvp.copies = [] → entry = some ((sq, ntok, stage), k) →
          exec (.copyOnWrite seq layer page) s = .next (s.withDev ((d.entryDone sq ntok).appendGo (k + 1)).kvNext)))))

/-! ### KV pages (chapter 08) -/

/-! ### Samplers (chapter 09) -/

/-- SAMPLE_ROW (R204 to R208): with no command, all its rows done or the row's choices made it changes nothing; a message of the wrong
size is discarded and ends the command with INVALID and EVT 0x0702; a row that has not all come waits; otherwise the row's tokens are
chosen, the row is used up and the next follows, the last one completing SAMPLE, and a read or write that fails ends it with UE.
SMP_TIMEOUT ends with TIMEOUT and EVT 0x0703 a command whose row lacks the logits of that slot past their time, and nothing else
(R214). GAMBIT_DECISION (R211 to R213), of a GAMBIT whose rows of the sequence in hand are in: it reads the draft, writes the record,
counts what was proposed, accepted and emitted, writes the histories where the job has them, asks for the rollback where it rolls back,
and goes to the next sequence, a read or write that fails ending it with UE; with every sequence decided it goes on to the end; with
rows still missing, or of a SAMPLE, it changes nothing. -/
def Obligations.SamplerEvents : Prop :=
  (∀ (s : State) (n slot : Nat), s.dev.alive = true → n < 16 → slot < 16 → s.dev.smpRunning n = none →
    exec (.sampleRow n) s = .next s ∧ exec (.smpTimeout n slot) s = .next s ∧ exec (.gambitDecision n) s = .next s) ∧
  ∀ (s : State) (n : Nat) (c : SampleCmd) (j : SmpJob), s.dev.alive = true → n < 16 → s.dev.smpRunning n = some (c, j) →
    let d := s.dev
    let row := exec (.sampleRow n) s
    let decides := exec (.gambitDecision n) s
    let open_ := c.row < j.batch ∧ c.kept.length < j.rowsOf c.row
    (¬ open_ → row = .next s) ∧
    (∀ k p, open_ → d.wrongMessage n j = some (k, p) →
      let g := (look k (d.sampler n).slots).elim d (fun x => d.slotDrops n k (splitFirst [p] x.msgs).1 (splitFirst [p] x.msgs).2)
      row = .next (s.withDev ((g.raise (g.smpEvent n 0x0702 c)).smpEnd n stInvalid (invalidTable 0x0702)))) ∧
    (open_ → d.wrongMessage n j = none → d.rowReady n j = false → row = .next s) ∧
    (open_ → d.wrongMessage n j = none → d.rowReady n j = true →
      (c.gambit = false →
        (∀ e, d.sampleAll n c j (List.range j.nstream) = (e, none) →
          let g := (e.updSmp n (fun c => { c with row := c.row + 1, lrow := c.lrow + 1 })).rowUsed n j c.lrow
          row = .next (s.withDev (if c.row + 1 = j.batch then g.smpDone n j (c.lrow + 1) stOk else g))) ∧
        (∀ e a, d.sampleAll n c j (List.range j.nstream) = (e, some a) → row = .next (s.withDev (e.smpEnd n stUe a)))) ∧
      (c.gambit = true →
        (∀ e ps, d.gambitRow n c j (List.range j.nstream) = (e, .inr ps) →
          row = .next (s.withDev
            ((e.updSmp n (fun c => { c with lrow := c.lrow + 1, kept := c.kept ++ [ps] })).rowUsed n j c.lrow))) ∧
        (∀ e a, d.gambitRow n c j (List.range j.nstream) = (e, .inl a) → row = .next (s.withDev (e.smpEnd n stUe a))))) ∧
    (∀ slot, slot < 16 →
      let late := (look slot (d.sampler n).slots).elim (decide (c.since + 100000000 ≤ d.now))
        (fun x => !x.complete && decide (max c.since x.lastMsg + x.timeout ≤ d.now))
      (late = true → slot < j.nstream → open_ → exec (.smpTimeout n slot) s = .next (s.withDev
        (((d.satFld R.SMP_ERR F.SMP_ERR_TIMEOUTS 1).raise
          ((d.satFld R.SMP_ERR F.SMP_ERR_TIMEOUTS 1).smpEvent n 0x0703 c)).smpEnd n stTimeout 0))) ∧
      (late = false ∨ j.nstream ≤ slot ∨ ¬ open_ → exec (.smpTimeout n slot) s = .next s)) ∧
    (c.gambit = false → decides = .next s) ∧
    (c.gambit = true → j.batch ≤ c.row → decides = .next (s.withDev (d.gambitNext n))) ∧
    (c.gambit = true → open_ → decides = .next s) ∧
    (c.gambit = true → c.row < j.batch → j.rowsOf c.row ≤ c.kept.length →
      let recs := d.seqRecs c.ctx j c.row ((List.range (j.ndraft c.row)).map (· + 1))
      (∀ e a, recs = (e, .inl a) → decides = .next (s.withDev (e.smpEnd n stUe a))) ∧
      (∀ e l out nacc, recs = (e, .inr l) →
        let x := j.entry c.row
        let pos := natAt x 8 4
        let place := j.out + c.row * j.outSize
        gambitRun (natAt x 12 4 % 2 ^ 31 = 0) (BitVec.ofNat 64 (natAt x 0 8)) pos 0 c.kept l = (out, nacc) →
        let wrote := e.memWriteRun { ctx := c.ctx } place (gambitRecord j.nstream pos c.kept out nacc)
        (∀ g a, wrote = (g, some a) → decides = .next (s.withDev (g.smpEnd n stUe a))) ∧
        (∀ g, wrote = (g, none) →
          let toks := out.flatMap (fun ts => ((List.range ts.length).zip ts).filterMap (fun e => e.2.map (fun v => (e.1, v))))
          let h := ((g.wrapFld (R.SMP_TOK n) F.SMP_TOK_TOKENS toks.length).satFld (R.SMP_GAMBIT n) F.SMP_GAMBIT_PROPOSED
            (min (nacc + 1) (j.ndraft c.row))).satFld (R.SMP_GAMBIT n) F.SMP_GAMBIT_ACCEPTED nacc
          let hist := if j.histEn then h.setHistories c.ctx j c.row toks else (h, none)
          (∀ i a, hist = (i, some a) → decides = .next (s.withDev (i.smpEnd n stUe a))) ∧
          (∀ i, hist = (i, none) →
            let k := if j.rollback then i.kvAccept (.rollback (n, i.smpJobNo n) c.ctx (natAt x 32 2) (pos + nacc) place) else i
            decides = .next (s.withDev
              ((k.updSmp n (fun c => { c with row := c.row + 1, kept := [] })).gambitNext n))))))

/-! ### Updates and audits (chapter 10) -/

/-- UPDATE_UNIT (R224 to R230): an engine with no unit to do, or behind an audit, does nothing; else it takes its next unit: one whose
record shows the step is passed over; one whose record and state can be read has every chunk computed and written, its record written
with STEP and its elements counted; where the record cannot be read or a write fails the command stops with UE and EVT 0x0811, and where
some state cannot be read it does so after the chunks before it that were already written.
Audit messages (R239 to R241): the hashes of an owner are compared when the audit in hand is of their job, and kept for a later one
otherwise; a done message marks its replica in the audit of its job, is kept with no such audit, and from a device that is no peer does
nothing; AUDIT_TIMEOUT ends the audit of its job when its time is over, naming the replicas missing in EVT 0x0823, and does nothing
otherwise. -/
def Obligations.UpdatesAndAudits : Prop :=
  (∀ (s : State) (n : Nat), s.dev.alive = true → n < 16 →
    (engineWork n 0 s.dev.upd.cmds = none → exec (.updateUnit n) s = .next s) ∧
    ∀ (i place u : Nat) (c : UpdCmd), engineWork n 0 s.dev.upd.cmds = some (i, c, (n, place, u)) →
      let x := tensorOf c.table place
      let d := s.dev.updCmd c (fun y => { y with todo := y.todo.erase (n, place, u) })
      let base := (u - x.units.1) * unitSize
      let chunks := chunksOf (x.unitElems u)
      let ans := exec (.updateUnit n) s
      let stops := fun (g : Dev) (a : Nat) => Host.Outcome.next (s.withDev (((g.raise (g.updEvent 0x0811 c.ctx [n, x.tidx, a])).updCmd c
        (fun y => { y with todo := [], status := stUe, result := a })).updGo))
      (∀ e a, d.memCheckRead { ctx := c.ctx } (x.recordAt u) 32 = (e, some a) → ans = stops e a) ∧
      (∀ e, d.memCheckRead { ctx := c.ctx } (x.recordAt u) 32 = (e, none) →
        (e.memNat (x.recordAt u) 4 = c.step → ans = .next (s.withDev e.updGo)) ∧
        (e.memNat (x.recordAt u) 4 ≠ c.step →
          (∀ f i a g w, e.chunksFail c x base 0 chunks = (f, some (i, a)) →
            let some_ := (((List.range i).zip chunks).filter (fun e => Config.partlyWritten f.fresh e.1)).map (·.2)
            f.drew.updateChunks n c x u some_ = (g, w) → ans = stops g (w.getD a)) ∧
          (∀ f, e.chunksFail c x base 0 chunks = (f, none) →
            (∀ g a, f.updateChunks n c x u chunks = (g, some a) → ans = stops g a) ∧
            (∀ g, f.updateChunks n c x u chunks = (g, none) →
              (∀ h a, g.writeUnitRecord c.ctx x u c.step = (h, some a) → ans = stops h a) ∧
              (∀ h, g.writeUnitRecord c.ctx x u c.step = (h, none) →
                ans = .next (s.withDev ((h.wrapFld (R.UPD_ENG_CNT n) F.UPD_ENG_CNT_ELEMENTS (x.unitElems u)).updGo)))))))) ∧
  (∀ (s : State), s.dev.alive = true →
    let d := s.dev
    let kept := fun (u : Upd) => s.withDev { d with upd := u }
    (∀ (job owner tidx n fmt : Nat) (hs : List (Nat × Word)),
      let m : HashMail := ⟨job, owner, tidx, n, fmt, hs⟩
      (∀ a : Audit, d.upd.audit = some a → a.job = job →
        exec (.ownerHashes job owner tidx n fmt hs) s = .next (s.withDev ((d.auditHashes m).updGo))) ∧
      ((∀ a : Audit, d.upd.audit = some a → a.job ≠ job) →
        exec (.ownerHashes job owner tidx n fmt hs) s = .next (kept { d.upd with mail := d.upd.mail ++ [m] }))) ∧
    (∀ job dev : Nat,
      ((∀ a : Audit, d.upd.audit = some a → a.job ≠ job) →
        exec (.noticeAuditDone job dev) s = .next (kept { d.upd with dones := d.upd.dones ++ [(job, dev)] })) ∧
      (∀ a : Audit, d.upd.audit = some a → a.job = job →
        (a.peers.findIdx? (fun p => p = dev) = none → exec (.noticeAuditDone job dev) s = .next s) ∧
        (∀ r, a.peers.findIdx? (fun p => p = dev) = some r →
          exec (.noticeAuditDone job dev) s = .next (s.withDev
            (((d.updAudit (fun a => { a with done := r :: a.done })).auditCheck).updGo))))) ∧
    (∀ job : Nat,
      let over_ := fun (a : Audit) => a.job = job ∧ a.start + d.fld R.UPD_CFG F.UPD_CFG_AUDIT_TIMEOUT * 1000000 ≤ d.now
      (∀ a : Audit, d.upd.audit = some a → over_ a →
        exec (.auditTimeout job) s = .next (s.withDev
          (((d.raise { d.updEvent 0x0823 a.ctx (a.missing.map (fun r => a.peers.getD r 0)) with job := job }).auditEnd stTimeout 0).updGo))) ∧
      ((∀ a : Audit, d.upd.audit = some a → ¬ over_ a) → exec (.auditTimeout job) s = .next s)))

/-! ### Collectives (chapter 11) -/

/-- COLLECTIVE_ACC and PLAIN_ACCUMULATE (R115, R123, R244, R248 to R250, R315): an accumulate that an earlier packet of its order, or a
closed channel, holds back changes nothing; otherwise it is taken. In a quiet period of its job it is discarded, in the purge of its job
dropped. COLLECTIVE_ACC gives one that falls in an open share to that share, as a reduced range where it is reducible, else as its
contributor's, and drops any other. PLAIN_ACCUMULATE leaves alone one that falls in an open share; of any other, one for far memory of
one stack that its job's context holds is added there, and the rest are refused and counted. -/
def Obligations.ContributionPackets : Prop :=
  ∀ (s : State) (p : NocPkt), s.dev.alive = true →
    let d := s.dev.meshTaken (accIs p)
    let share := s.dev.collAt p.job p.addr
    let acc := exec (.collectiveAcc p) s
    let plain := exec (.plainAccumulate p) s
    (s.dev.meshMay (accIs p) = false → acc = .next s ∧ plain = .next s) ∧
    (share.isSome = true → plain = .next s) ∧
    (s.dev.meshMay (accIs p) = true →
      (d.quietNow p.job = true → acc = .next (s.withDev (d.quietDiscard p.job)) ∧
        (share = none → plain = .next (s.withDev (d.quietDiscard p.job)))) ∧
      (d.quietNow p.job = false → d.purgingNow p.job = true → acc = .next (s.withDev d) ∧ (share = none → plain = .next (s.withDev d))) ∧
      (d.quietNow p.job = false → d.purgingNow p.job = false →
        (∀ id x, share = some (id, x) → acc = .next (s.withDev (if p.red then d.takeRed id x p else d.takeAcc id x p))) ∧
        (share = none → acc = .next (s.withDev d) ∧
          (d.plainOk p = true → plain = .next (s.withDev (d.plainAdd (if p.rfmt = 1 then 1 else 0) p.addr p.payload))) ∧
          (d.plainOk p = false → plain = .next (s.withDev (d.plainRefused p))))))

/-- The owner's deadlines (R253): D1, once due, sets D2 one deadline later, and every contributor still incomplete is excluded, or its
backup asked where it has one not asked yet; D2 excludes every contributor still incomplete; then the share is finished if nothing is
missing. What the other members send (R254, R257, R259 to R262): the samples of a contributor that is not excluded nor gone are kept and
compared, in a quiet period or of any other they are discarded; a local summary of a member is kept and, with the last, STATUS is
written, one of another level ending the collective with INVALID; a done notice completes its contributor; a backup request is answered,
from this member's copy of SRC, with the checks and the ranges it names, and UE there ends this member's collective; an abandonment marks
the device in every collective of the job; a landed block that is awaited is written and judged by its hash. A quiet period that is over
ends, and the collectives it held start (R315). At the time-out the incomplete contributors of a share with no T_m are excluded, and then,
STATUS not yet written, the silent members are marked, STATUS is written and the collective ends with TIMEOUT and EVT 0x0941. An
identifier that no collective has, and an event that is not due, change nothing. -/
def Obligations.CollectiveEvents : Prop :=
  (∀ (s : State) (id : Nat), s.dev.alive = true → s.dev.coll id = none →
    exec (.deadlineD1 id) s = .next s ∧ exec (.deadlineD2 id) s = .next s ∧ exec (.collTimeout id) s = .next s ∧
    (∀ c bkp samples, exec (.checkPacket id c bkp samples) s = .next s) ∧ (∀ m, exec (.noticeDone id m) s = .next s) ∧
    (∀ m l w dt ms, exec (.localSummary id m l w dt ms) s = .next s) ∧ (∀ m b dt h, exec (.allGatherBlock id m b dt h) s = .next s)) ∧
  (∀ (s : State) (id : Nat) (x : Collective), s.dev.alive = true → s.dev.coll id = some x →
    let y := x.desc
    let due1 := fun (t : Nat) => x.tm = some t ∧ x.owning = true ∧ x.d2 = none ∧ t + y.dline ≤ s.dev.now
    (∀ t, due1 t →
      let d := s.dev.updColl id (fun z => { z with d2 := some (t + y.dline + z.desc.dline) })
      exec (.deadlineD1 id) s = .next (s.withDev ((x.incomplete.foldl (fun d c =>
        if y.hasBackup c then (if (x.contrib c).asked then d else d.askBackup id c) else d.exclude id c) d).shareCheck id))) ∧
    ((∀ t, ¬ due1 t) → exec (.deadlineD1 id) s = .next s) ∧
    (∀ t, x.d2 = some t → x.owning = true → t ≤ s.dev.now →
      exec (.deadlineD2 id) s = .next (s.withDev ((x.incomplete.foldl (fun d c => d.exclude id c) s.dev).shareCheck id))) ∧
    ((∀ t, x.d2 = some t → x.owning = false ∨ s.dev.now < t) → exec (.deadlineD2 id) s = .next s)) ∧
  (∀ (s : State) (id : Nat) (x : Collective), s.dev.alive = true → s.dev.coll id = some x →
    let y := x.desc
    (∀ c bkp samples,
      let tag := c + 4096 + 8192 * b2n bkp + y.step % 4 * 16384
      let mine := fun (m : MeshPkt) => m.pkt.dst = 322 && m.pkt.job = x.job && m.pkt.tag = tag
      let d := s.dev.meshTaken mine
      let ans := exec (.checkPacket id c bkp samples) s
      (s.dev.meshMay mine = false → ans = .next s) ∧
      (s.dev.meshMay mine = true →
        (d.quietNow x.job = true → ans = .next (s.withDev (d.quietDiscard x.job))) ∧
        (d.quietNow x.job = false → (x.contrib c).excluded = true ∨ x.goneDevs.contains (y.sourceDev c bkp) = true →
          ans = .next (s.withDev d.stray)) ∧
        (d.quietNow x.job = false → (x.contrib c).excluded = false → x.goneDevs.contains (y.sourceDev c bkp) = false →
          let e := d.updColl id (fun z => { z with checks := put (c, bkp) ((look (c, bkp) z.checks).getD [] ++ samples) z.checks })
          let rs := (samples.map (fun e => (e.1 - (y.share y.self).1) / 256)).eraseDups
          ans = .next (s.withDev (if x.finished then e else rs.foldl (fun d r => d.compareRange id r) e))))) ∧
    (∀ member level word detail missing,
      let d := s.dev.arrivedTaken (fun p => p.op = 1 && p.dstep = 322 && p.job = x.job && p.tag = member && p.arg % 256 = 1)
      let ans := exec (.localSummary id member level word detail missing) s
      let awaited := x.gone.contains member = false ∧ member < y.nmemb ∧ y.reduces = true ∧ x.statusDone = false
      (¬ awaited → ans = .next (s.withDev d)) ∧
      (awaited → level ≠ y.level → ans = .next (s.withDev (d.collEnd id stInvalid 0))) ∧
      (awaited → level = y.level → ans = .next (s.withDev
        ((d.updColl id (fun z => { z with sums := put member { word := word, detail := detail, missing := missing } z.sums })).statusCheck id)))) ∧
    (∀ member,
      let d := s.dev.noticeTaken x.job 1 (fun p => p.tag = member)
      exec (.noticeDone id member) s = .next (s.withDev
        (if x.red && decide (member < y.nmemb) && !(x.contrib member).excluded then (d.contribDone id member).shareCheck id else d))) ∧
    (∀ member block data hash,
      let e := { s.dev with lnk := { s.dev.lnk with arrived := s.dev.lnk.arrived.filter (fun p =>
        !(p.op = 1 && p.dstep = 322 && p.job = x.job && p.tag = member && p.arg = 2 + 256 * block)) } }
      exec (.allGatherBlock id member block data hash) s = .next (s.withDev
        (if x.gather.contains (member, block) && !(x.refetch.any (fun f => f.owner = member && f.block = block)) then
          (e.landBlock x member block data).judgeBlock id x
            { owner := member, place := 0, block := block, want := hash, tries := 0, reads := [] }
          else e))) ∧
    (let ans := exec (.collTimeout id) s
     (s.dev.now < x.start + y.timeout ∨ x.statusDone = true ∨ y.reduces = false → ans = .next s) ∧
     (x.start + y.timeout ≤ s.dev.now → x.statusDone = false → y.reduces = true →
      let d := if x.owning && x.tm.isNone then (x.incomplete.foldl (fun d c => d.exclude id c) s.dev).shareCheck id else s.dev
      (d.coll id = none → ans = .next (s.withDev d)) ∧
      (∀ z, d.coll id = some z → z.statusDone = true ∨ z.silent = [] → ans = .next (s.withDev d)) ∧
      (∀ z, d.coll id = some z → z.statusDone = false → z.silent ≠ [] →
        let k := { z with flags := z.flags ||| 2, marked := z.marked ++ z.silent }
        let e := (d.writeStatus k (combineSums k)).updColl id (fun y => { y with flags := y.flags ||| 2 })
        ans = .next (s.withDev ((e.raise (e.collEvent k 0x0941 (k.silent ++ k.silent.map k.desc.primary))).collEnd id stTimeout 0)))))) ∧
  (∀ (s : State) (job : Nat), s.dev.alive = true →
    (∀ dev, exec (.noticeAbandon job dev) s = .next (s.withDev ((s.dev.noticeTaken job 2 (fun p => p.srcdev = dev)).abandonedJob job dev))) ∧
    (∀ owner step contrib ranges,
      let d := s.dev.noticeTaken job 3 (fun p => p.srcdev = owner && p.addr = step && p.arg / 256 = contrib)
      let backup := d.col.open_.find? (fun e => e.2.job = job && e.2.desc.isBackup && e.2.desc.step = step && e.2.desc.self = contrib)
      let ans := exec (.noticeBackupReq job owner ⟨step, contrib, ranges⟩) s
      (backup = none → ans = .next (s.withDev d)) ∧
      (∀ id x, backup = some (id, x) →
        let y := x.desc
        let asker := y.members.find? (fun m => y.primary m = owner)
        (asker = none → ans = .next (s.withDev d)) ∧
        (∀ j, asker = some j →
          (∀ e a, d.memCheckRead { ctx := x.ctx } y.src y.srcLen = (e, some a) → ans = .next (s.withDev (e.collLost id x a))) ∧
          (∀ e, d.memCheckRead { ctx := x.ctx } y.src y.srcLen = (e, none) →
            let rs := ranges.filter (fun r => decide (r < y.ranges j))
            let es := (y.samplesOf j).filter (fun e => rs.contains ((e - (y.share j).1) / 256))
            ans = .next (s.withDev (e.collSend ((if x.check then e.checkPackets y true j (es.length + 1) es else []) ++
              rs.map (fun r => e.accPacket y false true j r)))))))) ∧
    ((∀ t told, look job s.dev.quiet = some (t, told) → s.dev.now < t) → exec (.quietPeriodEnd job) s = .next s) ∧
    (∀ t told, look job s.dev.quiet = some (t, told) → t ≤ s.dev.now →
      let e := { s.dev with quiet := drop1 job s.dev.quiet }
      exec (.quietPeriodEnd job) s = .next (s.withDev
        ((e.collHeads job).foldl (fun d q => d.runHead q (fun x => x.typ = 20) Dev.collCheck Dev.collStart) e))))

/-! ### Bamat links (chapter 12) -/

/-- Training (R267, R268, R282, R283): an attempt that is due is counted and records its good lanes; enough of them give the port its
width, its IDENT to send and TRAINING, too few count as a failure, and the third in a row, or one in DOWN, leads to DOWN. A link
identification at a port that trains with lanes is shown; one that is the descriptor's, at a version both have, brings the port UP, or
DEGRADED with fewer than eight Bamat lanes, and one that is not puts it in MISMATCH, with EVT 0x0A11 where no version is common.
A flit at a usable Bamat port (R269 to R272): a bad one asks for the resend, a good one acknowledges and gives credits, resends where it
asks so, and, a DATA or IDLE flit that is the next of its sequence, is accepted, a DATA flit's content going to its channel.
An Ethernet frame (R289): a PAUSE, or a priority pause of priority 3, pauses its port; the frames of the peer give their 1 to 8 flits, and
any other is discarded and counted. A port with flits unacknowledged for 2 us sends them again; a lane lost from a port in UP or DEGRADED
leaves it DEGRADED with EVT 0x0A04, sending again, while at least four Bamat lanes remain, and DOWN otherwise. -/
def Obligations.PortsAndFlits : Prop :=
  (∀ (s : State) (k : Nat), s.dev.alive = true → k < 32 →
    (∀ good, s.dev.attemptDue k = false → exec (.trainingAttempt k good) s = .next s) ∧
    (∀ good lanes ok, s.dev.attemptDue k = true → trainLanes (s.dev.portMode k) good = (lanes, ok) →
      let d := s.dev.satFld (R.LNK_PORT_STAT k) F.LNK_PORT_STAT_ATTEMPTS 1
      let d := d.setFld (R.LNK_PORT_STAT k) F.LNK_PORT_STAT_LANES lanes.toNat
      let d := d.setFld (R.LNK_PORT_STAT k) F.LNK_PORT_STAT_WIDTH (if ok then laneCount lanes else 0)
      let d := d.updPort k (fun p => { p with attemptAt := d.now, failed := if ok then 0 else p.failed + 1 })
      exec (.trainingAttempt k good) s = .next (s.withDev
        (if ok then (d.updPort k (fun p => { p with ident := some (d.identFlit k) })).portTo k 1
         else if s.dev.portState k = 4 ∨ 3 ≤ (d.portSt k).failed then d.portTo k 4 else d.portTo k 1))) ∧
    (∀ peer : PeerId,
      (s.dev.portState k ≠ 1 ∨ s.dev.portWidth k = 0 → exec (.ident k peer) s = .next s) ∧
      (s.dev.portState k = 1 → 0 < s.dev.portWidth k →
        let e := s.dev.portEntry k
        let unused := decide (s.dev.portNeed k = 0)
        let version := s.dev.commonVersion peer.vers
        let same := unused || (peer.dev = tePeer e && peer.port = tePeerPort e && peer.topoId.toNat = topoId s.dev.lnk.topo)
        let m := if same = false then 2 else if version.isNone && !unused then 3 else 1
        let d := s.dev.setFld (R.LNK_PORT_PEER k) F.LNK_PORT_PEER_PEER_DEV peer.dev
        let d := (d.setFld (R.LNK_PORT_PEER k) F.LNK_PORT_PEER_PEER_PORT peer.port).setFld (R.LNK_PORT_PEER k) F.LNK_PORT_PEER_MATCH m
        (m = 1 →
          let d := d.setFld (R.LNK_PORT_STAT k) F.LNK_PORT_STAT_VER (version.getD 0)
          let d := d.updPort k (fun p => { PortSt.fresh with attemptAt := p.attemptAt, ident := p.ident })
          exec (.ident k peer) s = .next (s.withDev (d.portTo k (if d.portMode k = 1 ∧ d.portWidth k < 8 then 3 else 2)))) ∧
        (m ≠ 1 → exec (.ident k peer) s = .next (s.withDev
          (if version.isNone then (d.portTo k 5).raise { code := 0x0A11, unit := k, args := [peer.dev, peer.vers] } else d.portTo k 5)))))) ∧
  (∀ (s : State) (k : Nat), s.dev.alive = true → k < 32 →
    let d := s.dev
    (∀ f, d.portMode k = 1 → d.portUsable k = true →
      let ans := exec (.flitReceive k f) s
      let l := f.link.toNat
      let vc := bits l 4 2
      (flitGood f = false → ans = .next (s.withDev (d.answer k true none))) ∧
      (flitGood f = true →
        let e := d.updPort k (fun p => (p.acked d.now (bits l 32 19)).credited (bits l 36 34) (bits l 44 37))
        let e := (if l.testBit 33 then e.resend k else e).pumpPort k
        let gap := (bits l 18 5 + 2 ^ 14 - (e.portSt k).rxSeq) % 2 ^ 14
        let seen := (bits l 1 0 = 1 ∨ bits l 1 0 = 2) ∧ e.portUsable k = true
        let next := e.updPort k (fun p => { p with rxSeq := (p.rxSeq + 1) % 2 ^ 14 })
        (¬ seen → ans = .next (s.withDev e)) ∧
        (seen → gap ≠ 0 → ans = .next (s.withDev (e.answer k (decide (gap < 2 ^ 13)) none))) ∧
        (seen → gap = 0 → bits l 1 0 = 2 → ans = .next (s.withDev (next.answer k false none))) ∧
        (∀ g rest n kept, seen → gap = 0 → bits l 1 0 = 1 →
          let bs := (next.portSt k).rx.getD vc [] ++ f.content
          next.takePackets k vc (bs.length / 32 + 1) bs = (g, rest) →
          emptyFlits (bs.length - rest.length) ((g.portSt k).held.getD vc [] ++ [f.content.length]) = (n, kept) →
          ans = .next (s.withDev ((g.updPort k (fun p => { p with rx := setAt p.rx vc rest, held := setAt p.held vc kept })).answer k false
            (if n = 0 then none else some (vc, n))))))) ∧
    (∀ f, d.portMode k ≠ 1 ∨ d.portUsable k = false → exec (.flitReceive k f) s = .next s) ∧
    (∀ mac ty vlan body, d.portMode k ≠ 2 → d.portMode k ≠ 3 → exec (.ethFrame k mac ty vlan body) s = .next s) ∧
    (∀ mac ty vlan, d.portMode k = 2 ∨ d.portMode k = 3 →
      (∀ q, exec (.ethFrame k mac ty vlan (.pause q)) s = .next (s.withDev (if ty = 0x8808 then d.pausePort k q else d.discardAt k))) ∧
      (∀ qs, exec (.ethFrame k mac ty vlan (.pfc qs)) s = .next (s.withDev
        (if ty = 0x8808 then (qs.getD 3 none).elim d (fun q => d.pausePort k q) else d.discardAt k))) ∧
      (∀ fs, exec (.ethFrame k mac ty vlan (.flits fs)) s = .next (s.withDev
        (if mac = teMac (d.portEntry k) ∧ ty = 0x88B5 ∧ vlan = teVlan (d.portEntry k) ∧ fs ≠ [] ∧ fs.length ≤ 8 then
          fs.foldl (fun d f => if d.portUsable k then d.flitIn k f else d) d else d.discardAt k)))) ∧
    ((d.portSt k).retry ≠ [] → (d.portSt k).ackAt + 2000 ≤ d.now → exec (.resendTimeout k) s = .next (s.withDev (d.resend k))) ∧
    ((d.portSt k).retry = [] ∨ d.now < (d.portSt k).ackAt + 2000 → exec (.resendTimeout k) s = .next s) ∧
    (∀ lane, lane < 8 →
      let lanes := d.fld (R.LNK_PORT_STAT k) F.LNK_PORT_STAT_LANES
      let on := (d.portState k = 2 ∨ d.portState k = 3) ∧ lanes.testBit lane = true
      let e := (d.satFld (R.LNK_PORT_ERR k) F.LNK_PORT_ERR_LANE_DROPS 1).setFld (R.LNK_PORT_STAT k) F.LNK_PORT_STAT_LANES (lanes - 2 ^ lane)
      let w := e.portWidth k - 1
      (¬ on → exec (.laneDropped k lane) s = .next s) ∧
      (on → e.portMode k = 1 → 4 ≤ w →
        let e := e.setFld (R.LNK_PORT_STAT k) F.LNK_PORT_STAT_WIDTH w
        exec (.laneDropped k lane) s = .next (s.withDev
          (((e.raise { code := 0x0A04, unit := k, args := [e.fld (R.LNK_PORT_PEER k) F.LNK_PORT_PEER_PEER_DEV, lane] }).portTo k 3).resend k))) ∧
      (on → (e.portMode k ≠ 1 ∨ w < 4) →
        let e := e.setFld (R.LNK_PORT_STAT k) F.LNK_PORT_STAT_WIDTH 0
        exec (.laneDropped k lane) s = .next (s.withDev ((e.updPort k (fun x => { x with attemptAt := e.now, failed := 3 })).portTo k 4)))))

/-- Every remote operation is taken as a packet is (R273, R276, R277); what it does at its device (R279, R280, R288): a WRITE to the
collective or audit endpoints is refused by the status of its job or goes to its engine; any other WRITE is refused by that status, a
range its context does not hold giving RANGE, or is stored and acknowledged; a READ is refused by a status below UE, by UE where a
granule cannot be read, by a status above, or is answered with its bytes padded to a multiple of 8; SIGNAL and SRESET act on their object, a
barred one refused and counted; an answer retires the operation it answers, and goes to the engine it is for; a refusal stops the tile
that issued the operation, with EVT 0x0A31, or is told to its engine. A RING notice that changes its segment is marked, sent on and may
change the tempo parent (R278).
A tempo exchange over a usable Bamat port sends the port's time and keeps its delay and offset; with the parent, and this device not the
master, the offset is shown in steps of 125 ps, tempo is adjusted by it and the error judged; over any other port nothing happens (R284,
R285). -/
def Obligations.RemoteOperationsAndTempo : Prop :=
  (∀ (s : State) (p : BamatPkt), s.dev.alive = true →
    (∃ here, Takes p 1 s here (exec (.bamatWrite p) s) ∧ ∀ d : Dev,
      let c := d.jobCtx p.job
      let status := d.bamatStatus p.job (!d.owns c p.addr p.payload.length)
      (p.op = 1 → (p.dstep = 322 ∨ p.dstep = 324) →
        (∀ st, d.bamatStatus p.job false = some st → here d = d.bamatRefuse p st) ∧
        (d.bamatStatus p.job false = none → here d = d.bamatArrives p)) ∧
      (p.op = 1 → p.dstep ≠ 322 → p.dstep ≠ 324 →
        (∀ st, status = some st → here d = d.bamatRefuse p st) ∧
        (∀ e g, status = none → d.memWriteRun { ctx := c } p.addr p.payload = (e, g) →
          here d = e.bamatSend (answerTo p e.selfDev 4 0 [])))) ∧
    (∃ here, Takes p 2 s here (exec (.bamatRead p) s) ∧ ∀ d : Dev,
      let c := d.jobCtx p.job
      let status := d.bamatStatus p.job (decide (p.arg < 8) || decide (1024 < p.arg) || !d.owns c p.addr p.arg)
      (∀ st, status = some st → st < 7 → here d = d.bamatRefuse p st) ∧
      (status.all (fun st => decide (7 ≤ st)) = true →
        (∀ e a, d.memCheckRead { ctx := c } p.addr p.arg = (e, some a) → here d = e.bamatRefuse p 7) ∧
        (∀ e, d.memCheckRead { ctx := c } p.addr p.arg = (e, none) →
          (∀ st, status = some st → here d = e.bamatRefuse p st) ∧
          (status = none → here d = e.bamatSend (answerTo p e.selfDev 3 p.vc (e.memBytes p.addr p.arg ++
            List.replicate (roundUp (e.memBytes p.addr p.arg).length 8 - (e.memBytes p.addr p.arg).length) (0 : Byte))))))) ∧
    Takes p 3 s (fun d =>
      if p.dstep = 322 then (d.answered 2 p).gatherData p else if p.dstep = 324 then (d.answered 2 p).auditData p else d.answered 2 p)
      (exec (.bamatRdata p) s) ∧
    Takes p 4 s (fun d => if p.dstep = 321 then d.kvAcked p else d.answered 1 p) (exec (.bamatAck p) s) ∧
    (∃ sig sre, Takes p 6 s sig (exec (.bamatSignal p) s) ∧ Takes p 7 s sre (exec (.bamatSreset p) s) ∧ ∀ d : Dev,
      let o := p.addr % 2 ^ 14
      let status := fun (op : SyncOp) => d.bamatStatus p.job (!d.agentMay (.port 0 p.job) o op)
      (∀ st, status .signal = some st → st ≠ 3 → sig d = d.bamatRefuse p st) ∧
      (status .signal = some 3 → sig d = d.syncRefused.bamatRefuse p 3) ∧ (status .signal = none → sig d = d.syncSignal o p.arg) ∧
      (∀ st, status .sreset = some st → st ≠ 3 → sre d = d.bamatRefuse p st) ∧
      (status .sreset = some 3 → sre d = d.syncRefused.bamatRefuse p 3) ∧ (status .sreset = none → sre d = d.syncReset o)) ∧
    Takes p 11 s (fun d =>
      let e := d.answered (bits p.arg 15 8) p
      if p.dstep < 256 then e.tileStop p.dstep (.fault 0x0A31) [p.srcdev, p.arg % 256, e.portToward p.srcdev]
      else if p.dstep = 321 then e.kvRefused p else if p.dstep = 322 then e.abandonedJob p.job p.srcdev
      else if p.dstep = 324 then e.auditRefused p else e) (exec (.refuse p) s)) ∧
  (∀ (s : State) (dim seg : Nat) (broken : Bool), s.dev.alive = true → dim < 5 → seg < 8 →
    let d := s.dev.arrivedTaken (fun q => q.op = 10 && q.arg = 5 + 256 * b2n broken && q.addr = 8 * dim + seg)
    exec (.noticeRing dim seg broken) s = .next (s.withDev
      (if d.segBroken dim seg = broken then d else ((d.ringMark dim seg broken).ringNotice dim seg broken).parentFollow))) ∧
  (∀ (s : State) (k : Nat) (t1 t2 t3 t4 err : Int), s.dev.alive = true → k < 32 →
    let ans := exec (.tempoExchange k ⟨t1, t2, t3, t4⟩ err) s
    (s.dev.portUsable k = false ∨ s.dev.portMode k ≠ 1 → ans = .next s) ∧
    (s.dev.portUsable k = true → s.dev.portMode k = 1 →
      let offset := ((t2 - t1) + (t3 - t4)) / 2
      let delay := ((t4 - t1) - (t3 - t2)) / 2
      let d := (s.dev.sendTime k).updPort k (fun p => { p with delay := delay, offset := offset })
      (d.ownMaster = true ∨ d.fld R.LNK_TEMPO_STAT F.LNK_TEMPO_STAT_PARENT ≠ k → ans = .next (s.withDev d)) ∧
      (d.ownMaster = false → d.fld R.LNK_TEMPO_STAT F.LNK_TEMPO_STAT_PARENT = k →
        ans = .next (s.withDev
          (((d.setFld R.LNK_TEMPO_STAT F.LNK_TEMPO_STAT_OFFSET (offset / 125 % 65536).toNat).tempoAdjust offset).tempoJudge err.natAbs)))))

/-! ### Host rings and recovery (chapter 13) -/

/-- Doorbells of a function whose link is up (R303): SQ_TAIL makes the host's writes that come before it, and the doorbell pages of BAR2
take a whole write with the upper half 0, at offset 0 of the page of a queue as its TAIL, at offset 8 as its HEAD; a page that no queue
has, a partial size, a nonzero upper half or another offset is discarded, counted in BADDOOR, with EVT 0x0B13. HIF_ADMQ_TAIL and
HIF_ADMQ_HEAD do the same to an admin queue that is on. A TAIL or HEAD that keeps its ring legal is taken; any other puts the queue into
ERROR, counted in BADDOOR, with EVT 0x0B10. A function that does not exist or whose link is down changes nothing. -/
def Obligations.Doorbells : Prop :=
  (∀ (s : State) (fn off size : Nat) (val : Word) (hw : HostWrites), s.dev.alive = true → fn < 64 →
    (s.dev.host.linkUp = false ∨ s.dev.fnExists fn = false →
      exec (.sqTail fn off size val hw) s = .next s ∧ exec (.cqHead fn off size val) s = .next s ∧
      exec (.hifAdmqTail fn size val hw) s = .next s ∧ exec (.hifAdmqHead fn size val) s = .next s) ∧
    (s.dev.host.linkUp = true → s.dev.fnExists fn = true →
      let whole := size = 8 ∧ val.toNat < 2 ^ 32
      let door := fun (d : Dev) => d.pageQueue fn (off / 4096)
      let discards := fun (d : Dev) (at_ : Nat) =>
        (d.satFld R.HIF_ERR F.HIF_ERR_BADDOOR 1).raise { code := 0x0B13, fn := fn, args := [at_] }
      let posted := s.dev.hostPosts fn hw
      let sq := exec (.sqTail fn off size val hw) s
      let cq := exec (.cqHead fn off size val) s
      (∀ q, door posted = some q → whole → off % 4096 = 0 → sq = .next (s.withDev (posted.tailWrite q val.toNat))) ∧
      (∀ q, door posted = some q → whole → off % 4096 = 8 → sq = .next (s.withDev (posted.headWrite q val.toNat))) ∧
      (∀ q, door s.dev = some q → whole → off % 4096 = 0 → cq = .next (s.withDev (s.dev.tailWrite q val.toNat))) ∧
      (∀ q, door s.dev = some q → whole → off % 4096 = 8 → cq = .next (s.withDev (s.dev.headWrite q val.toNat))) ∧
      (door posted = none ∨ ¬ whole ∨ (off % 4096 ≠ 0 ∧ off % 4096 ≠ 8) → sq = .next (s.withDev (discards posted off))) ∧
      (door s.dev = none ∨ ¬ whole ∨ (off % 4096 ≠ 0 ∧ off % 4096 ≠ 8) → cq = .next (s.withDev (discards s.dev off))) ∧
      (posted.adminOn fn = true → whole →
        exec (.hifAdmqTail fn size val hw) s = .next (s.withDev (posted.tailWrite (4096 + fn) val.toNat))) ∧
      (posted.adminOn fn = false ∨ ¬ whole →
        exec (.hifAdmqTail fn size val hw) s = .next (s.withDev (discards posted (R.HIF_ADMQ_TAIL fn)))) ∧
      (s.dev.adminOn fn = true → whole →
        exec (.hifAdmqHead fn size val) s = .next (s.withDev (s.dev.headWrite (4096 + fn) val.toNat))) ∧
      (s.dev.adminOn fn = false ∨ ¬ whole →
        exec (.hifAdmqHead fn size val) s = .next (s.withDev (discards s.dev (R.HIF_ADMQ_HEAD fn)))))) ∧
  (∀ (d : Dev) (q v : Nat) (x : Queue), d.queue q = some x →
    let errs := (((d.queueError q).satFld R.HIF_ERR F.HIF_ERR_BADDOOR 1).raise
      { code := 0x0B10, fn := d.queueFn q, ctx := d.queueCtx q, args := [q] }).orphanExit (d.queueFn q)
    (tailOk x v = true → d.tailWrite q v = d.updQueue q (fun x => { x with tail := v })) ∧
    (headOk x v = true → d.headWrite q v = d.updQueue q (fun x => { x with head := v })) ∧
    (tailOk x v = false → d.tailWrite q v = errs) ∧ (headOk x v = false → d.headWrite q v = errs))

/-- The link (R292, R316, R317): LINK_DOWN of a link that is up empties speed and width, counts, raises EVT 0x0B02, clears configuration
space and takes every function with an admin queue or queues of its own, not yet orphaned, into orphan mode for reason 2; HOT_RESET clears
and orphans likewise for reason 3, the link staying up. LINK_UP at 8 to 64 GT/s and x8 or x16 (at 64 GT/s x16 alone), of a link that is down
with power, shows both with EVT 0x0B01, and below 64 GT/s or x16 EVT 0x0B03 too; a narrower one raises EVT 0x0B03 alone. BME_CLEARED takes
its function's mastering and orphans it for reason 4. What names a link or function not so changes nothing.
HIF_ADMQ_CFG (R302, R321): a whole write sets LOG2SIZE, from 6 to 16 and not changed while the queue is on, else it is kept and the write
recorded as reserved, as reserved bits are; ENABLE then starts or stops the queue. A heartbeat of an armed function starts its watch again,
an upper half that is not 0 recorded as reserved (R316, R321); a partial write of either is a host-range event (R6). 500 ms without a
heartbeat raise EVT 0x0B33 once, 1 s takes the function into orphan mode for reason 1 (R316). -/
def Obligations.HostLinkAndHeartbeat : Prop :=
  (∀ (s : State), s.dev.alive = true →
    let clear := fun (d : Dev) => ({ d with host := { d.host with bme := [], vfs := 0, cfg := [] } } : Dev)
    let orphan := fun (reason : Nat) (d : Dev) (f : Nat) =>
      if d.adminOn f || (!(d.fnQueues f).isEmpty && !(d.fn f).orphan) then d.orphanEnter f reason else d
    (s.dev.host.linkUp = false → exec .linkDown s = .next s ∧ exec .hotReset s = .next s) ∧
    (s.dev.host.linkUp = true →
      let d := { s.dev with host := { s.dev.host with linkUp := false } }
      let d := (d.setFld R.HIF_LINK F.HIF_LINK_SPEED 0).setFld R.HIF_LINK F.HIF_LINK_WIDTH 0
      let d := (d.wrapFld R.HIF_LINK F.HIF_LINK_DOWNS 1).raise { code := 0x0B02 }
      exec .linkDown s = .next (s.withDev ((List.range 64).foldl (orphan 2) (clear d))) ∧
      exec .hotReset s = .next (s.withDev ((List.range 64).foldl (orphan 3) (clear s.dev)))) ∧
    (∀ speed width,
      let may := s.dev.host.linkUp = false ∧ s.dev.pins.dark = false ∧ 3 ≤ speed ∧ speed ≤ 6 ∧ ¬ (speed = 6 ∧ width = 8)
      let slow := fun (d : Dev) => d.raise { code := 0x0B03, args := [speed, width] }
      (¬ may → exec (.linkUp speed width) s = .next s) ∧
      (may → width < 8 → exec (.linkUp speed width) s = .next (s.withDev (slow s.dev))) ∧
      (may → 8 < width → width ≠ 16 → exec (.linkUp speed width) s = .next s) ∧
      (may → width = 8 ∨ width = 16 →
        let d := { s.dev with host := { s.dev.host with linkUp := true } }
        let d := (d.setFld R.HIF_LINK F.HIF_LINK_SPEED speed).setFld R.HIF_LINK F.HIF_LINK_WIDTH width
        let d := d.raise { code := 0x0B01, args := [speed, width] }
        exec (.linkUp speed width) s = .next (s.withDev (if speed < 6 ∨ width < 16 then slow d else d)))) ∧
    (∀ f, f < 64 →
      (s.dev.host.bme.contains f = false → exec (.bmeCleared f) s = .next s) ∧
      (s.dev.host.bme.contains f = true → exec (.bmeCleared f) s = .next (s.withDev
        (orphan 4 { s.dev with host := { s.dev.host with bme := s.dev.host.bme.filter (· ≠ f) } } f))))) ∧
  (∀ (s : State) (fn size : Nat) (val : Word), s.dev.alive = true → fn < 64 →
    let partly := fun (off : Nat) =>
      s.withDev ((s.dev.satFld R.HIF_ERR F.HIF_ERR_NARROW 1).raise { code := 0x0B13, fn := fn, args := [off] })
    let cfg := exec (.hifAdmqCfg fn size val) s
    let beat := exec (.hifHeartbeat fn size val) s
    (s.dev.host.linkUp = false → cfg = .next s ∧ beat = .next s) ∧
    (s.dev.host.linkUp = true → size ≠ 8 → cfg = .next (partly (R.HIF_ADMQ_CFG fn))) ∧
    (s.dev.host.linkUp = true → size = 8 →
      let v := val.toNat
      let off := R.HIF_ADMQ_CFG fn
      let on := s.dev.adminOn fn
      let keeps := !(decide (6 ≤ v % 32) && decide (v % 32 ≤ 16)) || (on && v % 32 ≠ s.dev.fld off F.HIF_ADMQ_CFG_LOG2SIZE)
      let d := if keeps then s.dev else s.dev.setFld off F.HIF_ADMQ_CFG_LOG2SIZE (v % 32)
      let d := if keeps || bits v 7 5 ≠ 0 || v / 2 ^ 11 ≠ 0 then d.reservedWrite fn off else d
      (v.testBit 8 = true → on = false → cfg = .next (s.withDev (d.adminStart fn))) ∧
      (v.testBit 8 = false → on = true → cfg = .next (s.withDev (d.adminStop fn))) ∧
      (v.testBit 8 = on → cfg = .next (s.withDev d))) ∧
    (s.dev.host.linkUp = true → s.dev.fnExists fn = false → beat = .next s) ∧
    (s.dev.host.linkUp = true → s.dev.fnExists fn = true → size ≠ 8 → beat = .next (partly (R.HIF_HEARTBEAT fn))) ∧
    (s.dev.host.linkUp = true → s.dev.fnExists fn = true → size = 8 →
      let d := if 2 ^ 32 ≤ val.toNat then s.dev.reservedWrite fn (R.HIF_HEARTBEAT fn) else s.dev
      beat = .next (s.withDev (if d.hbArmed fn then d.updFn fn (fun x => { x with hbLast := d.now, hbLate := false }) else d))) ∧
    (let late := s.dev.hbArmed fn && !(s.dev.fn fn).hbLate && decide ((s.dev.fn fn).hbLast + 500000000 ≤ s.dev.now)
     exec (.heartbeatLate fn) s = .next (s.withDev
      (if late then (s.dev.updFn fn (fun x => { x with hbLate := true })).raise { code := 0x0B33, fn := fn } else s.dev))) ∧
    exec (.heartbeatTimeout fn) s = .next (s.withDev
      (if s.dev.hbArmed fn && decide ((s.dev.fn fn).hbLast + 1000000000 ≤ s.dev.now) then s.dev.orphanEnter fn 1 else s.dev)))

/-- DESCRIPTOR_FETCH (R295, R304): a queue that may fetch and whose host answers takes the next 64 bytes of its ring as a fetched
descriptor and checks it; a host that does not answer leaves the failed access and the queue in ERROR with EVT 0x0B11, as a completion
time-out of a fetch does; a queue that is not there, or may not fetch, changes nothing. A completion time-out of a running COPY that reads
host memory ends it with ACCESS, or ORPHANED where the function is orphaned (R295, R317). DESCRIPTOR_TIMEOUT (R310): of a running
descriptor past a TIMEOUT_US that is not 0, an admin one ends with TIMEOUT and EVT 0x0B17; a work one is marked, and its queue is resigned
with EVT 0x0B17; any other changes nothing. -/
def Obligations.FetchAndTimeout : Prop :=
  ∀ (s : State) (q : Nat), s.dev.alive = true → q < 4160 →
    (s.dev.queue q = none → exec (.descriptorFetch q) s = .next s ∧ exec (.completionTimeout q none) s = .next s) ∧
    (∀ x, s.dev.queue q = some x →
      let fails := s.withDev (((s.dev.accessFailed).queueError q).raise
        { code := 0x0B11, fn := s.dev.queueFn q, ctx := s.dev.queueCtx q, args := [q] })
      (x.mayFetch = false → exec (.descriptorFetch q) s = .next s ∧ exec (.completionTimeout q none) s = .next s) ∧
      (∀ raw, x.mayFetch = true → s.dev.hostRead x.fn (x.sq + x.fetch % 2 ^ x.log2 * 64) 64 = some raw →
        let y : Desc := { n := x.epoch * 2 ^ 32 + x.fetch, raw := raw, table := [], phase := .fetched, ready := s.dev.now, start := 0,
                          astat := 0, energy := 0, urgent := false, tiles := [], expired := false }
        exec (.descriptorFetch q) s = .next (s.withDev
          ((s.dev.updQueue q (fun x => { x with fetch := mod32 (x.fetch + 1), fetched := x.fetched ++ [y] })).fetched q y))) ∧
      (x.mayFetch = true → s.dev.hostRead x.fn (x.sq + x.fetch % 2 ^ x.log2 * 64) 64 = none →
        exec (.descriptorFetch q) s = .next fails) ∧
      (x.mayFetch = true → exec (.completionTimeout q none) s = .next fails)) ∧
    (∀ n, s.dev.desc q n = none → exec (.completionTimeout q (some n)) s = .next s ∧ exec (.descriptorTimeout q n) s = .next s) ∧
    (∀ n y, s.dev.desc q n = some y →
      let copies := y.typ = 12 ∧ y.phase = .running ∧ (y.body 0x18 1).testBit 0 = true
      let due := y.timeoutUs ≠ 0 ∧ y.phase = .running ∧ y.start + y.timeoutUs * 1000 ≤ s.dev.now ∧ y.expired = false
      (¬ copies → exec (.completionTimeout q (some n)) s = .next s) ∧
      (copies → exec (.completionTimeout q (some n)) s = .next (s.withDev
        (if s.dev.suppressed q then s.dev.complete q n stOrphaned 0 else (s.dev.hostFailed q n).complete q n stAccess (y.body 0 8)))) ∧
      (¬ due → exec (.descriptorTimeout q n) s = .next s) ∧
      (due → isAdmin q = true →
        exec (.descriptorTimeout q n) s = .next (s.withDev ((s.dev.raise (s.dev.descEvent 0x0B17 q n)).complete q n stTimeout 0))) ∧
      (due → isAdmin q = false →
        let d := (s.dev.raise (s.dev.descEvent 0x0B17 q n)).updDesc q n (fun y => { y with expired := true })
        exec (.descriptorTimeout q n) s = .next (s.withDev (d.resignStart (d.queueFn q) 0 q
          (if d.queueFn q = 0 then q else ((d.queue q).map (fun y => y.loc)).getD 0)))))

/-- A write of HIF_RESIGN from a function whose link is up (R311): a queue, a context, a function or the device that its function may name
starts a resign over what it covers, whose queues, counts and target are shown with EVT 0x0B20, and its targets stop; any other sets REFUSED
with EVT 0x0B22. RESIGN_DONE ends, in order, the resigns of its function that have run out and that no earlier one covers (R312, R314).
FLR_VF resets its function's configuration and resigns it; FLR_PF does so for function 0, its VFs vanishing, each with a resign; VF Enable
cleared makes them vanish (R294). -/
def Obligations.ResignsAndResets : Prop :=
  (∀ (d : Dev) (fn scope target shown : Nat),
    let qs := d.covered scope target
    let off := R.HIF_RESIGN_STAT fn
    let e := (d.setFld off F.HIF_RESIGN_STAT_BUSY 1).setFld off F.HIF_RESIGN_STAT_SCOPE scope
    let e := (e.setFld off F.HIF_RESIGN_STAT_TARGET shown).setFld off F.HIF_RESIGN_STAT_STOPPED 0
    let e := (e.setFld off F.HIF_RESIGN_STAT_DROPPED 0).raise { code := 0x0B20, fn := fn, args := [scope, shown] }
    let r : Resign := { fn := fn, scope := scope, target := target, queues := qs, stopped := (d.resignCounts qs).1,
                        dropped := (d.resignCounts qs).2 }
    d.resignStart fn scope target shown = ({ e with resigns := e.resigns ++ [r] } : Dev).resignStops scope target) ∧
  ∀ (s : State) (fn target : Nat), s.dev.alive = true → fn < 64 →
    let refused := fun (scope target : Nat) => s.withDev
      ((s.dev.setFld (R.HIF_RESIGN_STAT fn) F.HIF_RESIGN_STAT_REFUSED 1).raise { code := 0x0B22, fn := fn, args := [scope, target] })
    (s.dev.host.linkUp = false ∨ s.dev.fnExists fn = false →
      exec (.resignQueue fn target) s = .next s ∧ exec (.resignContext fn target) s = .next s ∧
      exec (.resignFunction fn target) s = .next s ∧ exec (.resignDevice fn) s = .next s) ∧
    (s.dev.host.linkUp = true → s.dev.fnExists fn = true →
      let holds := (look target s.dev.ctxs).any (fun c => fn = 0 || c.fn = fn)
      let names := s.dev.fnExists target && (fn = 0 || target = fn)
      (∀ q, s.dev.resignQueueOf fn target = some q →
        exec (.resignQueue fn target) s = .next (s.withDev (s.dev.resignStart fn 0 q target))) ∧
      (s.dev.resignQueueOf fn target = none → exec (.resignQueue fn target) s = .next (refused 0 target)) ∧
      exec (.resignContext fn target) s = .next (if holds then s.withDev (s.dev.resignStart fn 1 target target) else refused 1 target) ∧
      exec (.resignFunction fn target) s = .next (if names then s.withDev (s.dev.resignStart fn 2 target target) else refused 2 target) ∧
      exec (.resignDevice fn) s = .next (if fn = 0 then s.withDev (s.dev.resignStart fn 3 0 0) else refused 3 0)) ∧
    (let mine := (s.dev.resignsHeld [] s.dev.resigns).filter (fun e => e.2 = false && e.1.fn = fn && e.1.scope ≠ 4 && s.dev.resignOver e.1)
     exec (.resignDone fn) s = .next (s.withDev ((mine.map (·.1)).foldl Dev.resignRunOut s.dev))) ∧
    (let reset := fun (f : Nat) =>
       ({ s.dev with host := { s.dev.host with bme := s.dev.host.bme.filter (· ≠ f), cfg := drop1 f s.dev.host.cfg } } : Dev)
     let vanish := fun (d : Dev) => ((List.range d.host.vfs).map (· + 1)).foldl (fun d f => d.resignStart f 2 f f)
       ({ d with host := { d.host with vfs := 0, bme := d.host.bme.filter (· = 0), cfg := d.host.cfg.filter (fun e => e.1 = 0) } } : Dev)
     exec (.flrVf fn) s = .next (s.withDev (if fn ≠ 0 && s.dev.fnExists fn then (reset fn).resignStart fn 2 fn fn else s.dev)) ∧
     exec .flrPf s = .next (s.withDev ((vanish (reset 0)).resignStart 0 2 0 0)) ∧
     exec .vfEnableCleared s = .next (s.withDev (vanish s.dev)))

/-- Accesses to BAR0 from a function whose link is up (R6 to R10, R298): an offset outside its BAR0 changes nothing.
A whole aligned write of a function's page gives QUOTA its quota from the PF, is without effect on another function's page, rings the admin
queue's doorbells, starts, stops or beats it, or asks for a resign; one of a mailbox doorbell rings it; one of any other register writes its
RW bits and clears its W1C bits that are written 1, unless the value is refused; bits that are not defined, a refused value and a register
that is not there are a reserved write, counted and told. A partial or misaligned write is BADDOOR at the function's own admin doorbells and
else NARROW, with EVT 0x0B13. A whole aligned read returns the register's present value and then clears its RC bits; an aligned half
returns that half and clears nothing; any other read returns 0 and is NARROW with EVT 0x0B13. -/
def Obligations.RegisterAccess : Prop :=
  ∀ (s : State) (fn off size : Nat) (val : Word), s.dev.alive = true → fn < 64 → s.dev.host.linkUp = true → s.dev.fnExists fn = true →
    let w := exec (.registerWrite fn off size val) s
    let reads := fun (o : Host.Outcome State Fault Refusal) => exec (.rcRead fn off size) s = o ∧ exec (.malformedRead fn off size) s = o
    (bar0Place fn off = none → w = .next s ∧ reads (.next s)) ∧
    (∀ g, bar0Place fn off = some g →
      let d := s.dev
      let stray := (regRow g).elim val (fun r => val &&& ~~~ BitVec.ofNat 64 r.defined)
      let told := if stray ≠ 0 then d.reservedWrite fn g else d
      let goes := fun (e : Dev) => w = .next (s.withDev e)
      let f := (g - 0x10000) / 0x1000
      let r := g % 0x1000
      let page := 0x10000 ≤ g ∧ g < 0x50000
      let door := 0x101010 ≤ g ∧ g < 0x101110 ∧ g % 32 = 16
      (¬ (size = 8 ∧ g % 8 = 0) →
        (g = R.HIF_ADMQ_TAIL fn ∨ g = R.HIF_ADMQ_HEAD fn → goes ((d.satFld R.HIF_ERR F.HIF_ERR_BADDOOR 1).raise { code := 0x0B13, fn := fn, args := [g] })) ∧
        (g ≠ R.HIF_ADMQ_TAIL fn → g ≠ R.HIF_ADMQ_HEAD fn →
          goes ((d.satFld R.HIF_ERR F.HIF_ERR_NARROW 1).raise { code := 0x0B13, fn := fn, args := [g] }))) ∧
      (size = 8 → g % 8 = 0 →
        (page → r = 0x08 → goes (told.quotaWrite fn f val)) ∧
        (page → r ≠ 0x08 → fn ≠ f → goes told) ∧
        (page → fn = f → r = 0x20 → goes (d.adminCfg fn val)) ∧
        (page → fn = f → r = 0x28 → goes (d.adminDoor fn 8 val g Dev.tailWrite)) ∧
        (page → fn = f → r = 0x30 → goes (d.adminDoor fn 8 val g Dev.headWrite)) ∧
        (page → fn = f → r = 0x38 → goes (d.heartbeat fn val)) ∧
        (page → fn = f → r = 0x40 → goes (d.resignReg fn val)) ∧
        (door → goes (d.doorMailbox ((g - 0x101010) / 32) val)) ∧
        ((page ∧ fn = f ∧ r ≠ 0x08 ∧ r ≠ 0x20 ∧ r ≠ 0x28 ∧ r ≠ 0x30 ∧ r ≠ 0x38 ∧ r ≠ 0x40) ∨ (¬ page ∧ ¬ door) →
          (d.refuses g val = true → goes (d.reservedWrite fn g)) ∧
          (d.refuses g val = false → regRow g = none → goes told) ∧
          (∀ k, d.refuses g val = false → regRow g = some k →
            let rw_ := BitVec.ofNat 64 k.rw
            let w1c := BitVec.ofNat 64 k.w1c
            goes (if rw_ = 0 && w1c = 0 then told else
              told.setReg g (((told.reg g &&& ~~~ rw_) ||| (val &&& rw_)) &&& ~~~ (val &&& w1c)))))) ∧
      (size = 8 → g % 8 = 0 →
        let e := (d.accounted g).returns (d.live s.trust.svn g)
        let e := if g = R.MGT_FW_STAT then e.drew else e
        let rc := (regRow g).elim (0 : Word) (fun r => BitVec.ofNat 64 r.rc)
        reads (.next (s.withDev (if rc = 0 then e else e.setBits g rc 0)))) ∧
      (size = 4 → g % 4 = 0 →
        reads (.next (s.withDev
          (d.returns (BitVec.ofNat 64 ((d.live s.trust.svn (g / 8 * 8)).toNat / 2 ^ (g % 8 * 8) % 2 ^ 32)))))) ∧
      (¬ (size = 8 ∧ g % 8 = 0) → ¬ (size = 4 ∧ g % 4 = 0) →
        reads (.next (s.withDev (((d.returns 0).satFld R.HIF_ERR F.HIF_ERR_NARROW 1).raise { code := 0x0B13, fn := fn, args := [g] })))))

/-! ### The firmware's messages (chapters 14, 15 and 17) -/

/-- The doorbell and the services of the firmware's clock. A whole doorbell write rings its mailbox, which counts a bad doorbell where
it is BUSY and otherwise becomes BUSY with the value and the time kept and joins the order of service, any bit above the low 32 being a
reserved write; a write of another size is a host-range event, and with the link down only the host's own stores happen (R6, R7, R328).
URGENT time is charged in a new window, and its share runs out at 2.56 s of tile time with EVT 0x0C41 (R339); a full trace buffer raises
EVT 0x0C51 and stops tracing (R342); a timer that is due signals and is set for the next multiple of its period (R345). Otherwise each
of these events changes nothing but what is said here. -/
def Obligations.FirmwareEvents : Prop :=
  ∀ (s : State), s.dev.alive = true →
    (∀ (mb size : Nat) (val : Word) (hw : HostWrites), mb < 8 →
      let d := s.dev.hostPosts 0 hw
      let e := if 2 ^ 32 ≤ val.toNat then d.reservedWrite 0 (R.MGT_MB_DOOR mb) else d
      let ans := exec (.mailboxDoorbell mb size val hw) s
      (d.host.linkUp = false → ans = .next (s.withDev d)) ∧
      (d.host.linkUp = true → size ≠ 8 →
        ans = .next (s.withDev ((d.satFld R.HIF_ERR F.HIF_ERR_NARROW 1).raise { code := 0x0B13, fn := 0, args := [R.MGT_MB_DOOR mb] }))) ∧
      (d.host.linkUp = true → size = 8 → e.fld (R.MGT_MB_STAT mb) F.MGT_MB_STAT_STATE = 1 →
        ans = .next (s.withDev (e.satFld R.HIF_ERR F.HIF_ERR_BADDOOR 1))) ∧
      (d.host.linkUp = true → size = 8 → ¬ e.fld (R.MGT_MB_STAT mb) F.MGT_MB_STAT_STATE = 1 →
        let g := (e.setFld (R.MGT_MB_STAT mb) F.MGT_MB_STAT_STATE 1).updMbox mb
          (fun x => { x with door := some (val.toNat % 2 ^ 32, e.now) })
        ans = .next (s.withDev ({ g with fw := { g.fw with order := g.fw.order ++ [mb] } } : Dev).takeRequests))) ∧
    (exec .urgentWindow s = .next (s.withDev
      (if s.dev.fw.urgentWindow < s.dev.now / 40000000 then s.dev.urgentAccount.pass else s.dev))) ∧
    (
      let d := s.dev.urgentAccount
      exec .urgentSpent s = .next (s.withDev
        (if 2560000000 ≤ d.fw.urgentNs ∧ d.fld R.MGT_SCHED F.MGT_SCHED_SPENT ≠ 1 ∧ d.fwRuns = true then
          (d.setFld R.MGT_SCHED F.MGT_SCHED_SPENT 1).raise { code := 0x0C41 } else d))) ∧
    (exec .traceFull s = .next (s.withDev
      (if s.dev.fld R.MGT_TRACE F.MGT_TRACE_FULL = 1 ∧ s.dev.fld R.MGT_TRACE F.MGT_TRACE_ENABLE = 1 ∧ s.dev.fwRuns = true then
        (s.dev.raise { code := 0x0C51 }).setFld R.MGT_TRACE F.MGT_TRACE_ENABLE 0 else s.dev))) ∧
    (∀ i, i < 4 →
      let x := s.dev.timer i
      let d := { s.dev with timers := put i { x with next := (s.dev.now / x.period + 1) * x.period } s.dev.timers }
      exec (.timerExpiry i) s = .next (s.withDev
        (if x.enable = true ∧ x.next ≤ s.dev.now ∧ 0 < x.period then d.syncSignal x.obj x.value else s.dev)))

/-- Messages that ask what runs, that set the schedule, that use the shared resources and that open and close jobs (R327, R332, R334, R336,
R337, R342, R344, R345, R423), each as `Answers` says of its layout. VERSION_GET and Z8_INFO answer with their fields; SCHED_CFG and
Z8_AGING_SET take 10 to 1,000 ms; QUEUE_CLASS and Z8_PRIO_SET set the base class of a queue that exists, and the class in force too unless
its head is ready; Z8_GATE is answered NOT_SUPPORTED with EVT 0x0C60 whatever its body. TRACE_CFG, TIMER_CFG and GPIO_CFG SET take effect
when the host owns the resource or the message asks to enable nothing; a feature that asks for one it does not own is refused with BUSY and
EVT 0x0C50, naming resource, owner and feature; GPIO_CFG GET checks the other fields and reports the pins. JOB_OPEN: a body of another
length than 8 is INVALID; a device that is not active, or a job that is open, is BUSY; a field out of range, or a context that does not
exist, is INVALID; a level that is 0 or above LEVEL_MAX is LEVEL, MAJOR 2 meaning level 1; each of these raises EVT 0x0C12; otherwise the job
opens with EVT 0x0C10. JOB_CLOSE: a job with nothing open closes with EVT 0x0C11 once its traffic is purged; one in use is BUSY. -/
def Obligations.ServiceMessages : Prop :=
  (
    ∀ (s : State) (mb : Nat), mb < 8 →
      let d := s.dev
      let ageBad := fun (r : MbReq) => [(0, decide (r.fld 0 2 < 10) || decide (1000 < r.fld 0 2))]
      let aged := fun (r : MbReq) => s.withDev ((d.setFld R.MGT_SCHED F.MGT_SCHED_AGING_MS (r.fld 0 2)).mbAnswer mb r stOk [])
      let noQueue := fun (r : MbReq) => decide (4096 ≤ r.fld 0 2) || (d.queue (r.fld 0 2)).isNone
      let classed := fun (r : MbReq) (c : Nat) => s.withDev ((d.updQueue (r.fld 0 2) (fun x =>
        { x with base := c, cls := if x.readyHead.isSome then x.cls else c })).mbAnswer mb r stOk [])
      Answers s mb (fun r => r.opcode = 0x0001) 0 (fun _ => [])
        (fun r => s.withDev (d.mbAnswer mb r stOk (leBytes 2 d.fw.release ++ leBytes 1 d.fw.svn ++ leBytes 1 s.trust.svn ++
          [2, 0, 3, 2] ++ leBytes 1 (d.fld R.COL_CFG F.COL_CFG_LEVEL_MAX) ++ leBytes 1 (d.fld R.LNK_CFG F.LNK_CFG_VERS))))
        (exec (.versionGet mb) s) ∧
      Answers s mb (fun r => r.opcode = 0x0101) 0 (fun _ => [])
        (fun r => s.withDev (d.mbAnswer mb r stOk (leBytes 2 d.fw.release ++ leBytes 1 d.fw.svn))) (exec (.z8Info mb) s) ∧
      Answers s mb (fun r => r.opcode = 0x0050) 2 ageBad aged (exec (.schedCfg mb) s) ∧
      Answers s mb (fun r => r.opcode = 0x0302) 2 ageBad aged (exec (.z8AgingSet mb) s) ∧
      Answers s mb (fun r => r.opcode = 0x0051) 3 (fun r => [(0, noQueue r), (2, decide (3 ≤ r.fld 2 1))])
        (fun r => classed r (r.fld 2 1)) (exec (.queueClass mb) s) ∧
      Answers s mb (fun r => r.opcode = 0x0301) 3 (fun r => [(0, noQueue r), (2, decide (8 ≤ r.fld 2 1))])
        (fun r => classed r (if r.fld 2 1 ≤ 1 then 0 else if r.fld 2 1 ≤ 5 then 1 else 2)) (exec (.z8PrioSet mb) s) ∧
      ((∀ r, d.serves mb r → r.opcode ≠ 0x0402) → exec (.z8Gate mb) s = .next s) ∧
      (∀ r, d.serves mb r → r.opcode = 0x0402 →
        exec (.z8Gate mb) s = .next (s.withDev ((d.raise { code := 0x0C60, args := [mb, r.opcode] }).mbAnswer mb r mbNotSupported [])))) ∧
  (
    ∀ (s : State) (mb : Nat), mb < 8 →
      let d := s.dev
      let refused := fun (r : MbReq) (res : Nat) => s.withDev
        ((d.raise { code := 0x0C50, unit := res, args := [res, d.owner res, 2] }).mbAnswer mb r stBusy [])
      Answers s mb (fun r => r.opcode = 0x40) 36
        (fun r => [(0, decide (2 ≤ r.fld 0 1)), (1, decide (2 ≤ r.fld 1 1)), (2, r.fld 2 2 ≠ 0),
          (4, maskReserved (r.fld 4 8) || maskReserved (r.fld 12 8) || maskReserved (r.fld 20 8) || maskReserved (r.fld 28 8))])
        (fun r =>
          let e := (d.setFld R.MGT_TRACE F.MGT_TRACE_ENABLE (r.fld 0 1)).setFld R.MGT_TRACE F.MGT_TRACE_MODE (r.fld 1 1)
          let e := (e.setReg (R.MGT_TRACE_MASK 0) (BitVec.ofNat 64 (r.fld 4 8))).setReg (R.MGT_TRACE_MASK 1) (BitVec.ofNat 64 (r.fld 12 8))
          let e := (e.setReg (R.MGT_TRACE_MASK 2) (BitVec.ofNat 64 (r.fld 20 8))).setReg (R.MGT_TRACE_MASK 3) (BitVec.ofNat 64 (r.fld 28 8))
          let cleared := ((({ e with trace := [] } : Dev).setFld R.MGT_TRACE F.MGT_TRACE_FULL 0).setFld R.MGT_TRACE F.MGT_TRACE_WRITE 0)
          if r.fld 0 1 = 1 ∧ d.owner 12 ≠ 2 then refused r 12
            else s.withDev ((if r.fld 0 1 = 1 then cleared else e).mbAnswer mb r stOk []))
        (exec (.traceCfg mb) s) ∧
      Answers s mb (fun r => r.opcode = 0x71) 12
        (fun r => [(0, decide (4 ≤ r.fld 0 1)), (1, decide (2 ≤ r.fld 1 1)), (2, decide (16384 ≤ r.fld 2 2)),
          (4, decide (r.fld 4 4 < 10) || decide (60000000 < r.fld 4 4)),
          (2, decide (r.fld 1 1 = 1) && decide (d.fld (R.SYN_OBJ (r.fld 2 2)) F.SYN_OBJ_ALLOC ≠ 1))])
        (fun r =>
          let p := r.fld 4 4 * 1000
          let x : Timer := ⟨decide (r.fld 1 1 = 1), r.fld 2 2, p, r.fld 8 4, (d.now / p + 1) * p⟩
          if r.fld 1 1 = 1 ∧ d.owner (8 + r.fld 0 1) ≠ 2 then refused r (8 + r.fld 0 1)
            else s.withDev (({ d with timers := put (r.fld 0 1) x d.timers } : Dev).mbAnswer mb r stOk []))
        (exec (.timerCfg mb) s) ∧
      Answers s mb (fun r => r.opcode = 0x70 ∧ r.fld 0 1 ≠ 2) 8
        (fun r => [(0, r.fld 0 1 ≠ 1), (1, decide (8 ≤ r.fld 1 1)), (2, decide (3 ≤ r.fld 2 1)), (3, decide (4 ≤ r.fld 3 1)),
          (4, decide (1000 < r.fld 4 2)), (6, r.fld 6 2 ≠ 0)])
        (fun r => if d.owner (r.fld 1 1) ≠ 2 then refused r (r.fld 1 1) else s.withDev
          ((d.updGpio (r.fld 1 1) (fun x =>
            let filter := if r.fld 4 2 = 0 then x.filter else r.fld 4 2
            { x with mode := r.fld 2 1, flags := r.fld 3 1, filter := filter })).mbAnswer mb r stOk []))
        (exec (.gpioSet mb) s) ∧
      Answers s mb (fun r => r.opcode = 0x70 ∧ r.fld 0 1 = 2) 8
        (fun r => [(2, decide (3 ≤ r.fld 2 1)), (3, decide (4 ≤ r.fld 3 1)), (4, decide (1000 < r.fld 4 2)), (6, r.fld 6 2 ≠ 0)])
        (fun r => s.withDev (d.mbAnswer mb r stOk d.gpioReport))
        (exec (.gpioGet mb) s)) ∧
  (
    ∀ (s : State) (mb : Nat), mb < 8 →
      let d := s.dev
      ((∀ r, d.serves mb r → r.opcode ≠ 0x20) → exec (.jobOpen mb) s = .next s) ∧
      (∀ r, d.serves mb r → r.opcode = 0x20 →
        let job := r.fld 0 2
        let ctx := r.fld 2 2
        let level := if r.major = 2 then 1 else r.fld 4 1
        let bad := firstBad [(0, decide (4096 ≤ job)), (2, decide (1024 ≤ ctx) || (look ctx d.ctxs).isNone),
          (4, decide (r.major = 2) && decide (r.fld 4 1 ≠ 0)), (5, decide (3 ≤ r.fld 5 1)), (6, decide (2 ≤ r.fld 6 1)), (7, r.fld 7 1 ≠ 0)]
        let refusal := fun (j c : Nat) => d.raise { code := 0x0C12, job := j, ctx := c, fn := d.ctxFn c, args := [mb, 0x20] }
        let ans := fun (e : Dev) => exec (.jobOpen mb) s = .next (s.withDev e)
        (r.body.length ≠ 8 → ans ((refusal 0xFFFF 0xFFFF).mbAnswer mb r stInvalid (leBytes 4 8))) ∧
        (r.body.length = 8 → d.cfgState ≠ 2 ∨ (look job d.jobs).isSome = true → ans ((refusal job ctx).mbAnswer mb r stBusy [])) ∧
        (r.body.length = 8 → d.cfgState = 2 → look job d.jobs = none →
          (∀ off, bad = some off → ans ((refusal job ctx).mbAnswer mb r stInvalid (leBytes 4 (16 + off)))) ∧
          (bad = none → level = 0 ∨ d.fld R.COL_CFG F.COL_CFG_LEVEL_MAX < level → ans ((refusal job ctx).mbAnswer mb r stLevel [])) ∧
          (bad = none → 0 < level → level ≤ d.fld R.COL_CFG F.COL_CFG_LEVEL_MAX →
            let e := { d with jobs := put job ⟨ctx, level, r.fld 5 1, decide (r.fld 6 1 = 1), d.now⟩ d.jobs }
            let bit := (1 : Word) <<< (job % 64)
            let g := if r.fld 6 1 = 1 then e.setBits (R.NOC_JOB_DET (job / 64)) bit bit else e
            ans ((g.raise { code := 0x0C10, job := job, ctx := ctx, fn := g.ctxFn ctx }).mbAnswer mb r stOk [])))) ∧
      Answers s mb (fun r => r.opcode = 0x21) 2 (fun r => [(0, (look (r.fld 0 2) d.jobs).isNone)])
        (fun r => s.withDev (if d.jobInUse (r.fld 0 2) = true then d.mbAnswer mb r stBusy [] else
          let ctx := ((look (r.fld 0 2) d.jobs).map Job.ctx).getD 0xFFFF
          let e := (d.purge (r.fld 0 2) false).setBits (R.NOC_JOB_DET (r.fld 0 2 / 64)) ((1 : Word) <<< (r.fld 0 2 % 64)) 0
          let g := { e with jobs := drop1 (r.fld 0 2) e.jobs }
          (g.raise { code := 0x0C11, ctx := ctx, job := r.fld 0 2, fn := g.ctxFn ctx }).mbAnswer mb r stOk []))
        (exec (.jobClose mb) s))

/-- R369: CLUSTER_FREQ_MAX, and Z8_CLK_SET with the same body: four bytes; the cluster is 0 to 15 or 0xFF, the second byte is 0 and
FREQ_MHZ a point's frequency; anything else is INVALID at the failing field, as is a ceiling below FREQ in repeatable mode; a fenced
cluster named alone is BUSY; an accepted body sets the ceiling of every cluster named and not fenced. With no such message served
nothing happens. -/
def Obligations.ClusterFreqMax : Prop :=
  ∀ (s : State) (mb : Nat), mb < 8 →
    let d := s.dev
    ((∀ r, d.serves mb r → r.opcode ≠ 0x0061) → exec (.clusterFreqMax mb) s = .next s) ∧
    ((∀ r, d.serves mb r → r.opcode ≠ 0x0401) → exec (.z8ClkSet mb) s = .next s) ∧
    (∀ r, d.serves mb r →
      let cl := r.fld 0 1
      let mhz := r.fld 2 2
      let answers := fun (e : Dev) =>
        (r.opcode = 0x0061 → exec (.clusterFreqMax mb) s = .next (s.withDev e)) ∧
        (r.opcode = 0x0401 → exec (.z8ClkSet mb) s = .next (s.withDev e))
      let invalid := fun (off : Nat) => d.mbAnswer mb r stInvalid (leBytes 4 off)
      (r.body.length ≠ 4 → answers (invalid 8)) ∧
      (r.body.length = 4 → 16 ≤ cl → cl ≠ 0xFF → answers (invalid 0x10)) ∧
      (r.body.length = 4 → cl < 16 ∨ cl = 0xFF →
        (r.fld 1 1 ≠ 0 → answers (invalid 0x11)) ∧
        (r.fld 1 1 = 0 → pointOf mhz = none ∨ d.accepted.mode = 1 ∧ mhz < d.accepted.freq → answers (invalid 0x12)) ∧
        (r.fld 1 1 = 0 → (pointOf mhz).isSome = true → (d.accepted.mode = 1 → d.accepted.freq ≤ mhz) →
          answers (if cl ≠ 0xFF ∧ d.cluWake cl = 4 then d.mbAnswer mb r stBusy []
            else (allClusters.foldl (fun d c => if (cl = 0xFF || cl = c) && d.cluWake c ≠ 4 then
              (d.updClu c (fun x => { x with freqMax := mhz })).clampPoint c else d) d).mbAnswer mb r stOk []))))

/-- The power messages (R336, R366, R368, R372), with bodies as their layouts say (`Answers`): a POWER_SET in range restores the stress
hours where its flag asks for it the first time, and is accepted, with EVT 0x0D01 where mode or cap change, to take effect at the
window's end, its flags choosing the gain and its mode the frequency; Z8_CAP_SET is a capped setting; Z8_POWER_GET reports the power of
the last millisecond and Z8_CLU_STATUS a cluster's frequency, hottest tile and power. -/
def Obligations.PowerMessages : Prop :=
  ∀ (s : State) (mb : Nat), mb < 8 →
    let d := s.dev
    let accepts := fun (e : Dev) (x : PowerSetting) (r : MbReq) =>
      let g : Dev := { e with pwr := { e.pwr with pendingSet := some x } }
      s.withDev ((if x.mode ≠ e.accepted.mode ∨ x.cap ≠ e.accepted.cap then
        g.raise { code := 0x0D01, args := [x.cap, g.fld R.PWR_CAP F.PWR_CAP_P_LAST_W, x.mode] } else g).mbAnswer mb r stOk [])
    Answers s mb (fun r => r.opcode = 0x60) 80
      (fun r => [(0, decide (2 ≤ r.fld 0 1)), (1, decide (4 ≤ r.fld 1 1)), (2, decide (r.fld 2 2 < 1200) || decide (3000 < r.fld 2 2)),
        (4, decide (r.fld 0 1 = 1) && ((pointOf (r.fld 4 2)).isNone || d.aboveCeiling (r.fld 4 2))),
        (6, (r.fld 1 1).testBit 0 && (decide (r.fld 6 2 < 64) || decide (384 < r.fld 6 2))), (8, r.fld 8 8 ≠ 0)])
      (fun r =>
        let e := if (r.fld 1 1).testBit 1 = true ∧ d.pwr.stressRestored = false then
          d.restoreStress ((List.range 16).map (fun c => r.fld (0x10 + 4 * c) 4)) else d
        let freq := if r.fld 0 1 = 1 then r.fld 4 2 else d.accepted.freq
        let gain := if (r.fld 1 1).testBit 0 then r.fld 6 2 else d.accepted.gain
        accepts e { mode := r.fld 0 1, freq := freq, gain := gain, cap := r.fld 2 2 } r)
      (exec (.powerSet mb) s) ∧
    Answers s mb (fun r => r.opcode = 0x0201) 2 (fun r => [(0, decide (r.fld 0 2 < 1200) || decide (3000 < r.fld 0 2))])
      (fun r => accepts d { d.accepted with mode := 0, cap := r.fld 0 2 } r) (exec (.z8CapSet mb) s) ∧
    Answers s mb (fun r => r.opcode = 0x0202) 0 (fun _ => [])
      (fun r => s.withDev (d.mbAnswer mb r stOk (leBytes 2 (min (d.pwr.lastMsNj / 1000000) 0xFFFF)))) (exec (.z8PowerGet mb) s) ∧
    Answers s mb (fun r => r.opcode = 0x0403) 1 (fun r => [(0, decide (16 ≤ r.fld 0 1))])
      (fun r => s.withDev (d.mbAnswer mb r stOk
        (leBytes 2 (d.fld (R.CLU_PWR_CFG (r.fld 0 1)) F.CLU_PWR_CFG_FREQ_MHZ) ++ leBytes 2 (d.hottestTile (r.fld 0 1)) ++
          leBytes 2 (d.fld (R.CLU_PWR_STAT (r.fld 0 1)) F.CLU_PWR_STAT_POWER_W))))
      (exec (.z8CluStatus mb) s)

/-- Attestation and the debug unlock (R411 to R413), with bodies as their layouts say (`Answers`): a nonce of 32 bytes is answered with
the report and a signature over it; a challenge is drawn and kept with its time unless three responses have failed, which is BUSY with
EVT 0x0F34; a RESPOND that fails its test consumes the challenge and counts; one that passes raises the debug state, FULL only with no
context, which is BUSY otherwise, and with memory cleared; LOCK takes OBSERVE back. -/
def Obligations.AttestAndUnlock : Prop :=
  ∀ (s : State) (mb : Nat), mb < 8 →
    let d := s.dev
    let t := s.trust
    let signed := fun (r : MbReq) =>
      let body := d.report t r.body
      s.withDev ((d.drew.raise { code := 0x0F20, unit := mb }).mbAnswer mb r stOk (body ++ leBytes 64 (Config.sm2Sign body d.fresh).toNat))
    let scopeBad := fun (r : MbReq) => decide (r.fld 1 1 < 1) || decide (2 < r.fld 1 1)
    Answers s mb (fun r => r.opcode = 4) 32 (fun _ => []) signed (exec (.attest mb) s) ∧
    Answers s mb (fun r => r.opcode = 0x0102) 32 (fun _ => []) signed (exec (.z8Attest mb) s) ∧
    Answers s mb (fun r => r.opcode = 5 ∧ r.fld 0 1 ≠ 2 ∧ r.fld 0 1 ≠ 3) 8
      (fun r => [(0, r.fld 0 1 ≠ 1), (1, scopeBad r), (2, r.fld 2 6 ≠ 0)])
      (fun r =>
        let c := leBytes 32 (Config.challenge d.fresh).toNat
        if 3 ≤ t.failures then s.withDev ((d.raise { code := 0x0F34, unit := mb }).mbAnswer mb r stBusy [])
          else { s with
            trust := { t with challenge := some (c, d.now) }
            dev := d.drew.mbAnswer mb r stOk (c ++ leBytes 8 Config.serial.toNat) })
      (exec (.challenge mb) s) ∧
    Answers s mb (fun r => r.opcode = 5 ∧ r.fld 0 1 = 2) 136 (fun r => [(1, scopeBad r), (2, r.fld 2 6 ≠ 0)])
      (fun r =>
        let e := if r.fld 1 1 = 2 then d.clearMemory else d
        if respondOk t d.now r = false then { s with
            trust := { t with challenge := none, failures := t.failures + 1 }
            dev := (d.raise { code := 0x0F31, unit := mb }).mbAnswer mb r mbAuth [] }
          else if r.fld 1 1 = 2 ∧ d.ctxs ≠ [] then s.withDev (d.mbAnswer mb r stBusy [])
          else { s with
            trust := { t with challenge := none, debug := max t.debug (r.fld 1 1), highest := max t.highest (max t.debug (r.fld 1 1)) }
            dev := (e.raise { code := 0x0F32, unit := mb, args := [r.fld 1 1] }).mbAnswer mb r stOk [] })
      (exec (.respond mb) s) ∧
    Answers s mb (fun r => r.opcode = 5 ∧ r.fld 0 1 = 3) 8 (fun r => [(1, r.fld 1 7 ≠ 0)])
      (fun r => if t.debug = 1 then
          { s with trust := { t with debug := 0 }, dev := (d.raise { code := 0x0F33, unit := mb }).mbAnswer mb r stOk [] }
        else s.withDev (d.mbAnswer mb r stOk []))
      (exec (.lock mb) s)

/-- Start-up (R323, R326, R400, R403, R404, R409). The self test's valid entries, merged, wait for the firmware, a later self test
doing nothing. FW_LOAD and Z8_FW_LOAD, while an image is awaited: a body that is neither 12 nor 24 bytes long or a host list out of line
is INVALID, an image of an impossible length or that does not verify is AUTH with EVT 0x0F10, one below the fused counter ROLLBACK with
EVT 0x0F11, image or list that cannot be read ACCESS, each ending the attempt; otherwise the defects are merged, with the host's list
where it is taken, and the firmware starts. With the firmware running the message is BUSY. READY late is told once. After a watchdog
restart with the code intact, fewer than three in the hour, the firmware runs again, its configuration taken up again or undone;
otherwise it has failed; a device without firmware does nothing. -/
def Obligations.StartUp : Prop :=
  ∀ (s : State), s.dev.alive = true →
    (∀ found untested,
      let ok := (found.filter (fun (x : Defect) => defectValid x.kind x.unit x.index && x.source % 4 ≠ 0)).map
        (fun (x : Defect) => { x with source := x.source % 4 })
      let l := withOutcomes ((ok.foldl mergeEntry []).take 131072)
      let d := { s.dev with boot := { s.dev.boot with
        stage := 3, defects := l, newTest := (newTests l).length, untested := min untested 0xFFFF, tBist := s.dev.now } }
      (3 ≤ s.dev.boot.stage → exec (.bistDone found untested) s = .next s) ∧
      (s.dev.boot.stage < 3 → exec (.bistDone found untested) s = .next (s.withDev
        ((newTests l).foldl (fun d x => d.raise { code := 0x0F01, unit := x.unit, args := [x.kind, x.index] }) d).takeRequests))) ∧
    (∀ mb op, mb < 8 →
      let answers := fun (t : State) => (op = 2 → exec (.fwLoad mb) s = .next t) ∧ (op = 0x0103 → exec (.z8FwLoad mb) s = .next t)
      let d := s.dev
      let waits := d.boot.stage = 4 ∧ d.fwState = 1
      (¬ waits → d.fwRuns = false → answers s) ∧
      ((d.mbox mb).req = none → answers s) ∧
      (∀ r, (d.mbox mb).req = some r →
        let refused := fun (e : Dev) (status : Nat) (body : List Byte) => s.withDev
          ((({ e with boot := { e.boot with stage := 3 } } : Dev).setFld R.MGT_FW_STAT F.MGT_FW_STAT_STATE 0).mbAnswer mb r status body)
        let len := r.fld 8 4
        (r.opcode ≠ op → answers s) ∧
        (r.opcode = op → ¬ waits → d.fwRuns = true → answers (s.withDev (d.mbAnswer mb r stBusy []))) ∧
        (r.opcode = op → waits →
          (r.body.length ≠ 12 → r.body.length ≠ 24 → answers (refused d stInvalid (leBytes 4 8))) ∧
          (r.body.length = 24 → r.fld 0x10 8 % 64 ≠ 0 → answers (refused d stInvalid (leBytes 4 0x20))) ∧
          (r.body.length = 12 ∨ r.body.length = 24 ∧ r.fld 0x10 8 % 64 = 0 →
            (len < 256 ∨ 1835264 < len → answers (refused (d.raise { code := 0x0F10, unit := mb }) mbAuth [])) ∧
            (256 ≤ len → len ≤ 1835264 → d.hostRead 0 (r.fld 0 8) len = none → answers (refused d.accessFailed stAccess [])) ∧
            (∀ image, 256 ≤ len → len ≤ 1835264 → d.hostRead 0 (r.fld 0 8) len = some image →
              let h := image.take 256
              let list := if r.body.length = 24 then d.readHostList (r.fld 0x10 8) (r.fld 0xC 4) else .none
              let starts := fun (e : Dev) (host : List Defect) =>
                let m := e.finalMerge host
                let g := if m.blocking = true then m.blockedEvent else m
                let g := { g with boot := { g.boot with stage := if m.blocking = true then 8 else 5 } }
                answers (s.withDev ((g.firmwareStarts h).mbAnswer mb r stOk []))
              (imageOk len h (image.drop 256) = false → answers (refused (d.raise { code := 0x0F10, unit := mb }) mbAuth [])) ∧
              (imageOk len h (image.drop 256) = true → natAt h 8 4 < s.trust.svn →
                answers (refused (d.raise { code := 0x0F11, unit := mb, args := [natAt h 8 4, s.trust.svn] }) mbRollback [])) ∧
              (imageOk len h (image.drop 256) = true → s.trust.svn ≤ natAt h 8 4 →
                (list = .failed → answers (refused d.accessFailed stAccess [])) ∧
                (list = .none → starts d []) ∧
                (list = .rejected →
                  starts (({ d with boot := { d.boot with hostRejected := true } } : Dev).raise { code := 0x0F03, unit := mb }) []) ∧
                (∀ es ignored, list = .taken es ignored →
                  let e := { d with boot := { d.boot with hostAccepted := true, hostIgnored := min ignored 0xFFFF } }
                  starts (if ignored = 0 then e else e.raise { code := 0x0F04, unit := mb, args := [ignored] }) es))))))) ∧
    (let b := s.dev.boot
     exec .readyLate s = .next (s.withDev
      (if b.merged = true ∧ b.stage ≠ 7 ∧ b.readyLate = false ∧ b.tReady = 0 ∧ b.tLoad + 4000000000 ≤ s.dev.now then
        ({ s.dev with boot := { b with readyLate := true } } : Dev).raise { code := 0x0F06 } else s.dev))) ∧
    (∀ code cfgOk,
      let recent := s.dev.now :: s.dev.fw.restarts.filter (fun t => decide (s.dev.now < t + 3600000000000))
      let d := ({ s.dev with fw := { s.dev.fw with restarts := recent } } : Dev).satFld R.MGT_FW_STAT F.MGT_FW_STAT_RESTARTS 1
      let up := (d.setFld R.MGT_FW_STAT F.MGT_FW_STAT_STATE 2).raise { code := 0x0C30, args := [recent.length] }
      let b := up.fw.configNew
      let again :=
        if up.cfgState ≠ 1 ∧ up.cfgState ≠ 3 then up
        else if cfgOk = true ∧ b ≠ [] then
          ((up.configSteps b (!up.fw.configured) (decide (b.length = 624))).configEnds b (decide (up.cfgState = 3))).topoCheck
        else up.clearMemory.unconfigure
      let told := again.mboxes.foldl (fun e x => x.2.req.elim e (fun r => e.mbAnswer x.1 r mbRestarted [])) again
      (s.dev.fwRuns = false → s.dev.fwState ≠ 3 → exec (.watchdogRestart code cfgOk) s = .next s) ∧
      (s.dev.fwRuns = true ∨ s.dev.fwState = 3 → sm3 code ≠ bytesAt d.fw.header 0x60 32 ∨ 3 ≤ recent.length →
        exec (.watchdogRestart code cfgOk) s = .next (s.withDev
          ((d.deviceResign.setFld R.MGT_FW_STAT F.MGT_FW_STAT_STATE 4).raise { code := 0x0C32 }))) ∧
      (s.dev.fwRuns = true ∨ s.dev.fwState = 3 → sm3 code = bytesAt d.fw.header 0x60 32 → recent.length < 3 →
        exec (.watchdogRestart code cfgOk) s = .next (s.withDev told.takeRequests)))

/-- Configuration, its readback and DUMP (R28, R324, R333, R335): a DEV_CONFIG that passes every check in order is applied and then
answered; DEV_CONFIG_GET gives the body in force; a field that the readback finds changed is counted and told; DUMP writes the entries
asked for to the host's buffer. -/
def Obligations.ConfigureAndDump : Prop :=
  ∀ (s : State) (mb : Nat) (r : MbReq), s.dev.serves mb r →
    let d := s.dev
    (r.opcode = 0x10 → r.body.length = configLen r.major r.minor →
      configFieldBad r.body r.major r.minor (!d.fw.configured) = none →
      (cfgFlag r.body 4 = true → topoBad (cfgTopo r.body) = none) → d.boot.stage ≠ 8 → d.stopState = 0 → d.ctxs = [] → d.jobs = [] →
      d.cfgState = 0 ∨ d.cfgState = 2 →
      exec (.devConfig mb) s = .next (s.withDev
        ((d.configure r.body (decide (r.major = 3) && decide (r.minor = 2))).mbAnswer mb r stOk []).topoCheck)) ∧
    (r.opcode = 0x11 → r.body = [] → d.fw.config ≠ [] →
      exec (.devConfigGet mb) s = .next (s.withDev (d.mbAnswer mb r stOk (d.fw.config.take (configLen r.major r.minor))))) ∧
    (∀ off w f, firmwareFields off = [f] → fieldGet w f ≠ d.fld off f →
      exec (.readback [(off, w)]) s = .next (s.withDev
        ((d.satFld R.MGT_FW_STAT F.MGT_FW_STAT_READBACK 1).raise { code := 0x0C31, args := [off, f.lo] }))) ∧
    (∀ v e, r.opcode = 0x30 → r.body.length = 28 → d.dumpView s.trust.svn (r.fld 0 1) = some v → r.fld 1 3 = 0 → r.fld 0xC 4 = 0 →
      r.fld 0x10 8 % 64 = 0 →
      let start := r.fld 4 4
      let n := v.take start (r.fld 8 4) (r.fld 0x18 4)
      d.hostWrite 0 (r.fld 0x10 8) ((List.range n).flatMap (fun i => v.entry (start + i))) = some e →
      exec (.dump mb) s = .next (s.withDev (e.mbAnswer mb r stOk (leBytes 8 d.now ++ leBytes 4 n ++
        leBytes 4 (if v.count ≤ start + n then 0xFFFFFFFF else start + n) ++ leBytes 4 (n * v.size) ++ leBytes 4 0))))

/-! ### Power (chapter 15) -/

/-- Failed phases (R350, R354, R355): a converter phase that was good is marked, listed and told; six or fewer left start an orderly stop
with EVT 0x0D15, seven to ten bring the converter's ceiling down, eleven do neither. A regulator phase that had not failed is marked,
listed and told; the count gives the cluster's tier, and entering LIMITED or FENCED has its event, LIMITED holding the cluster's point
under its ceiling. A phase that has failed already changes nothing. -/
def Obligations.PhaseFailures : Prop :=
  ∀ (s : State), s.dev.alive = true →
    (∀ i, i < 12 →
      let good := s.dev.fld R.PWR_CONV F.PWR_CONV_GOOD
      let n := s.dev.fld R.PWR_CONV F.PWR_CONV_COUNT - 1
      let d := s.dev.setFld R.PWR_CONV F.PWR_CONV_GOOD (good - 2 ^ i)
      let d := (d.setFld R.PWR_CONV F.PWR_CONV_COUNT n).addDefect 12 0 i 1
      (good.testBit i = false → exec (.convPhaseFailed i) s = .next s) ∧
      (good.testBit i = true → n < 7 →
        exec (.convPhaseFailed i) s = .next (s.withDev ((d.raisePwr 0x0D15 i [n]).stopBegin 7 6 i 0 false))) ∧
      (good.testBit i = true → 7 ≤ n → n ≤ 10 →
        let e := (d.raisePwr 0x0D13 i [n]).raisePwr 0x0D14 i [n]
        exec (.convPhaseFailed i) s = .next (s.withDev { e with pwr := { e.pwr with convCeil := some (3000 * n * 155 / 1700 / 100 * 100) } })) ∧
      (good.testBit i = true → 10 < n → exec (.convPhaseFailed i) s = .next (s.withDev (d.raisePwr 0x0D13 i [n])))) ∧
    (∀ c i, c < 16 → i < 32 →
      let failed := s.dev.fld (R.CLU_IVR c) F.CLU_IVR_FAILED
      let n := s.dev.fld (R.CLU_IVR c) F.CLU_IVR_NFAILED + 1
      let was := s.dev.fld (R.CLU_IVR c) F.CLU_IVR_TIER
      let tier := if n ≤ 4 then 0 else if n ≤ 8 then 1 else 2
      let d := s.dev.setFld (R.CLU_IVR c) F.CLU_IVR_FAILED (failed + 2 ^ i)
      let d := (d.setFld (R.CLU_IVR c) F.CLU_IVR_NFAILED n).setFld (R.CLU_IVR c) F.CLU_IVR_TIER tier
      let d := (d.addDefect 11 c i 1).raisePwr 0x0D10 c [i, n]
      (failed.testBit i = true → exec (.ivrPhaseFailed c i) s = .next s) ∧
      (failed.testBit i = false → exec (.ivrPhaseFailed c i) s = .next (s.withDev
        (if tier = 2 then (if was = 2 then d else (d.raisePwr 0x0D12 c [i, n]).fence c)
          else if tier = 1 then (if was = 1 then d else d.raisePwr 0x0D11 c [i, n]).clampPoint c
          else d))))

/-- What an ungated cluster's clock and rail do (R62, R353, R356, R357, R374): boosts, clamps and stretches are counted, the 1,000th
stretch of a millisecond with EVT 0x0D20; a margin that grows with age moves the voltage with EVT 0x0D31; a bubble after the cycles the
fraction gives reaches every tile; a returned token goes to the first cluster that waits. A gated cluster counts and bubbles nothing; a
margin that does not grow changes nothing but the stress account; a token with nobody to take it changes nothing. -/
def Obligations.ClusterEvents : Prop :=
  ∀ (s : State) (c : Nat), s.dev.alive = true → c < 16 →
    (s.dev.powered c = false →
      exec (.droopBoost c) s = .next s ∧ exec (.shuntClamp c) s = .next s ∧ exec (.clockStretch c) s = .next s ∧
        exec (.throttleBubble c) s = .next s) ∧
    (s.dev.powered c = true → exec (.droopBoost c) s = .next (s.withDev (s.dev.satFld (R.CLU_DROOP c) F.CLU_DROOP_BOOSTS 1))) ∧
    (s.dev.powered c = true → exec (.shuntClamp c) s = .next (s.withDev (s.dev.satFld (R.CLU_DROOP c) F.CLU_DROOP_CLAMPS 1))) ∧
    (s.dev.powered c = true →
      let w := s.dev.now / 1000000
      let n := if (s.dev.clu c).stretchWindow = w then (s.dev.clu c).stretchCount + 1 else 1
      let d := (s.dev.updClu c (fun x => { x with stretchWindow := w, stretchCount := n })).satFld (R.CLU_DROOP c) F.CLU_DROOP_STRETCHES 1
      exec (.clockStretch c) s = .next (s.withDev (if n = 1000 then d.raisePwr 0x0D20 c [n, w] else d))) ∧
    (
      let d := s.dev.stressAccount c
      let age := if d.pwr.stressRestored then min 25 (d.fld (R.CLU_STRESS c) F.CLU_STRESS_EFF_HOURS / 175000) else 25
      let old := d.fld (R.CLU_PWR_CFG c) F.CLU_PWR_CFG_AGE_MV
      let e := d.setFld (R.CLU_PWR_CFG c) F.CLU_PWR_CFG_AGE_MV age
      let volt := e.fld (R.CLU_PWR_CFG c) F.CLU_PWR_CFG_VOLT_MV
      let g := if e.powered c then e.setFld (R.CLU_PWR_CFG c) F.CLU_PWR_CFG_VOLT_MV (volt + (age - old)) else e
      exec (.ageStep c) s = .next (s.withDev (if d.fwRuns = true ∧ old < age then g.raisePwr 0x0D31 c [age] else d))) ∧
    (
      let f := s.dev.fld (R.CLU_PWR_STAT c) F.CLU_PWR_STAT_F_APPLIED
      let acc := (s.dev.clu c).bubbleAcc
      let cycles := (1024 - acc + f - 1) / f
      let d := s.dev.updClu c (fun x => { x with bubbleAcc := acc + cycles * f - 1024 })
      let d := (clusterTiles c).foldl Dev.bubbleTile d
      (f = 0 → exec (.throttleBubble c) s = .next s) ∧
      (0 < f → s.dev.powered c = true →
        exec (.throttleBubble c) s = .next (s.withDev ({ d with pwr := { d.pwr with bubbled := d.repeatable } } : Dev).repeatJudge))) ∧
    (∀ quad, quad < 4 →
      let waiting := allClusters.find? (fun k => quadrant k = quad && s.dev.cluWake k = 1)
      (s.dev.tokenThere quad = false ∨ s.dev.wakeBarred = true ∨ waiting = none → exec (.slopeTokenReturn quad) s = .next s) ∧
      (∀ w, s.dev.tokenThere quad = true → s.dev.wakeBarred = false → waiting = some w →
        let late := (s.dev.clu w).wakeAt.any (fun t => decide (t + 12000 < s.dev.now))
        let d := { s.dev with pwr := { s.dev.pwr with tokens := put quad s.dev.now s.dev.pwr.tokens } }
        exec (.slopeTokenReturn quad) s = .next (s.withDev ((if late then d.raisePwr 0x0D21 w [] else d).softStart w))))

/-- The power cap (R359, R360, R362, R363, R371). A sample adds its energy to the window and the millisecond in course, or to the next one
where the last is over and its end has not come, shows the voltage, and above 3,600 W sets F to 921/1,024 at once, counting once a
window. A window's end, once the window is over, computes the next F from the F in force, shows the power and attributes the energy, the
waiting setting takes effect and the next window begins with the energy that came after. A millisecond's end, once it is over, moves the
points and counts a cap that was not met. An end that comes before its window is over changes nothing. -/
def Obligations.PowerSamplesAndWindows : Prop :=
  ∀ (s : State), s.dev.alive = true →
    (∀ vin cur,
      let nj := vin * cur / 10
      let w := s.dev.windowOver 0 0
      let ms := s.dev.windowOver 1 0
      let p0 := s.dev.pwr
      let windowNj := if w then p0.windowNj else p0.windowNj + nj
      let laterNj := if w then p0.laterNj + nj else p0.laterNj
      let msNj := if ms then p0.msNj else p0.msNj + nj
      let laterMsNj := if ms then p0.laterMsNj + nj else p0.laterMsNj
      let p := { p0 with
        windowNj := windowNj
        laterNj := laterNj
        inputNj := p0.inputNj + nj
        msNj := msNj
        laterMsNj := laterMsNj }
      let d := ({ s.dev with pwr := p } : Dev).setReg R.PWR_E_INPUT (BitVec.ofNat 64 (p.inputNj / 1000))
      let d := d.setFld R.PWR_CONV F.PWR_CONV_VIN (min vin 0xFFFF)
      let e := d.satFld R.PWR_STAT F.PWR_STAT_PEAK_GUARDS 1
      exec (.powerSample vin cur) s = .next (s.withDev
        (if 36000000 < vin * cur ∧ d.pwr.guard = false
          then ({ e with pwr := { e.pwr with guard := true, fMaxAll := e.pwr.fMaxAll && decide (e.fCap = 921) } } : Dev).setF 921
          else d))) ∧
    (∀ clusterNj currents slots granules memNj,
      let ans := exec (.cappingWindow clusterNj currents slots granules memNj) s
      let o := s.dev.windowOpens 0 0
      let f := o.fCap
      let cap := o.fld R.PWR_CAP F.PWR_CAP_EFF_W
      let energy := o.pwr.windowNj
      let new := cappingLaw f (o.fld R.PWR_CFG F.PWR_CFG_GAIN) energy cap o.fresh
      let d := if cap = 0 then o.drew else o
      let d := d.setFld R.PWR_CAP F.PWR_CAP_P_LAST_W (min (energy / 10000) 0xFFFF)
      let d := if f = 0 then d else d.satFld R.PWR_STAT F.PWR_STAT_THROTTLED 1
      let d := (d.attribute clusterNj slots granules memNj).showClusters clusterNj currents
      let p := { d.pwr with
        windowNj := o.pwr.laterNj
        laterNj := 0
        guard := false
        fSum := o.pwr.fSum + f
        fCount := o.pwr.fCount + 1
        fMaxAll := o.pwr.fMaxAll && decide (f = 921) }
      let e : Dev := { d with pwr := p }
      (s.dev.windowOver 0 0 = false → ans = .next s) ∧
      (s.dev.windowOver 0 0 = true → o.pwr.pendingSet = none → ans = .next (s.withDev (e.showCap.setF new))) ∧
      (∀ x, s.dev.windowOver 0 0 = true → o.pwr.pendingSet = some x →
        ans = .next (s.withDev ((e.applySetting x).showCap.setF new)))) ∧
    (
      let o := s.dev.windowOpens 1 0
      let none_ := o.pwr.fCount = 0
      let sum := if none_ then o.fCap else o.pwr.fSum
      let n := if none_ then 1 else o.pwr.fCount
      let d := if o.fwRuns = true ∧ o.repeatable = false then o.freqMoves sum n o.pwr.msNj else o
      let cap := d.fld R.PWR_CAP F.PWR_CAP_EFF_W
      let d := if 0 < o.pwr.fCount ∧ o.pwr.fMaxAll = true ∧ cap * 1000000 < o.pwr.msNj then
        (d.satFld R.PWR_STAT F.PWR_STAT_UNMET 1).raise { code := 0x0D04, args := [cap, o.pwr.msNj / 1000000, d.now / 1000000 - 1] } else d
      let p := { d.pwr with
        fSum := 0
        fCount := 0
        fMaxAll := true
        lastMsNj := o.pwr.msNj
        msNj := o.pwr.laterMsNj
        laterMsNj := 0 }
      exec .freqWindow s = .next (if s.dev.windowOver 1 0 = true then s.withDev { d with pwr := p } else s))

/-! ### Heat (chapter 16) -/

/-- Samples and the coolant (R376, R379, R380, R386, R387, R424). Levels are WATCH, CHECK, STOP and TRIP at 90, 100, 110 and 120 °C for
logic and at 85, 95, 105 and 110 °C for DRAM. A spot's sample that is due notes invalid readings and its time, goes past the comparators,
and where the device is not tripped gives the value that drives its level, judged and shown; one that is not due changes nothing. A flow
sample shows the temperatures that came with it, counts towards the coolant window and shows the flow; a third in a row below 0.2 L/min
starts a stop; a missing one is an invalid reading. The leak input starts a stop when it rises, where the firmware owns the pin. A
coolant window that is over makes the limit that stands, then takes the samples that came after it; before that it changes nothing. -/
def Obligations.SamplesAndCoolant : Prop :=
  (∀ v, levelOf false v = (if 1920 ≤ v then 4 else if 1760 ≤ v then 3 else if 1600 ≤ v then 2 else if 1440 ≤ v then 1 else 0) ∧
    levelOf true v = (if 1760 ≤ v then 4 else if 1680 ≤ v then 3 else if 1520 ≤ v then 2 else if 1360 ≤ v then 1 else 0)) ∧
  ∀ (s : State), s.dev.alive = true →
    (∀ spot raw granules, spotExists spot = true →
      let on := { s.dev with pins := { s.dev.pins with thermtrip := true } }
      let noted := (on.noteInvalid spot raw).updSpot spot (fun x => { x with last := some s.dev.now })
      let readings := noted.usable spot raw
      let compared := noted.comparators spot readings
      let ready := compared.beforeValue spot readings granules
      let value := (ready.spotValue spot readings).1
      let judged := value.elim ready (fun v => ready.judge spot v (ready.spotValue spot readings).2 (ready.fastTest spot readings v))
      exec (.sensorSample spot raw granules) s = .next (if s.dev.sampleDue spot = false then s
        else if compared.alive = false then s.withDev compared
        else if judged.alive = false then s.withDev judged
        else s.withDev ((judged.showSpot spot raw readings value).afterValue spot).showStat)) ∧
    (∀ (flow : Option Nat) (inlet outlet : Option Int),
      let d := inlet.elim s.dev (fun v => s.dev.coolantTemp 0 v F.THM_COOLANT_INLET)
      let d := outlet.elim d (fun v => d.coolantTemp 1 v F.THM_COOLANT_OUTLET)
      exec (.flowSample flow inlet outlet) s = .next (s.withDev (flow.elim (d.coolantInvalid 2) (fun q =>
        let low := if q < 200 then d.thm.flowLow + 1 else 0
        let e := ({ d with thm := { d.thm with flowLow := low } } : Dev).coolantTakes 0 q
        let e := e.setFld R.THM_COOLANT F.THM_COOLANT_FLOW (min q 0xFFF)
        if low = 3 then (e.raise { code := 0x0E33, unit := 2, args := [4, 2, q] }).stopBegin 4 4 2 0 false else e)))) ∧
    (∀ high,
      let was := s.dev.fld R.THM_COOLANT F.THM_COOLANT_LEAK = 1
      let d := { s.dev with pins := { s.dev.pins with gpio := setAt s.dev.pins.gpio 0 { s.dev.pins.gpio.getD 0 Gpio.reset with level := high } } }
      let d := d.setFld R.THM_COOLANT F.THM_COOLANT_LEAK (b2n high)
      exec (.leak high) s = .next (if s.dev.owner 0 ≠ 1 then s else s.withDev
        (if high = true ∧ ¬ was then (d.raise { code := 0x0E35, unit := 0, args := [5, 0, 1] }).stopBegin 5 5 0 0 false else d))) ∧
    (
      let o := s.dev.windowOpens 2 0
      let x := o.thm
      let d := if x.flowN = 0 then o else (o.flowLimitStep x.flowN x.flowSum).flowLowStep x.flowN x.flowSum
      let shown := d.fld R.THM_COOLANT F.THM_COOLANT_INLET
      let inletN := if x.inletN ≠ 0 then x.inletN else if shown = 0xFFF then 0 else 1
      let inletSum := if x.inletN ≠ 0 then x.inletSum else if shown = 0xFFF then 0 else shown
      let d := if inletN = 0 then d else d.inletStep inletN inletSum
      let limit := lowerLimit d.thm.flowLimit (if inletN = 0 then none else inletLimit inletN inletSum)
      let m := { d.thm with
        flowN := 0
        flowSum := 0
        inletN := 0
        inletSum := 0
        later := [] }
      let d := { d with thm := m, pwr := { d.pwr with coolLimit := limit } }
      let d := x.later.foldl (fun d e => d.coolantTakes e.1 e.2) d
      let d := d.setFld R.THM_COOLANT F.THM_COOLANT_LIMIT_W (limit.elim 0xFFF (min · 0xFFE))
      exec .coolantWindow s = .next
        (if s.dev.windowOver 2 0 = true then s.withDev (d.setFld R.THM_COOLANT F.THM_COOLANT_DERATING (b2n limit.isSome)) else s))

/-- Keep-warm, castling and the end of an orderly stop (R389, R392, R394). Each millisecond that is over, the tiles of a cluster count the
shadow issues of its duty, and the duty of a cluster that is kept warm moves by 1/32 with its hottest tile, a cluster that is not having
none. A castling whose tiles stand still swaps them, tile by tile with everything bound to them but the errors of their SRAM, is counted
and told; one that does not in 4 µs is abandoned, counted and told, and both tiles resume; otherwise these events change nothing. A stop
whose resigns are over gates its domains, says so with EVT 0x0E21 and clears what it must, before the resigns that it held end; a stop
that is not over changes nothing. -/
def Obligations.WarmthCastlingAndStop : Prop :=
  ∀ (s : State), s.dev.alive = true →
    (∀ c, c < 16 →
      let o := s.dev.windowOpens 3 c
      let duty := o.fld (R.THM_CLU c) F.THM_CLU_KW_DUTY
      let n := o.fld (R.CLU_PWR_CFG c) F.CLU_PWR_CFG_FREQ_MHZ * 1000 * duty / 32
      let issued := (clusterTiles c).foldl (fun d t => if d.fld (R.TIL_WIDTH t) F.TIL_WIDTH_RETIRED = 1 then d
        else d.wrapFld (R.TIL_SHADOW_CNT t) F.TIL_SHADOW_CNT_COUNT n) o
      let d := if duty = 0 then o else issued
      let none_ := ((d.setFld (R.THM_CLU c) F.THM_CLU_KW_DUTY 0).setFld (R.THM_CLU c) F.THM_CLU_KW_ACTIVE 0).setFld (R.THM_CLU c) F.THM_CLU_KW_TARGET 0
      let target := max 720 (d.fld (R.THM_CLU c) F.THM_CLU_ACTIVE_AVG - 240)
      let old := d.fld (R.THM_CLU c) F.THM_CLU_KW_DUTY
      let hot := d.hottestTile c
      let new := if d.warmSuspended c = true then 0 else if hot < target then min 32 (old + 1)
        else if target + 32 < hot then old - 1 else old
      let e := (d.setFld (R.THM_CLU c) F.THM_CLU_KW_ACTIVE 1).setFld (R.THM_CLU c) F.THM_CLU_KW_TARGET target
      exec (.keepWarm c) s = .next (if s.dev.windowOver 3 c = false then s
        else if d.fwRuns = false then s.withDev d
        else if d.keptWarm c = false then s.withDev none_
        else s.withDev (e.setFld (R.THM_CLU c) F.THM_CLU_KW_DUTY new))) ∧
    (s.dev.thm.castle = none → exec .castled s = .next s ∧ exec .castleAbandoned s = .next s) ∧
    (∀ k, s.dev.thm.castle = some k →
      (s.dev.castleStill k = false → exec .castled s = .next s) ∧
      (s.dev.castleStill k = true → exec .castleAbandoned s = .next s) ∧
      (s.dev.now < k.start + 4000 → exec .castleAbandoned s = .next s) ∧
      (s.dev.castleStill k = true →
        let d := s.dev.castleSwap k
        let m := { d.thm with
          castle := none
          castledAt := put k.hot d.now (put k.cool d.now d.thm.castledAt)
          hotSince := d.thm.hotSince.filter
            (fun (e : (Nat × Nat) × Nat) => e.1.1 ≠ k.hot && e.1.1 ≠ k.cool && e.1.2 ≠ k.hot && e.1.2 ≠ k.cool) }
        let e := ({ d with thm := m } : Dev).wrapFld R.THM_CASTLE F.THM_CASTLE_COUNT 1
        let e := (e.setFld R.THM_CASTLE F.THM_CASTLE_LAST_HOT k.hot).setFld R.THM_CASTLE F.THM_CASTLE_LAST_COOL k.cool
        exec .castled s = .next (s.withDev (e.raise { code := 0x0E40, unit := k.hot, args := [0, k.hot, k.cool] }).resumeSends) ∧
        d.tile k.cool = { s.dev.tile k.hot with sramErr := [], ceTimes := (s.dev.tile k.cool).ceTimes } ∧
        (k.hot ≠ k.cool → d.tile k.hot = { s.dev.tile k.cool with sramErr := [], ceTimes := (s.dev.tile k.hot).ceTimes }) ∧
        d.mem = s.dev.mem ∧ d.queues = s.dev.queues ∧ d.ctxs = s.dev.ctxs ∧ d.extents = s.dev.extents) ∧
      (s.dev.castleStill k = false → k.start + 4000 ≤ s.dev.now →
        let d := ({ s.dev with thm := { s.dev.thm with castle := none } } : Dev).satFld R.THM_CASTLE F.THM_CASTLE_ABANDONED 1
        exec .castleAbandoned s = .next (s.withDev
          (d.raise { code := 0x0E41, unit := k.hot, args := [0, k.hot, k.cool] }).resumeSends))) ∧
    (
      let ends := s.dev.stopState = 1 ∧ ∀ r ∈ s.dev.resigns, r.scope = 4 → s.dev.resignOver r = true
      let g := s.dev.stopGates.setFld R.THM_STAT F.THM_STAT_STOP 2
      let stop : Field → Nat := fun f => s.dev.fld R.THM_STOP f
      let d := g.raise { code := 0x0E21, unit := stop F.THM_STOP_UNIT, args := [stop F.THM_STOP_KIND, stop F.THM_STOP_TEMP, stop F.THM_STOP_CAUSE] }
      let held := d.resigns.filter (fun r => r.scope ≠ 4)
      (¬ ends → exec .stopDone s = .next s) ∧
      (ends → exec .stopDone s = .next (s.withDev
        (held.foldl (fun e r => if e.resignOver r then e.resignEnd r else e) d.stopClears))))

/-! ### The connectors (chapter 18) -/

/-- Resets, supplies and the clock (R294, R391, R395, R400, R416 to R418, R422). With the auxiliary supply present, an edge of either reset
or a good input sets its pin, the level that stands changing nothing; an input outside its lockout thresholds is not good, one inside them
changes nothing. Pins that hold the device in reset reset it, the trip record, the host's memory and the free values' counter kept and the
debug unlock locked; pins that no longer do release it: tempo starts at 0 and the strap is latched, nothing else moving; otherwise only the
pins change. The auxiliary supply comes with the device in reset, its input not good and the trip record cleared. A lost clock makes a
device that works dark, with its link down. -/
def Obligations.ResetsAndSupplies : Prop :=
  ∀ (s : State),
    let p := s.dev.pins
    (∀ level,
      (p.auxOn = false ∨ p.perst = level → exec (.perstN level) s = .next s) ∧
      (p.auxOn = false ∨ p.modReset = level → exec (.modResetN level) s = .next s) ∧
      (p.auxOn = true → p.perst ≠ level → exec (.perstN level) s = .next (resetPins s { p with perst := level })) ∧
      (p.auxOn = true → p.modReset ≠ level → exec (.modResetN level) s = .next (resetPins s { p with modReset := level }))) ∧
    (p.auxOn = false ∨ p.inputGood = true → exec .inputGood s = .next s) ∧
    (p.auxOn = true → p.inputGood = false →
      let vin := if p.vin ≤ 39000 ∨ 62000 < p.vin then 48000 else p.vin
      let aux := if p.aux ≤ 3135 then 3300 else p.aux
      exec .inputGood s = .next (resetPins s { p with inputGood := true, vin := vin, aux := aux })) ∧
    (∀ mV, mV < 37000 ∨ 62000 < mV → exec (.inputLockout mV) s = .next (resetPins s { p with inputGood := false, vin := mV })) ∧
    (∀ mV, 37000 ≤ mV → mV ≤ 62000 → exec (.inputLockout mV) s = .next s) ∧
    (
      let locked : Trust := { s.trust with debug := 0, highest := 0, challenge := none, failures := 0 }
      let afterReset := fun (x : Pins) =>
        let host : HostSide := { HostSide.reset with
          mem := s.dev.host.mem, bad := s.dev.host.bad, data := s.dev.host.data, msix := s.dev.host.msix }
        let gpio := x.gpio.map (fun (g : Gpio) => { Gpio.reset with level := g.level })
        let pins : Pins := { x with clkreq := false, thermtrip := false, dark := false, strapTold := false, gpio := gpio }
        ({ Dev.reset with fresh := s.dev.fresh, host := host, pins := pins } : Dev).setReg R.THM_TRIP_REC (s.dev.reg R.THM_TRIP_REC)
      (∀ q : Pins, (q.perst && q.modReset && q.inputGood) = false →
        resetPins s q = { s with trust := locked, dev := afterReset q.showPwrGood }) ∧
      (∀ q : Pins, s.dev.inReset = false → q.perst = true → q.modReset = true → q.inputGood = true →
        resetPins s q = s.withDev { s.dev with pins := q.showPwrGood }) ∧
      (∀ q : Pins, s.dev.inReset = true → q.perst = true → q.modReset = true → q.inputGood = true →
        let valid := s.dev.fld R.THM_TRIP_REC F.THM_TRIP_REC_VALID
        resetPins s q = s.withDev { s.dev with
          now := 0
          pins := { q.showPwrGood with clkreq := true, slotId := q.strap }
          thm := { s.dev.thm with tripFound := decide (valid = 1) } }) ∧
      (
        let x := ({ p with
          auxOn := true
          aux := 3300
          inputGood := false
          i3cAddr := 0
          i3cTold := true
          i3cAnswer := [] } : Pins).showPwrGood
        exec .auxiliaryPowerOn s = .next { s with
          trust := locked
          dev := (afterReset x).setReg R.THM_TRIP_REC (regReset R.THM_TRIP_REC) })) ∧
    (s.dev.alive = true → exec .pllLockLoss s = .next (s.withDev { s.dev with
      pins := { p with dark := true, thermtrip := false }
      host := { s.dev.host with linkUp := false } }))

/-- The pins and the sideband (R417, R420, R422 to R426). A module without its auxiliary supply does nothing. With it, supplies out of range
raise EVT 0x1001 and 0x1002 on a device that works and PWR_GOOD follows; a changed strap is told once; an edge of an input the host owns
and asks for raises EVT 0x1020, at most 64 a millisecond, and a level that stands is no edge; an address assigned is told once the firmware
runs; the I3C target answers what the supply allows. On a device that works the tempo pulse sinks the pin that is its own for 10 µs, and the
test access port accepts what the debug state does and nothing else. The numbers of the port's instructions and the form of the I3C
answers are the model's (log entry 23). -/
def Obligations.PinsAndSideband : Prop :=
  ∀ (s : State),
    let p := s.dev.pins
    (p.auxOn = false →
      (∀ mV, exec (.vinRange mV) s = .next s ∧ exec (.auxRange mV) s = .next s) ∧
      (∀ slot, slot < 16 → exec (.strapChanged slot) s = .next s) ∧
      (∀ g level, g < 8 → exec (.gpioEdge g level) s = .next s) ∧
      (∀ addr, addr < 128 → exec (.i3cAddressed addr) s = .next s) ∧
      (∀ req, exec (.i3cRequest req) s = .next s)) ∧
    (p.auxOn = true →
      (∀ mV,
        let d := { s.dev with pins := ({ p with vin := mV } : Pins).showPwrGood }
        let out := d.alive = true ∧ (mV < 40000 ∨ 60000 < mV)
        (out → exec (.vinRange mV) s = .next (s.withDev (d.raise { code := 0x1001, unit := 0, args := [mV] }))) ∧
        (¬ out → exec (.vinRange mV) s = .next (s.withDev d))) ∧
      (∀ mV,
        let d := { s.dev with pins := ({ p with aux := mV } : Pins).showPwrGood }
        let out := d.alive = true ∧ (mV < 3135 ∨ 3465 < mV)
        (out → exec (.auxRange mV) s = .next (s.withDev (d.raise { code := 0x1002, unit := 1, args := [mV] }))) ∧
        (¬ out → exec (.auxRange mV) s = .next (s.withDev d))) ∧
      (∀ slot, slot < 16 →
        let d := { s.dev with pins := { p with strap := slot } }
        exec (.strapChanged slot) s = .next (s.withDev
          (if d.alive = true ∧ slot ≠ p.slotId ∧ p.strapTold = false
            then ({ s.dev with pins := { p with strap := slot, strapTold := true } } : Dev).raise { code := 0x1010, args := [slot] }
            else d))) ∧
      (∀ g level, g < 8 →
        let d := s.dev.updGpio g (fun x => { x with level := level })
        let x := d.gpio g
        let w := d.now / 1000000
        let n := if x.window = w then x.edges else 0
        ((s.dev.gpio g).level = level → exec (.gpioEdge g level) s = .next s) ∧
        ((s.dev.gpio g).level ≠ level → exec (.gpioEdge g level) s = .next (s.withDev
          (if d.alive = true ∧ d.owner g = 2 ∧ x.mode = 0 ∧ x.flags.testBit (if level then 0 else 1) = true ∧ n < 64
            then (d.updGpio g (fun x => { x with window := w, edges := n + 1 })).raise { code := 0x1020, unit := g, args := [g, b2n level] }
            else d)))) ∧
      (∀ addr, addr < 128 →
        let run := s.dev.alive && s.dev.fwRuns
        let d := { s.dev with pins := { p with i3cAddr := addr, i3cTold := run } }
        exec (.i3cAddressed addr) s = .next (s.withDev (if run = true then d.raise { code := 0x1030, args := [addr] } else d))) ∧
      (
        let answers := fun (a : List Byte) => s.withDev { s.dev with pins := { p with i3cAnswer := a } }
        let cool : Field → List Byte := fun f => leBytes 2 (s.dev.fld R.THM_COOLANT f)
        let cap : Field → List Byte := fun f => leBytes 2 (s.dev.fld R.PWR_CAP f)
        exec (.i3cRequest .mctpControl) s = .next (answers [0]) ∧
        exec (.i3cRequest .fruSerial) s = .next (answers (0 :: leBytes 8 Config.serial.toNat)) ∧
        exec (.i3cRequest .fruRevision) s = .next (answers (0 :: leBytes 1 0x11)) ∧
        exec (.i3cRequest .tripRecord) s = .next (answers (0 :: leBytes 8 (s.dev.reg R.THM_TRIP_REC).toNat)) ∧
        exec (.i3cRequest .other) s = .next (answers [1]) ∧
        (∀ i, s.dev.alive = false ∨ 6 ≤ i → exec (.i3cRequest (.sensor i)) s = .next (answers [1])) ∧
        (s.dev.alive = true →
          exec (.i3cRequest (.sensor 0)) s = .next (answers (0 :: cool F.THM_COOLANT_INLET)) ∧
          exec (.i3cRequest (.sensor 1)) s = .next (answers (0 :: cool F.THM_COOLANT_OUTLET)) ∧
          exec (.i3cRequest (.sensor 2)) s = .next (answers (0 :: cool F.THM_COOLANT_FLOW)) ∧
          exec (.i3cRequest (.sensor 3)) s =
            .next (answers (0 :: leBytes 2 (s.dev.thm.spots.foldl (fun m e => max m e.2.value) 0))) ∧
          exec (.i3cRequest (.sensor 4)) s = .next (answers (0 :: cap F.PWR_CAP_P_LAST_W)) ∧
          exec (.i3cRequest (.sensor 5)) s = .next (answers (0 :: cap F.PWR_CAP_EFF_W))))) ∧
    (s.dev.alive = true →
      (∀ g, g < 8 → exec (.tempoPps g) s = .next (if s.dev.owner g = 7 then s.withDev
        (s.dev.updGpio g (fun x => { x with sunkUntil := s.dev.now / 1000000 * 1000000 + 10000 })) else s)) ∧
      exec (.testAccessPort 0) s = .next { s with trust := { s.trust with tapIr := 0, tapOut := idcode } } ∧
      exec (.testAccessPort 1) s = .next { s with trust := { s.trust with tapIr := 1, tapOut := 0 } } ∧
      (∀ ir, 2 ≤ ir →
        let accepts := (ir = 2 ∨ ir = 4) ∧ 2 ≤ s.trust.debug ∨ ir = 3 ∧ 1 ≤ s.trust.debug
        (accepts → exec (.testAccessPort ir) s = .next { s with
          trust := { s.trust with tapIr := ir, tapOut := (Config.scanOut s.dev.fresh).toNat }
          dev := s.dev.drew }) ∧
        (¬ accepts → exec (.testAccessPort ir) s = .next s)))

/-! ### Rules of single operations -/

/-- R40: a scale byte of 0xFF makes NaN of all 32 elements of its block, whatever their encodings: in the rows that a tile's operands
load, in the terms of the array, float or integer, and in the elements a collective sends. -/
def Obligations.ScaleByteFFIsNan : Prop :=
  (∀ (o : Operand) (codes scales : List Nat) (i : Nat), o.blocks = true → i < codes.length → scales[i / 32]? = some 0xFF →
    (rowValues o codes scales)[i]? = some .nan) ∧
  (∀ (fmt : Nat) (codes scales : List Nat) (i : Nat), i < codes.length → scales[i / 32]? = some 0xFF →
    (termValues fmt true codes scales)[i]? = some .nan) ∧
  (∀ (fa fw : Nat) (bw : Bool) (ca cw sa sw : List Nat) (k g : Nat), g < k / 32 → sa[g]? = some 0xFF →
    (groupTerms fa fw true bw ca cw sa sw k)[g]? = some .nan) ∧
  (∀ (fa fw : Nat) (ba : Bool) (ca cw sa sw : List Nat) (k g : Nat), g < k / 32 → sw[g]? = some 0xFF →
    (groupTerms fa fw ba true ca cw sa sw k)[g]? = some .nan) ∧
  (∀ fmt code, blockDecode fmt code 0xFF = .nan)

/-- R78: at binding G1 to G5 are the stage's argument words, every other G register is 0, and PC is the container's ENTRY, whatever
the container's DATA then writes into SRAM. -/
def Obligations.BindingSetsRegisters : Prop :=
  ∀ (x : Tile) (pid ctx index entry : Nat) (c : List Byte) (args : List Nat) (handles : List (Nat × Nat × Nat))
    (sids : List (Nat × Bool × Nat)), args.length = 5 →
    let y := boundTile x pid ctx index entry c args handles sids
    y.pc = entry ∧ y.g.length = 32 ∧
    ∀ i, i < 32 → y.g.getD i 0 = if 1 ≤ i ∧ i ≤ 5 then BitVec.ofNat 64 (args.getD (i - 1) 0) else 0

/-- R249: the TAG of a collective ACC packet, sixteen bits: CONTRIB in 11:0, 0 when RED is set; CHK in 12; BKP in 13; STEP mod 4 in
15:14. Every contribution of a member carries it, and so does every check packet. -/
def Obligations.CollectiveTag : Prop :=
  (∀ (x : CollDesc) (red chk bkp : Bool), x.self < 4096 →
    let tag := x.tag red chk bkp
    tag < 65536 ∧ tag % 4096 = (if red then 0 else x.self) ∧ tag / 4096 % 2 = b2n chk ∧ tag / 8192 % 2 = b2n bkp ∧
      tag / 16384 = x.step % 4) ∧
  (∀ (d : Dev) (x : CollDesc) (red bkp : Bool) (j r : Nat), (d.accPacket x red bkp j r).tag = x.tag red false bkp) ∧
  (∀ (d : Dev) (x : CollDesc) (bkp : Bool) (j k : Nat) (es : List Nat), es ≠ [] →
    d.checkPackets x bkp j (k + 1) es = { BamatPkt.blank with
      op := 5, vc := x.vc, job := x.job, tag := x.tag false true bkp, dstdev := x.primary j, srcdev := d.selfDev, dstep := 322,
      srcep := 322, addr := es.headD 0,
      payload := (es.take 256).flatMap (fun e => leBytes 4 (d.srcElem x e).toNat) } :: d.checkPackets x bkp j k (es.drop 256))

/-- What power and cooling measure never reaches the work: droop, stretches, clamps, samples of the input power, ageing and
keep-warm leave every tile, queue, context, memory byte, sync wait and packet in flight as they are. -/
def Obligations.MeasurementsLeaveWork : Prop :=
  ∀ (c : Instr) (s t : State),
    ((∃ k, c = .droopBoost k ∨ c = .clockStretch k ∨ c = .shuntClamp k ∨ c = .ageStep k ∨ c = .keepWarm k) ∨
      ∃ v i, c = .powerSample v i) →
    exec c s = .next t →
    t.dev.tiles = s.dev.tiles ∧ t.dev.queues = s.dev.queues ∧ t.dev.ctxs = s.dev.ctxs ∧ t.dev.mem = s.dev.mem ∧
      t.dev.waits = s.dev.waits ∧ t.dev.noc = s.dev.noc ∧ t.dev.host.mem = s.dev.host.mem ∧ t.trust = s.trust
end

