-- ==== Sys2Proof/Laws/Canon.lean ====
section
/-! SUPPORT. Laws of the sparse lists in canonical form and of the association lists: what a read gives after a write, and
that every write keeps the form. -/

namespace Sys2Proof.Machine

variable {α : Type}

theorem keysAbove_mono {j k : Nat} {l : List (Nat × α)} (hjk : j ≤ k) (h : keysAbove k l = true) : keysAbove j l = true := by
  simp only [keysAbove, List.all_eq_true, decide_eq_true_eq] at *
  exact fun e he => Nat.lt_of_le_of_lt hjk (h e he)

theorem keysAbove_cons {k j : Nat} {v : α} {l : List (Nat × α)} :
    keysAbove k ((j, v) :: l) = true ↔ k < j ∧ keysAbove k l = true := by
  simp [keysAbove]

theorem canonGet_above {dflt : Nat → α} {k : Nat} {l : List (Nat × α)} (h : keysAbove k l = true) : canonGet dflt l k = dflt k := by
  induction l with
  | nil => rfl
  | cons e r ih =>
    obtain ⟨hj, hr⟩ := keysAbove_cons.1 h
    simp [canonGet, Nat.ne_of_gt hj, ih hr]

theorem keysAbove_canonInsert {k j : Nat} {v : α} {l : List (Nat × α)} (hk : j < k) (h : keysAbove j l = true) :
    keysAbove j (canonInsert k v l) = true := by
  induction l with
  | nil => simp [canonInsert, keysAbove, hk]
  | cons e r ih =>
    obtain ⟨i, w⟩ := e
    obtain ⟨hi, hr⟩ := keysAbove_cons.1 h
    simp only [canonInsert]
    split
    · exact keysAbove_cons.2 ⟨hk, hr⟩
    · split
      · exact keysAbove_cons.2 ⟨hk, h⟩
      · exact keysAbove_cons.2 ⟨hi, ih hr⟩

theorem keysAbove_filter {k : Nat} {l : List (Nat × α)} {p : Nat × α → Bool} (h : keysAbove k l = true) :
    keysAbove k (l.filter p) = true := by
  simp only [keysAbove, List.all_eq_true] at *
  exact fun e he => h e ((List.mem_filter.1 he).1)

theorem canonGet_canonInsert_same (dflt : Nat → α) (k : Nat) (v : α) (l : List (Nat × α)) :
    canonGet dflt (canonInsert k v l) k = v := by
  induction l with
  | nil => simp [canonInsert, canonGet]
  | cons e r ih =>
    obtain ⟨i, w⟩ := e
    simp only [canonInsert]
    split
    · simp [canonGet]
    · split
      · simp [canonGet]
      · next h _ => simp [canonGet, h, ih]

theorem canonGet_canonInsert_other (dflt : Nat → α) {k j : Nat} (v : α) (l : List (Nat × α)) (h : j ≠ k) :
    canonGet dflt (canonInsert k v l) j = canonGet dflt l j := by
  induction l with
  | nil => simp [canonInsert, canonGet, Ne.symm h]
  | cons e r ih =>
    obtain ⟨i, w⟩ := e
    simp only [canonInsert]
    split
    · next hi => simp [canonGet, hi, Ne.symm h]
    · split
      · simp [canonGet, Ne.symm h]
      · simp [canonGet, ih]

theorem canonGet_canonDrop_other (dflt : Nat → α) {k j : Nat} (l : List (Nat × α)) (h : j ≠ k) :
    canonGet dflt (canonDrop k l) j = canonGet dflt l j := by
  induction l with
  | nil => rfl
  | cons e r ih =>
    obtain ⟨i, w⟩ := e
    simp only [canonDrop] at ih ⊢
    by_cases hi : i = k
    · simp [canonGet, hi, Ne.symm h, ← ih]
    · simp [canonGet, hi, ← ih]

theorem canonGet_canonDrop_same (dflt : Nat → α) (k : Nat) (l : List (Nat × α)) : canonGet dflt (canonDrop k l) k = dflt k := by
  induction l with
  | nil => rfl
  | cons e r ih =>
    obtain ⟨i, w⟩ := e
    simp only [canonDrop] at ih ⊢
    by_cases hi : i = k
    · simp [hi, ← ih]
    · simp [canonGet, hi, ← ih]

variable [DecidableEq α]

theorem canonOk_cons {dflt : Nat → α} {k : Nat} {v : α} {l : List (Nat × α)} :
    canonOk dflt ((k, v) :: l) = true ↔ v ≠ dflt k ∧ keysAbove k l = true ∧ canonOk dflt l = true := by
  simp [canonOk, and_assoc]

/-- A read of the key just written gives what was written. -/
theorem canonGet_canonSet_same {dflt : Nat → α} {k : Nat} {v : α} (l : List (Nat × α)) :
    canonGet dflt (canonSet dflt l k v) k = v := by
  simp only [canonSet]
  split
  · next hv => rw [hv]; exact canonGet_canonDrop_same dflt k l
  · exact canonGet_canonInsert_same dflt k v l

/-- A write leaves every other key as it was. -/
theorem canonGet_canonSet_other {dflt : Nat → α} {k j : Nat} {v : α} (l : List (Nat × α)) (h : j ≠ k) :
    canonGet dflt (canonSet dflt l k v) j = canonGet dflt l j := by
  simp only [canonSet]
  split
  · exact canonGet_canonDrop_other dflt l h
  · exact canonGet_canonInsert_other dflt v l h

theorem canonOk_canonInsert {dflt : Nat → α} {k : Nat} {v : α} {l : List (Nat × α)} (hv : v ≠ dflt k) (h : canonOk dflt l = true) :
    canonOk dflt (canonInsert k v l) = true := by
  induction l with
  | nil => simp [canonInsert, canonOk, keysAbove, hv]
  | cons e r ih =>
    obtain ⟨i, w⟩ := e
    obtain ⟨hw, ha, hr⟩ := canonOk_cons.1 h
    simp only [canonInsert]
    split
    · next hi => exact canonOk_cons.2 ⟨hv, hi ▸ ha, hr⟩
    · split
      · next hlt => exact canonOk_cons.2 ⟨hv, keysAbove_cons.2 ⟨hlt, keysAbove_mono (Nat.le_of_lt hlt) ha⟩, h⟩
      · next hi hlt => exact canonOk_cons.2 ⟨hw, keysAbove_canonInsert (by omega) ha, ih hr⟩

/-- Leaving entries out keeps the canonical form. -/
theorem canonOk_filter {dflt : Nat → α} {l : List (Nat × α)} {p : Nat × α → Bool} (h : canonOk dflt l = true) :
    canonOk dflt (l.filter p) = true := by
  induction l with
  | nil => exact h
  | cons e r ih =>
    obtain ⟨i, w⟩ := e
    obtain ⟨hw, ha, hr⟩ := canonOk_cons.1 h
    by_cases hp : p (i, w) = true
    · rw [List.filter_cons_of_pos hp]; exact canonOk_cons.2 ⟨hw, keysAbove_filter ha, ih hr⟩
    · rw [List.filter_cons_of_neg hp]; exact ih hr

/-- A write keeps the canonical form. -/
theorem canonOk_canonSet {dflt : Nat → α} {k : Nat} {v : α} {l : List (Nat × α)} (h : canonOk dflt l = true) :
    canonOk dflt (canonSet dflt l k v) = true := by
  simp only [canonSet]
  split
  · exact canonOk_filter h
  · next hv => exact canonOk_canonInsert hv h

/-- Clearing a range keeps the canonical form. -/
theorem canonOk_canonClear {dflt : Nat → α} {lo hi : Nat} {l : List (Nat × α)} (h : canonOk dflt l = true) :
    canonOk dflt (canonClear lo hi l) = true := canonOk_filter h

variable {κ β : Type} [DecidableEq κ]

@[simp] theorem look_put_same (k : κ) (v : β) (l : List (κ × β)) : look k (put k v l) = some v := by
  induction l with
  | nil => simp [put, look]
  | cons e r ih =>
    obtain ⟨i, w⟩ := e
    simp only [put]
    split
    · simp [look]
    · next h => simp [look, h, ih]

theorem look_put_other {k j : κ} (v : β) (l : List (κ × β)) (h : j ≠ k) : look j (put k v l) = look j l := by
  induction l with
  | nil => simp [put, look, Ne.symm h]
  | cons e r ih =>
    obtain ⟨i, w⟩ := e
    simp only [put]
    split
    · next hi => simp [look, hi, Ne.symm h]
    · simp [look, ih]

@[simp] theorem look_drop1_same (k : κ) (l : List (κ × β)) : look k (drop1 k l) = none := by
  induction l with
  | nil => rfl
  | cons e r ih =>
    obtain ⟨i, w⟩ := e
    by_cases h : i = k
    · simpa [drop1, h] using ih
    · simpa [drop1, look, h] using ih

theorem look_drop1_other {k j : κ} (l : List (κ × β)) (h : j ≠ k) : look j (drop1 k l) = look j l := by
  induction l with
  | nil => rfl
  | cons e r ih =>
    obtain ⟨i, w⟩ := e
    by_cases hi : i = k
    · have hj : i ≠ j := fun e => h (e ▸ hi)
      simpa [drop1, look, hi, Ne.symm h] using ih
    · simp only [drop1] at ih
      simp [drop1, look, hi, ih]

end Sys2Proof.Machine
end

