-- ==== Sys2Proof/Laws/Outcome.lean ====
section
/-! SUPPORT. What the shared forms of a command can answer: a command over the device touches neither the queue nor the fuses,
and a device that does not work stays as it is. -/

namespace Sys2Proof.Machine

theorem onDev_eq (s : State) (f : Dev → Dev) :
    onDev s f = .next { s with dev := if s.dev.alive then f s.dev else s.dev } := by
  unfold onDev; split <;> rfl

theorem onDev_alive {s : State} (f : Dev → Dev) (h : s.dev.alive = true) : onDev s f = .next { s with dev := f s.dev } := by
  simp [onDev, h]

theorem onUnit_alive {s : State} {kind : String} {limit n : Nat} (f : Dev → Dev) (hn : n < limit) (h : s.dev.alive = true) :
    onUnit kind limit n s f = .next { s with dev := f s.dev } := by
  simp [onUnit, hn, onDev_alive f h]

theorem onUnits_alive {s : State} {us : List (String × Nat × Nat)} (f : Dev → Dev) (hn : badUnit us = none)
    (h : s.dev.alive = true) : onUnits us s f = .next { s with dev := f s.dev } := by
  simp [onUnits, hn, onDev_alive f h]

/-- What a command over the device can answer: a fault that names a unit beyond the device, or a next state that differs in the
device alone, and in nothing when the device does not work. -/
def OverDev (s : State) (o : Out) : Prop :=
  (∃ k n, o = .fault (.noSuchUnit k n)) ∨ ∃ f : Dev → Dev, o = .next { s with dev := if s.dev.alive then f s.dev else s.dev }

theorem onDev_over (s : State) (f : Dev → Dev) : OverDev s (onDev s f) := .inr ⟨f, onDev_eq s f⟩

theorem onUnit_over (kind : String) (limit n : Nat) (s : State) (f : Dev → Dev) : OverDev s (onUnit kind limit n s f) := by
  unfold onUnit; split
  · exact onDev_over s f
  · exact .inl ⟨_, _, rfl⟩

theorem onUnits_over (us : List (String × Nat × Nat)) (s : State) (f : Dev → Dev) : OverDev s (onUnits us s f) := by
  unfold onUnits; split
  · exact onDev_over s f
  · exact .inl ⟨_, _, rfl⟩

theorem OverDev.trust {s t : State} {o : Out} (h : OverDev s o) (e : o = .next t) : t.trust = s.trust := by
  obtain ⟨k, n, rfl⟩ | ⟨f, rfl⟩ := h
  · cases e
  · cases e; rfl

theorem OverDev.pending {s t : State} {o : Out} (h : OverDev s o) (e : o = .next t) : t.pending = s.pending := by
  obtain ⟨k, n, rfl⟩ | ⟨f, rfl⟩ := h
  · cases e
  · cases e; rfl

theorem OverDev.dead {s t : State} {o : Out} (h : OverDev s o) (hd : s.dev.alive = false) (e : o = .next t) : t = s := by
  obtain ⟨k, n, rfl⟩ | ⟨f, rfl⟩ := h
  · cases e
  · cases e; simp [hd]

/-! ### The shared rows -/

section
variable (s : State)

theorem tileRow_over (t slot code : Nat) (f : Dev → Tile → Nat → Dev) : OverDev s (tileRow t slot code s f) :=
  onUnit_over _ _ _ s _
theorem vectorRow_over (t code : Nat) (f : Nat → Nat → Nat → Nat → Nat → Nat) : OverDev s (vectorRow t code s f) :=
  tileRow_over s _ _ _ _
theorem konaocRow_over (n d a b c : Nat) (f : Engine → Engine) : OverDev s (konaocRow n d a b c s f) := onUnits_over _ s _
theorem effectRow_over (q limit typ : Nat) (check : Dev → Nat → Desc → Checked) (f : Dev → Nat → Desc → Dev × Nat) :
    OverDev s (effectRow q limit typ s check f) := onUnit_over _ _ _ s _
theorem syncOpRow_over (q op : Nat) (f : Dev → Nat → Nat → Dev) : OverDev s (syncOpRow q op s f) := onUnit_over _ _ _ s _
theorem linkMapRow_over (q op : Nat) : OverDev s (linkMapRow q op s) := onUnit_over _ _ _ s _
theorem pimRow_over (q op : Nat) : OverDev s (pimRow q op s) := onUnit_over _ _ _ s _
theorem kvRow_over (q op : Nat) : OverDev s (kvRow q op s) := onUnit_over _ _ _ s _
theorem collRow_over (q op : Nat) : OverDev s (collRow q op s) := onUnit_over _ _ _ s _
theorem bamatRow_over (p : BamatPkt) (op : Nat) (f : Dev → Dev) : OverDev s (bamatRow p op s f) := onDev_over s _
theorem fnRow_over (fn : Nat) (f : Dev → Dev) : OverDev s (fnRow fn s f) := onUnit_over _ _ _ s _
theorem barRow_over (fn off : Nat) (f : Dev → Nat → Dev) : OverDev s (barRow fn off s f) := fnRow_over s _ _
theorem mbRow_over (mb : Nat) (pick : MbReq → Bool) (f : Dev → MbReq → Dev) : OverDev s (mbRow mb pick s f) :=
  onUnit_over _ _ _ s _
theorem loadRow_over (mb op : Nat) : OverDev s (loadRow mb op s) := onUnit_over _ _ _ s _
theorem attestRow_over (mb op : Nat) : OverDev s (attestRow mb op s) := mbRow_over s _ _ _

end

end Sys2Proof.Machine
end

