-- ==== Sys2Proof/Laws/State.lean ====
section
/-! SUPPORT. What the shared updates of the device leave alone, field by field, and what they set: no later proof unfolds a
record update. -/

namespace Sys2Proof.Machine

variable (d : Dev)

/-! ### setReg writes regs only -/

@[simp] theorem Dev.setReg_now (o : Nat) (w : Word) : (d.setReg o w).now = d.now := rfl
@[simp] theorem Dev.setReg_fresh (o : Nat) (w : Word) : (d.setReg o w).fresh = d.fresh := rfl
@[simp] theorem Dev.setReg_log (o : Nat) (w : Word) : (d.setReg o w).log = d.log := rfl
@[simp] theorem Dev.setReg_trace (o : Nat) (w : Word) : (d.setReg o w).trace = d.trace := rfl
@[simp] theorem Dev.setReg_host (o : Nat) (w : Word) : (d.setReg o w).host = d.host := rfl
@[simp] theorem Dev.setReg_fns (o : Nat) (w : Word) : (d.setReg o w).fns = d.fns := rfl
@[simp] theorem Dev.setReg_queues (o : Nat) (w : Word) : (d.setReg o w).queues = d.queues := rfl
@[simp] theorem Dev.setReg_ctxs (o : Nat) (w : Word) : (d.setReg o w).ctxs = d.ctxs := rfl
@[simp] theorem Dev.setReg_extents (o : Nat) (w : Word) : (d.setReg o w).extents = d.extents := rfl
@[simp] theorem Dev.setReg_resigns (o : Nat) (w : Word) : (d.setReg o w).resigns = d.resigns := rfl
@[simp] theorem Dev.setReg_quiet (o : Nat) (w : Word) : (d.setReg o w).quiet = d.quiet := rfl
@[simp] theorem Dev.setReg_mboxes (o : Nat) (w : Word) : (d.setReg o w).mboxes = d.mboxes := rfl
@[simp] theorem Dev.setReg_fw (o : Nat) (w : Word) : (d.setReg o w).fw = d.fw := rfl
@[simp] theorem Dev.setReg_jobs (o : Nat) (w : Word) : (d.setReg o w).jobs = d.jobs := rfl
@[simp] theorem Dev.setReg_timers (o : Nat) (w : Word) : (d.setReg o w).timers = d.timers := rfl
@[simp] theorem Dev.setReg_boot (o : Nat) (w : Word) : (d.setReg o w).boot = d.boot := rfl
@[simp] theorem Dev.setReg_pins (o : Nat) (w : Word) : (d.setReg o w).pins = d.pins := rfl
@[simp] theorem Dev.setReg_tiles (o : Nat) (w : Word) : (d.setReg o w).tiles = d.tiles := rfl
@[simp] theorem Dev.setReg_pipes (o : Nat) (w : Word) : (d.setReg o w).pipes = d.pipes := rfl
@[simp] theorem Dev.setReg_streams (o : Nat) (w : Word) : (d.setReg o w).streams = d.streams := rfl
@[simp] theorem Dev.setReg_waits (o : Nat) (w : Word) : (d.setReg o w).waits = d.waits := rfl
@[simp] theorem Dev.setReg_syncJobs (o : Nat) (w : Word) : (d.setReg o w).syncJobs = d.syncJobs := rfl
@[simp] theorem Dev.setReg_noc (o : Nat) (w : Word) : (d.setReg o w).noc = d.noc := rfl
@[simp] theorem Dev.setReg_mem (o : Nat) (w : Word) : (d.setReg o w).mem = d.mem := rfl
@[simp] theorem Dev.setReg_pim (o : Nat) (w : Word) : (d.setReg o w).pim = d.pim := rfl
@[simp] theorem Dev.setReg_kvp (o : Nat) (w : Word) : (d.setReg o w).kvp = d.kvp := rfl
@[simp] theorem Dev.setReg_smp (o : Nat) (w : Word) : (d.setReg o w).smp = d.smp := rfl
@[simp] theorem Dev.setReg_upd (o : Nat) (w : Word) : (d.setReg o w).upd = d.upd := rfl
@[simp] theorem Dev.setReg_col (o : Nat) (w : Word) : (d.setReg o w).col = d.col := rfl
@[simp] theorem Dev.setReg_lnk (o : Nat) (w : Word) : (d.setReg o w).lnk = d.lnk := rfl
@[simp] theorem Dev.setReg_pwr (o : Nat) (w : Word) : (d.setReg o w).pwr = d.pwr := rfl
@[simp] theorem Dev.setReg_thm (o : Nat) (w : Word) : (d.setReg o w).thm = d.thm := rfl

/-! ### setFld writes regs only -/

@[simp] theorem Dev.setFld_now (o : Nat) (f : Field) (v : Nat) : (d.setFld o f v).now = d.now := rfl
@[simp] theorem Dev.setFld_fresh (o : Nat) (f : Field) (v : Nat) : (d.setFld o f v).fresh = d.fresh := rfl
@[simp] theorem Dev.setFld_log (o : Nat) (f : Field) (v : Nat) : (d.setFld o f v).log = d.log := rfl
@[simp] theorem Dev.setFld_trace (o : Nat) (f : Field) (v : Nat) : (d.setFld o f v).trace = d.trace := rfl
@[simp] theorem Dev.setFld_host (o : Nat) (f : Field) (v : Nat) : (d.setFld o f v).host = d.host := rfl
@[simp] theorem Dev.setFld_fns (o : Nat) (f : Field) (v : Nat) : (d.setFld o f v).fns = d.fns := rfl
@[simp] theorem Dev.setFld_queues (o : Nat) (f : Field) (v : Nat) : (d.setFld o f v).queues = d.queues := rfl
@[simp] theorem Dev.setFld_ctxs (o : Nat) (f : Field) (v : Nat) : (d.setFld o f v).ctxs = d.ctxs := rfl
@[simp] theorem Dev.setFld_extents (o : Nat) (f : Field) (v : Nat) : (d.setFld o f v).extents = d.extents := rfl
@[simp] theorem Dev.setFld_resigns (o : Nat) (f : Field) (v : Nat) : (d.setFld o f v).resigns = d.resigns := rfl
@[simp] theorem Dev.setFld_quiet (o : Nat) (f : Field) (v : Nat) : (d.setFld o f v).quiet = d.quiet := rfl
@[simp] theorem Dev.setFld_mboxes (o : Nat) (f : Field) (v : Nat) : (d.setFld o f v).mboxes = d.mboxes := rfl
@[simp] theorem Dev.setFld_fw (o : Nat) (f : Field) (v : Nat) : (d.setFld o f v).fw = d.fw := rfl
@[simp] theorem Dev.setFld_jobs (o : Nat) (f : Field) (v : Nat) : (d.setFld o f v).jobs = d.jobs := rfl
@[simp] theorem Dev.setFld_timers (o : Nat) (f : Field) (v : Nat) : (d.setFld o f v).timers = d.timers := rfl
@[simp] theorem Dev.setFld_boot (o : Nat) (f : Field) (v : Nat) : (d.setFld o f v).boot = d.boot := rfl
@[simp] theorem Dev.setFld_pins (o : Nat) (f : Field) (v : Nat) : (d.setFld o f v).pins = d.pins := rfl
@[simp] theorem Dev.setFld_tiles (o : Nat) (f : Field) (v : Nat) : (d.setFld o f v).tiles = d.tiles := rfl
@[simp] theorem Dev.setFld_pipes (o : Nat) (f : Field) (v : Nat) : (d.setFld o f v).pipes = d.pipes := rfl
@[simp] theorem Dev.setFld_streams (o : Nat) (f : Field) (v : Nat) : (d.setFld o f v).streams = d.streams := rfl
@[simp] theorem Dev.setFld_waits (o : Nat) (f : Field) (v : Nat) : (d.setFld o f v).waits = d.waits := rfl
@[simp] theorem Dev.setFld_syncJobs (o : Nat) (f : Field) (v : Nat) : (d.setFld o f v).syncJobs = d.syncJobs := rfl
@[simp] theorem Dev.setFld_noc (o : Nat) (f : Field) (v : Nat) : (d.setFld o f v).noc = d.noc := rfl
@[simp] theorem Dev.setFld_mem (o : Nat) (f : Field) (v : Nat) : (d.setFld o f v).mem = d.mem := rfl
@[simp] theorem Dev.setFld_pim (o : Nat) (f : Field) (v : Nat) : (d.setFld o f v).pim = d.pim := rfl
@[simp] theorem Dev.setFld_kvp (o : Nat) (f : Field) (v : Nat) : (d.setFld o f v).kvp = d.kvp := rfl
@[simp] theorem Dev.setFld_smp (o : Nat) (f : Field) (v : Nat) : (d.setFld o f v).smp = d.smp := rfl
@[simp] theorem Dev.setFld_upd (o : Nat) (f : Field) (v : Nat) : (d.setFld o f v).upd = d.upd := rfl
@[simp] theorem Dev.setFld_col (o : Nat) (f : Field) (v : Nat) : (d.setFld o f v).col = d.col := rfl
@[simp] theorem Dev.setFld_lnk (o : Nat) (f : Field) (v : Nat) : (d.setFld o f v).lnk = d.lnk := rfl
@[simp] theorem Dev.setFld_pwr (o : Nat) (f : Field) (v : Nat) : (d.setFld o f v).pwr = d.pwr := rfl
@[simp] theorem Dev.setFld_thm (o : Nat) (f : Field) (v : Nat) : (d.setFld o f v).thm = d.thm := rfl

/-! ### satFld writes regs only -/

@[simp] theorem Dev.satFld_now (o : Nat) (f : Field) (n : Nat) : (d.satFld o f n).now = d.now := rfl
@[simp] theorem Dev.satFld_fresh (o : Nat) (f : Field) (n : Nat) : (d.satFld o f n).fresh = d.fresh := rfl
@[simp] theorem Dev.satFld_log (o : Nat) (f : Field) (n : Nat) : (d.satFld o f n).log = d.log := rfl
@[simp] theorem Dev.satFld_trace (o : Nat) (f : Field) (n : Nat) : (d.satFld o f n).trace = d.trace := rfl
@[simp] theorem Dev.satFld_host (o : Nat) (f : Field) (n : Nat) : (d.satFld o f n).host = d.host := rfl
@[simp] theorem Dev.satFld_fns (o : Nat) (f : Field) (n : Nat) : (d.satFld o f n).fns = d.fns := rfl
@[simp] theorem Dev.satFld_queues (o : Nat) (f : Field) (n : Nat) : (d.satFld o f n).queues = d.queues := rfl
@[simp] theorem Dev.satFld_ctxs (o : Nat) (f : Field) (n : Nat) : (d.satFld o f n).ctxs = d.ctxs := rfl
@[simp] theorem Dev.satFld_extents (o : Nat) (f : Field) (n : Nat) : (d.satFld o f n).extents = d.extents := rfl
@[simp] theorem Dev.satFld_resigns (o : Nat) (f : Field) (n : Nat) : (d.satFld o f n).resigns = d.resigns := rfl
@[simp] theorem Dev.satFld_quiet (o : Nat) (f : Field) (n : Nat) : (d.satFld o f n).quiet = d.quiet := rfl
@[simp] theorem Dev.satFld_mboxes (o : Nat) (f : Field) (n : Nat) : (d.satFld o f n).mboxes = d.mboxes := rfl
@[simp] theorem Dev.satFld_fw (o : Nat) (f : Field) (n : Nat) : (d.satFld o f n).fw = d.fw := rfl
@[simp] theorem Dev.satFld_jobs (o : Nat) (f : Field) (n : Nat) : (d.satFld o f n).jobs = d.jobs := rfl
@[simp] theorem Dev.satFld_timers (o : Nat) (f : Field) (n : Nat) : (d.satFld o f n).timers = d.timers := rfl
@[simp] theorem Dev.satFld_boot (o : Nat) (f : Field) (n : Nat) : (d.satFld o f n).boot = d.boot := rfl
@[simp] theorem Dev.satFld_pins (o : Nat) (f : Field) (n : Nat) : (d.satFld o f n).pins = d.pins := rfl
@[simp] theorem Dev.satFld_tiles (o : Nat) (f : Field) (n : Nat) : (d.satFld o f n).tiles = d.tiles := rfl
@[simp] theorem Dev.satFld_pipes (o : Nat) (f : Field) (n : Nat) : (d.satFld o f n).pipes = d.pipes := rfl
@[simp] theorem Dev.satFld_streams (o : Nat) (f : Field) (n : Nat) : (d.satFld o f n).streams = d.streams := rfl
@[simp] theorem Dev.satFld_waits (o : Nat) (f : Field) (n : Nat) : (d.satFld o f n).waits = d.waits := rfl
@[simp] theorem Dev.satFld_syncJobs (o : Nat) (f : Field) (n : Nat) : (d.satFld o f n).syncJobs = d.syncJobs := rfl
@[simp] theorem Dev.satFld_noc (o : Nat) (f : Field) (n : Nat) : (d.satFld o f n).noc = d.noc := rfl
@[simp] theorem Dev.satFld_mem (o : Nat) (f : Field) (n : Nat) : (d.satFld o f n).mem = d.mem := rfl
@[simp] theorem Dev.satFld_pim (o : Nat) (f : Field) (n : Nat) : (d.satFld o f n).pim = d.pim := rfl
@[simp] theorem Dev.satFld_kvp (o : Nat) (f : Field) (n : Nat) : (d.satFld o f n).kvp = d.kvp := rfl
@[simp] theorem Dev.satFld_smp (o : Nat) (f : Field) (n : Nat) : (d.satFld o f n).smp = d.smp := rfl
@[simp] theorem Dev.satFld_upd (o : Nat) (f : Field) (n : Nat) : (d.satFld o f n).upd = d.upd := rfl
@[simp] theorem Dev.satFld_col (o : Nat) (f : Field) (n : Nat) : (d.satFld o f n).col = d.col := rfl
@[simp] theorem Dev.satFld_lnk (o : Nat) (f : Field) (n : Nat) : (d.satFld o f n).lnk = d.lnk := rfl
@[simp] theorem Dev.satFld_pwr (o : Nat) (f : Field) (n : Nat) : (d.satFld o f n).pwr = d.pwr := rfl
@[simp] theorem Dev.satFld_thm (o : Nat) (f : Field) (n : Nat) : (d.satFld o f n).thm = d.thm := rfl

/-! ### wrapFld writes regs only -/

@[simp] theorem Dev.wrapFld_now (o : Nat) (f : Field) (n : Nat) : (d.wrapFld o f n).now = d.now := rfl
@[simp] theorem Dev.wrapFld_fresh (o : Nat) (f : Field) (n : Nat) : (d.wrapFld o f n).fresh = d.fresh := rfl
@[simp] theorem Dev.wrapFld_log (o : Nat) (f : Field) (n : Nat) : (d.wrapFld o f n).log = d.log := rfl
@[simp] theorem Dev.wrapFld_trace (o : Nat) (f : Field) (n : Nat) : (d.wrapFld o f n).trace = d.trace := rfl
@[simp] theorem Dev.wrapFld_host (o : Nat) (f : Field) (n : Nat) : (d.wrapFld o f n).host = d.host := rfl
@[simp] theorem Dev.wrapFld_fns (o : Nat) (f : Field) (n : Nat) : (d.wrapFld o f n).fns = d.fns := rfl
@[simp] theorem Dev.wrapFld_queues (o : Nat) (f : Field) (n : Nat) : (d.wrapFld o f n).queues = d.queues := rfl
@[simp] theorem Dev.wrapFld_ctxs (o : Nat) (f : Field) (n : Nat) : (d.wrapFld o f n).ctxs = d.ctxs := rfl
@[simp] theorem Dev.wrapFld_extents (o : Nat) (f : Field) (n : Nat) : (d.wrapFld o f n).extents = d.extents := rfl
@[simp] theorem Dev.wrapFld_resigns (o : Nat) (f : Field) (n : Nat) : (d.wrapFld o f n).resigns = d.resigns := rfl
@[simp] theorem Dev.wrapFld_quiet (o : Nat) (f : Field) (n : Nat) : (d.wrapFld o f n).quiet = d.quiet := rfl
@[simp] theorem Dev.wrapFld_mboxes (o : Nat) (f : Field) (n : Nat) : (d.wrapFld o f n).mboxes = d.mboxes := rfl
@[simp] theorem Dev.wrapFld_fw (o : Nat) (f : Field) (n : Nat) : (d.wrapFld o f n).fw = d.fw := rfl
@[simp] theorem Dev.wrapFld_jobs (o : Nat) (f : Field) (n : Nat) : (d.wrapFld o f n).jobs = d.jobs := rfl
@[simp] theorem Dev.wrapFld_timers (o : Nat) (f : Field) (n : Nat) : (d.wrapFld o f n).timers = d.timers := rfl
@[simp] theorem Dev.wrapFld_boot (o : Nat) (f : Field) (n : Nat) : (d.wrapFld o f n).boot = d.boot := rfl
@[simp] theorem Dev.wrapFld_pins (o : Nat) (f : Field) (n : Nat) : (d.wrapFld o f n).pins = d.pins := rfl
@[simp] theorem Dev.wrapFld_tiles (o : Nat) (f : Field) (n : Nat) : (d.wrapFld o f n).tiles = d.tiles := rfl
@[simp] theorem Dev.wrapFld_pipes (o : Nat) (f : Field) (n : Nat) : (d.wrapFld o f n).pipes = d.pipes := rfl
@[simp] theorem Dev.wrapFld_streams (o : Nat) (f : Field) (n : Nat) : (d.wrapFld o f n).streams = d.streams := rfl
@[simp] theorem Dev.wrapFld_waits (o : Nat) (f : Field) (n : Nat) : (d.wrapFld o f n).waits = d.waits := rfl
@[simp] theorem Dev.wrapFld_syncJobs (o : Nat) (f : Field) (n : Nat) : (d.wrapFld o f n).syncJobs = d.syncJobs := rfl
@[simp] theorem Dev.wrapFld_noc (o : Nat) (f : Field) (n : Nat) : (d.wrapFld o f n).noc = d.noc := rfl
@[simp] theorem Dev.wrapFld_mem (o : Nat) (f : Field) (n : Nat) : (d.wrapFld o f n).mem = d.mem := rfl
@[simp] theorem Dev.wrapFld_pim (o : Nat) (f : Field) (n : Nat) : (d.wrapFld o f n).pim = d.pim := rfl
@[simp] theorem Dev.wrapFld_kvp (o : Nat) (f : Field) (n : Nat) : (d.wrapFld o f n).kvp = d.kvp := rfl
@[simp] theorem Dev.wrapFld_smp (o : Nat) (f : Field) (n : Nat) : (d.wrapFld o f n).smp = d.smp := rfl
@[simp] theorem Dev.wrapFld_upd (o : Nat) (f : Field) (n : Nat) : (d.wrapFld o f n).upd = d.upd := rfl
@[simp] theorem Dev.wrapFld_col (o : Nat) (f : Field) (n : Nat) : (d.wrapFld o f n).col = d.col := rfl
@[simp] theorem Dev.wrapFld_lnk (o : Nat) (f : Field) (n : Nat) : (d.wrapFld o f n).lnk = d.lnk := rfl
@[simp] theorem Dev.wrapFld_pwr (o : Nat) (f : Field) (n : Nat) : (d.wrapFld o f n).pwr = d.pwr := rfl
@[simp] theorem Dev.wrapFld_thm (o : Nat) (f : Field) (n : Nat) : (d.wrapFld o f n).thm = d.thm := rfl

/-! ### setBits writes regs only -/

@[simp] theorem Dev.setBits_now (o : Nat) (m v : Word) : (d.setBits o m v).now = d.now := rfl
@[simp] theorem Dev.setBits_fresh (o : Nat) (m v : Word) : (d.setBits o m v).fresh = d.fresh := rfl
@[simp] theorem Dev.setBits_log (o : Nat) (m v : Word) : (d.setBits o m v).log = d.log := rfl
@[simp] theorem Dev.setBits_trace (o : Nat) (m v : Word) : (d.setBits o m v).trace = d.trace := rfl
@[simp] theorem Dev.setBits_host (o : Nat) (m v : Word) : (d.setBits o m v).host = d.host := rfl
@[simp] theorem Dev.setBits_fns (o : Nat) (m v : Word) : (d.setBits o m v).fns = d.fns := rfl
@[simp] theorem Dev.setBits_queues (o : Nat) (m v : Word) : (d.setBits o m v).queues = d.queues := rfl
@[simp] theorem Dev.setBits_ctxs (o : Nat) (m v : Word) : (d.setBits o m v).ctxs = d.ctxs := rfl
@[simp] theorem Dev.setBits_extents (o : Nat) (m v : Word) : (d.setBits o m v).extents = d.extents := rfl
@[simp] theorem Dev.setBits_resigns (o : Nat) (m v : Word) : (d.setBits o m v).resigns = d.resigns := rfl
@[simp] theorem Dev.setBits_quiet (o : Nat) (m v : Word) : (d.setBits o m v).quiet = d.quiet := rfl
@[simp] theorem Dev.setBits_mboxes (o : Nat) (m v : Word) : (d.setBits o m v).mboxes = d.mboxes := rfl
@[simp] theorem Dev.setBits_fw (o : Nat) (m v : Word) : (d.setBits o m v).fw = d.fw := rfl
@[simp] theorem Dev.setBits_jobs (o : Nat) (m v : Word) : (d.setBits o m v).jobs = d.jobs := rfl
@[simp] theorem Dev.setBits_timers (o : Nat) (m v : Word) : (d.setBits o m v).timers = d.timers := rfl
@[simp] theorem Dev.setBits_boot (o : Nat) (m v : Word) : (d.setBits o m v).boot = d.boot := rfl
@[simp] theorem Dev.setBits_pins (o : Nat) (m v : Word) : (d.setBits o m v).pins = d.pins := rfl
@[simp] theorem Dev.setBits_tiles (o : Nat) (m v : Word) : (d.setBits o m v).tiles = d.tiles := rfl
@[simp] theorem Dev.setBits_pipes (o : Nat) (m v : Word) : (d.setBits o m v).pipes = d.pipes := rfl
@[simp] theorem Dev.setBits_streams (o : Nat) (m v : Word) : (d.setBits o m v).streams = d.streams := rfl
@[simp] theorem Dev.setBits_waits (o : Nat) (m v : Word) : (d.setBits o m v).waits = d.waits := rfl
@[simp] theorem Dev.setBits_syncJobs (o : Nat) (m v : Word) : (d.setBits o m v).syncJobs = d.syncJobs := rfl
@[simp] theorem Dev.setBits_noc (o : Nat) (m v : Word) : (d.setBits o m v).noc = d.noc := rfl
@[simp] theorem Dev.setBits_mem (o : Nat) (m v : Word) : (d.setBits o m v).mem = d.mem := rfl
@[simp] theorem Dev.setBits_pim (o : Nat) (m v : Word) : (d.setBits o m v).pim = d.pim := rfl
@[simp] theorem Dev.setBits_kvp (o : Nat) (m v : Word) : (d.setBits o m v).kvp = d.kvp := rfl
@[simp] theorem Dev.setBits_smp (o : Nat) (m v : Word) : (d.setBits o m v).smp = d.smp := rfl
@[simp] theorem Dev.setBits_upd (o : Nat) (m v : Word) : (d.setBits o m v).upd = d.upd := rfl
@[simp] theorem Dev.setBits_col (o : Nat) (m v : Word) : (d.setBits o m v).col = d.col := rfl
@[simp] theorem Dev.setBits_lnk (o : Nat) (m v : Word) : (d.setBits o m v).lnk = d.lnk := rfl
@[simp] theorem Dev.setBits_pwr (o : Nat) (m v : Word) : (d.setBits o m v).pwr = d.pwr := rfl
@[simp] theorem Dev.setBits_thm (o : Nat) (m v : Word) : (d.setBits o m v).thm = d.thm := rfl

/-! ### drew writes fresh only -/

@[simp] theorem Dev.drew_now : (d.drew ).now = d.now := rfl
@[simp] theorem Dev.drew_regs : (d.drew ).regs = d.regs := rfl
@[simp] theorem Dev.drew_log : (d.drew ).log = d.log := rfl
@[simp] theorem Dev.drew_trace : (d.drew ).trace = d.trace := rfl
@[simp] theorem Dev.drew_host : (d.drew ).host = d.host := rfl
@[simp] theorem Dev.drew_fns : (d.drew ).fns = d.fns := rfl
@[simp] theorem Dev.drew_queues : (d.drew ).queues = d.queues := rfl
@[simp] theorem Dev.drew_ctxs : (d.drew ).ctxs = d.ctxs := rfl
@[simp] theorem Dev.drew_extents : (d.drew ).extents = d.extents := rfl
@[simp] theorem Dev.drew_resigns : (d.drew ).resigns = d.resigns := rfl
@[simp] theorem Dev.drew_quiet : (d.drew ).quiet = d.quiet := rfl
@[simp] theorem Dev.drew_mboxes : (d.drew ).mboxes = d.mboxes := rfl
@[simp] theorem Dev.drew_fw : (d.drew ).fw = d.fw := rfl
@[simp] theorem Dev.drew_jobs : (d.drew ).jobs = d.jobs := rfl
@[simp] theorem Dev.drew_timers : (d.drew ).timers = d.timers := rfl
@[simp] theorem Dev.drew_boot : (d.drew ).boot = d.boot := rfl
@[simp] theorem Dev.drew_pins : (d.drew ).pins = d.pins := rfl
@[simp] theorem Dev.drew_tiles : (d.drew ).tiles = d.tiles := rfl
@[simp] theorem Dev.drew_pipes : (d.drew ).pipes = d.pipes := rfl
@[simp] theorem Dev.drew_streams : (d.drew ).streams = d.streams := rfl
@[simp] theorem Dev.drew_waits : (d.drew ).waits = d.waits := rfl
@[simp] theorem Dev.drew_syncJobs : (d.drew ).syncJobs = d.syncJobs := rfl
@[simp] theorem Dev.drew_noc : (d.drew ).noc = d.noc := rfl
@[simp] theorem Dev.drew_mem : (d.drew ).mem = d.mem := rfl
@[simp] theorem Dev.drew_pim : (d.drew ).pim = d.pim := rfl
@[simp] theorem Dev.drew_kvp : (d.drew ).kvp = d.kvp := rfl
@[simp] theorem Dev.drew_smp : (d.drew ).smp = d.smp := rfl
@[simp] theorem Dev.drew_upd : (d.drew ).upd = d.upd := rfl
@[simp] theorem Dev.drew_col : (d.drew ).col = d.col := rfl
@[simp] theorem Dev.drew_lnk : (d.drew ).lnk = d.lnk := rfl
@[simp] theorem Dev.drew_pwr : (d.drew ).pwr = d.pwr := rfl
@[simp] theorem Dev.drew_thm : (d.drew ).thm = d.thm := rfl

/-! ### updTile writes tiles only -/

@[simp] theorem Dev.updTile_now (t : Nat) (f : Tile → Tile) : (d.updTile t f).now = d.now := rfl
@[simp] theorem Dev.updTile_fresh (t : Nat) (f : Tile → Tile) : (d.updTile t f).fresh = d.fresh := rfl
@[simp] theorem Dev.updTile_regs (t : Nat) (f : Tile → Tile) : (d.updTile t f).regs = d.regs := rfl
@[simp] theorem Dev.updTile_log (t : Nat) (f : Tile → Tile) : (d.updTile t f).log = d.log := rfl
@[simp] theorem Dev.updTile_trace (t : Nat) (f : Tile → Tile) : (d.updTile t f).trace = d.trace := rfl
@[simp] theorem Dev.updTile_host (t : Nat) (f : Tile → Tile) : (d.updTile t f).host = d.host := rfl
@[simp] theorem Dev.updTile_fns (t : Nat) (f : Tile → Tile) : (d.updTile t f).fns = d.fns := rfl
@[simp] theorem Dev.updTile_queues (t : Nat) (f : Tile → Tile) : (d.updTile t f).queues = d.queues := rfl
@[simp] theorem Dev.updTile_ctxs (t : Nat) (f : Tile → Tile) : (d.updTile t f).ctxs = d.ctxs := rfl
@[simp] theorem Dev.updTile_extents (t : Nat) (f : Tile → Tile) : (d.updTile t f).extents = d.extents := rfl
@[simp] theorem Dev.updTile_resigns (t : Nat) (f : Tile → Tile) : (d.updTile t f).resigns = d.resigns := rfl
@[simp] theorem Dev.updTile_quiet (t : Nat) (f : Tile → Tile) : (d.updTile t f).quiet = d.quiet := rfl
@[simp] theorem Dev.updTile_mboxes (t : Nat) (f : Tile → Tile) : (d.updTile t f).mboxes = d.mboxes := rfl
@[simp] theorem Dev.updTile_fw (t : Nat) (f : Tile → Tile) : (d.updTile t f).fw = d.fw := rfl
@[simp] theorem Dev.updTile_jobs (t : Nat) (f : Tile → Tile) : (d.updTile t f).jobs = d.jobs := rfl
@[simp] theorem Dev.updTile_timers (t : Nat) (f : Tile → Tile) : (d.updTile t f).timers = d.timers := rfl
@[simp] theorem Dev.updTile_boot (t : Nat) (f : Tile → Tile) : (d.updTile t f).boot = d.boot := rfl
@[simp] theorem Dev.updTile_pins (t : Nat) (f : Tile → Tile) : (d.updTile t f).pins = d.pins := rfl
@[simp] theorem Dev.updTile_pipes (t : Nat) (f : Tile → Tile) : (d.updTile t f).pipes = d.pipes := rfl
@[simp] theorem Dev.updTile_streams (t : Nat) (f : Tile → Tile) : (d.updTile t f).streams = d.streams := rfl
@[simp] theorem Dev.updTile_waits (t : Nat) (f : Tile → Tile) : (d.updTile t f).waits = d.waits := rfl
@[simp] theorem Dev.updTile_syncJobs (t : Nat) (f : Tile → Tile) : (d.updTile t f).syncJobs = d.syncJobs := rfl
@[simp] theorem Dev.updTile_noc (t : Nat) (f : Tile → Tile) : (d.updTile t f).noc = d.noc := rfl
@[simp] theorem Dev.updTile_mem (t : Nat) (f : Tile → Tile) : (d.updTile t f).mem = d.mem := rfl
@[simp] theorem Dev.updTile_pim (t : Nat) (f : Tile → Tile) : (d.updTile t f).pim = d.pim := rfl
@[simp] theorem Dev.updTile_kvp (t : Nat) (f : Tile → Tile) : (d.updTile t f).kvp = d.kvp := rfl
@[simp] theorem Dev.updTile_smp (t : Nat) (f : Tile → Tile) : (d.updTile t f).smp = d.smp := rfl
@[simp] theorem Dev.updTile_upd (t : Nat) (f : Tile → Tile) : (d.updTile t f).upd = d.upd := rfl
@[simp] theorem Dev.updTile_col (t : Nat) (f : Tile → Tile) : (d.updTile t f).col = d.col := rfl
@[simp] theorem Dev.updTile_lnk (t : Nat) (f : Tile → Tile) : (d.updTile t f).lnk = d.lnk := rfl
@[simp] theorem Dev.updTile_pwr (t : Nat) (f : Tile → Tile) : (d.updTile t f).pwr = d.pwr := rfl
@[simp] theorem Dev.updTile_thm (t : Nat) (f : Tile → Tile) : (d.updTile t f).thm = d.thm := rfl

/-! ### updQueue writes queues only -/

@[simp] theorem Dev.updQueue_now (q : Nat) (f : Queue → Queue) : (d.updQueue q f).now = d.now := rfl
@[simp] theorem Dev.updQueue_fresh (q : Nat) (f : Queue → Queue) : (d.updQueue q f).fresh = d.fresh := rfl
@[simp] theorem Dev.updQueue_regs (q : Nat) (f : Queue → Queue) : (d.updQueue q f).regs = d.regs := rfl
@[simp] theorem Dev.updQueue_log (q : Nat) (f : Queue → Queue) : (d.updQueue q f).log = d.log := rfl
@[simp] theorem Dev.updQueue_trace (q : Nat) (f : Queue → Queue) : (d.updQueue q f).trace = d.trace := rfl
@[simp] theorem Dev.updQueue_host (q : Nat) (f : Queue → Queue) : (d.updQueue q f).host = d.host := rfl
@[simp] theorem Dev.updQueue_fns (q : Nat) (f : Queue → Queue) : (d.updQueue q f).fns = d.fns := rfl
@[simp] theorem Dev.updQueue_ctxs (q : Nat) (f : Queue → Queue) : (d.updQueue q f).ctxs = d.ctxs := rfl
@[simp] theorem Dev.updQueue_extents (q : Nat) (f : Queue → Queue) : (d.updQueue q f).extents = d.extents := rfl
@[simp] theorem Dev.updQueue_resigns (q : Nat) (f : Queue → Queue) : (d.updQueue q f).resigns = d.resigns := rfl
@[simp] theorem Dev.updQueue_quiet (q : Nat) (f : Queue → Queue) : (d.updQueue q f).quiet = d.quiet := rfl
@[simp] theorem Dev.updQueue_mboxes (q : Nat) (f : Queue → Queue) : (d.updQueue q f).mboxes = d.mboxes := rfl
@[simp] theorem Dev.updQueue_fw (q : Nat) (f : Queue → Queue) : (d.updQueue q f).fw = d.fw := rfl
@[simp] theorem Dev.updQueue_jobs (q : Nat) (f : Queue → Queue) : (d.updQueue q f).jobs = d.jobs := rfl
@[simp] theorem Dev.updQueue_timers (q : Nat) (f : Queue → Queue) : (d.updQueue q f).timers = d.timers := rfl
@[simp] theorem Dev.updQueue_boot (q : Nat) (f : Queue → Queue) : (d.updQueue q f).boot = d.boot := rfl
@[simp] theorem Dev.updQueue_pins (q : Nat) (f : Queue → Queue) : (d.updQueue q f).pins = d.pins := rfl
@[simp] theorem Dev.updQueue_tiles (q : Nat) (f : Queue → Queue) : (d.updQueue q f).tiles = d.tiles := rfl
@[simp] theorem Dev.updQueue_pipes (q : Nat) (f : Queue → Queue) : (d.updQueue q f).pipes = d.pipes := rfl
@[simp] theorem Dev.updQueue_streams (q : Nat) (f : Queue → Queue) : (d.updQueue q f).streams = d.streams := rfl
@[simp] theorem Dev.updQueue_waits (q : Nat) (f : Queue → Queue) : (d.updQueue q f).waits = d.waits := rfl
@[simp] theorem Dev.updQueue_syncJobs (q : Nat) (f : Queue → Queue) : (d.updQueue q f).syncJobs = d.syncJobs := rfl
@[simp] theorem Dev.updQueue_noc (q : Nat) (f : Queue → Queue) : (d.updQueue q f).noc = d.noc := rfl
@[simp] theorem Dev.updQueue_mem (q : Nat) (f : Queue → Queue) : (d.updQueue q f).mem = d.mem := rfl
@[simp] theorem Dev.updQueue_pim (q : Nat) (f : Queue → Queue) : (d.updQueue q f).pim = d.pim := rfl
@[simp] theorem Dev.updQueue_kvp (q : Nat) (f : Queue → Queue) : (d.updQueue q f).kvp = d.kvp := rfl
@[simp] theorem Dev.updQueue_smp (q : Nat) (f : Queue → Queue) : (d.updQueue q f).smp = d.smp := rfl
@[simp] theorem Dev.updQueue_upd (q : Nat) (f : Queue → Queue) : (d.updQueue q f).upd = d.upd := rfl
@[simp] theorem Dev.updQueue_col (q : Nat) (f : Queue → Queue) : (d.updQueue q f).col = d.col := rfl
@[simp] theorem Dev.updQueue_lnk (q : Nat) (f : Queue → Queue) : (d.updQueue q f).lnk = d.lnk := rfl
@[simp] theorem Dev.updQueue_pwr (q : Nat) (f : Queue → Queue) : (d.updQueue q f).pwr = d.pwr := rfl
@[simp] theorem Dev.updQueue_thm (q : Nat) (f : Queue → Queue) : (d.updQueue q f).thm = d.thm := rfl

/-! ### updDesc writes queues only -/

@[simp] theorem Dev.updDesc_now (q n : Nat) (f : Desc → Desc) : (d.updDesc q n f).now = d.now := rfl
@[simp] theorem Dev.updDesc_fresh (q n : Nat) (f : Desc → Desc) : (d.updDesc q n f).fresh = d.fresh := rfl
@[simp] theorem Dev.updDesc_regs (q n : Nat) (f : Desc → Desc) : (d.updDesc q n f).regs = d.regs := rfl
@[simp] theorem Dev.updDesc_log (q n : Nat) (f : Desc → Desc) : (d.updDesc q n f).log = d.log := rfl
@[simp] theorem Dev.updDesc_trace (q n : Nat) (f : Desc → Desc) : (d.updDesc q n f).trace = d.trace := rfl
@[simp] theorem Dev.updDesc_host (q n : Nat) (f : Desc → Desc) : (d.updDesc q n f).host = d.host := rfl
@[simp] theorem Dev.updDesc_fns (q n : Nat) (f : Desc → Desc) : (d.updDesc q n f).fns = d.fns := rfl
@[simp] theorem Dev.updDesc_ctxs (q n : Nat) (f : Desc → Desc) : (d.updDesc q n f).ctxs = d.ctxs := rfl
@[simp] theorem Dev.updDesc_extents (q n : Nat) (f : Desc → Desc) : (d.updDesc q n f).extents = d.extents := rfl
@[simp] theorem Dev.updDesc_resigns (q n : Nat) (f : Desc → Desc) : (d.updDesc q n f).resigns = d.resigns := rfl
@[simp] theorem Dev.updDesc_quiet (q n : Nat) (f : Desc → Desc) : (d.updDesc q n f).quiet = d.quiet := rfl
@[simp] theorem Dev.updDesc_mboxes (q n : Nat) (f : Desc → Desc) : (d.updDesc q n f).mboxes = d.mboxes := rfl
@[simp] theorem Dev.updDesc_fw (q n : Nat) (f : Desc → Desc) : (d.updDesc q n f).fw = d.fw := rfl
@[simp] theorem Dev.updDesc_jobs (q n : Nat) (f : Desc → Desc) : (d.updDesc q n f).jobs = d.jobs := rfl
@[simp] theorem Dev.updDesc_timers (q n : Nat) (f : Desc → Desc) : (d.updDesc q n f).timers = d.timers := rfl
@[simp] theorem Dev.updDesc_boot (q n : Nat) (f : Desc → Desc) : (d.updDesc q n f).boot = d.boot := rfl
@[simp] theorem Dev.updDesc_pins (q n : Nat) (f : Desc → Desc) : (d.updDesc q n f).pins = d.pins := rfl
@[simp] theorem Dev.updDesc_tiles (q n : Nat) (f : Desc → Desc) : (d.updDesc q n f).tiles = d.tiles := rfl
@[simp] theorem Dev.updDesc_pipes (q n : Nat) (f : Desc → Desc) : (d.updDesc q n f).pipes = d.pipes := rfl
@[simp] theorem Dev.updDesc_streams (q n : Nat) (f : Desc → Desc) : (d.updDesc q n f).streams = d.streams := rfl
@[simp] theorem Dev.updDesc_waits (q n : Nat) (f : Desc → Desc) : (d.updDesc q n f).waits = d.waits := rfl
@[simp] theorem Dev.updDesc_syncJobs (q n : Nat) (f : Desc → Desc) : (d.updDesc q n f).syncJobs = d.syncJobs := rfl
@[simp] theorem Dev.updDesc_noc (q n : Nat) (f : Desc → Desc) : (d.updDesc q n f).noc = d.noc := rfl
@[simp] theorem Dev.updDesc_mem (q n : Nat) (f : Desc → Desc) : (d.updDesc q n f).mem = d.mem := rfl
@[simp] theorem Dev.updDesc_pim (q n : Nat) (f : Desc → Desc) : (d.updDesc q n f).pim = d.pim := rfl
@[simp] theorem Dev.updDesc_kvp (q n : Nat) (f : Desc → Desc) : (d.updDesc q n f).kvp = d.kvp := rfl
@[simp] theorem Dev.updDesc_smp (q n : Nat) (f : Desc → Desc) : (d.updDesc q n f).smp = d.smp := rfl
@[simp] theorem Dev.updDesc_upd (q n : Nat) (f : Desc → Desc) : (d.updDesc q n f).upd = d.upd := rfl
@[simp] theorem Dev.updDesc_col (q n : Nat) (f : Desc → Desc) : (d.updDesc q n f).col = d.col := rfl
@[simp] theorem Dev.updDesc_lnk (q n : Nat) (f : Desc → Desc) : (d.updDesc q n f).lnk = d.lnk := rfl
@[simp] theorem Dev.updDesc_pwr (q n : Nat) (f : Desc → Desc) : (d.updDesc q n f).pwr = d.pwr := rfl
@[simp] theorem Dev.updDesc_thm (q n : Nat) (f : Desc → Desc) : (d.updDesc q n f).thm = d.thm := rfl

/-! ### updCtx writes ctxs only -/

@[simp] theorem Dev.updCtx_now (c : Nat) (f : Ctx → Ctx) : (d.updCtx c f).now = d.now := rfl
@[simp] theorem Dev.updCtx_fresh (c : Nat) (f : Ctx → Ctx) : (d.updCtx c f).fresh = d.fresh := rfl
@[simp] theorem Dev.updCtx_regs (c : Nat) (f : Ctx → Ctx) : (d.updCtx c f).regs = d.regs := rfl
@[simp] theorem Dev.updCtx_log (c : Nat) (f : Ctx → Ctx) : (d.updCtx c f).log = d.log := rfl
@[simp] theorem Dev.updCtx_trace (c : Nat) (f : Ctx → Ctx) : (d.updCtx c f).trace = d.trace := rfl
@[simp] theorem Dev.updCtx_host (c : Nat) (f : Ctx → Ctx) : (d.updCtx c f).host = d.host := rfl
@[simp] theorem Dev.updCtx_fns (c : Nat) (f : Ctx → Ctx) : (d.updCtx c f).fns = d.fns := rfl
@[simp] theorem Dev.updCtx_queues (c : Nat) (f : Ctx → Ctx) : (d.updCtx c f).queues = d.queues := rfl
@[simp] theorem Dev.updCtx_extents (c : Nat) (f : Ctx → Ctx) : (d.updCtx c f).extents = d.extents := rfl
@[simp] theorem Dev.updCtx_resigns (c : Nat) (f : Ctx → Ctx) : (d.updCtx c f).resigns = d.resigns := rfl
@[simp] theorem Dev.updCtx_quiet (c : Nat) (f : Ctx → Ctx) : (d.updCtx c f).quiet = d.quiet := rfl
@[simp] theorem Dev.updCtx_mboxes (c : Nat) (f : Ctx → Ctx) : (d.updCtx c f).mboxes = d.mboxes := rfl
@[simp] theorem Dev.updCtx_fw (c : Nat) (f : Ctx → Ctx) : (d.updCtx c f).fw = d.fw := rfl
@[simp] theorem Dev.updCtx_jobs (c : Nat) (f : Ctx → Ctx) : (d.updCtx c f).jobs = d.jobs := rfl
@[simp] theorem Dev.updCtx_timers (c : Nat) (f : Ctx → Ctx) : (d.updCtx c f).timers = d.timers := rfl
@[simp] theorem Dev.updCtx_boot (c : Nat) (f : Ctx → Ctx) : (d.updCtx c f).boot = d.boot := rfl
@[simp] theorem Dev.updCtx_pins (c : Nat) (f : Ctx → Ctx) : (d.updCtx c f).pins = d.pins := rfl
@[simp] theorem Dev.updCtx_tiles (c : Nat) (f : Ctx → Ctx) : (d.updCtx c f).tiles = d.tiles := rfl
@[simp] theorem Dev.updCtx_pipes (c : Nat) (f : Ctx → Ctx) : (d.updCtx c f).pipes = d.pipes := rfl
@[simp] theorem Dev.updCtx_streams (c : Nat) (f : Ctx → Ctx) : (d.updCtx c f).streams = d.streams := rfl
@[simp] theorem Dev.updCtx_waits (c : Nat) (f : Ctx → Ctx) : (d.updCtx c f).waits = d.waits := rfl
@[simp] theorem Dev.updCtx_syncJobs (c : Nat) (f : Ctx → Ctx) : (d.updCtx c f).syncJobs = d.syncJobs := rfl
@[simp] theorem Dev.updCtx_noc (c : Nat) (f : Ctx → Ctx) : (d.updCtx c f).noc = d.noc := rfl
@[simp] theorem Dev.updCtx_mem (c : Nat) (f : Ctx → Ctx) : (d.updCtx c f).mem = d.mem := rfl
@[simp] theorem Dev.updCtx_pim (c : Nat) (f : Ctx → Ctx) : (d.updCtx c f).pim = d.pim := rfl
@[simp] theorem Dev.updCtx_kvp (c : Nat) (f : Ctx → Ctx) : (d.updCtx c f).kvp = d.kvp := rfl
@[simp] theorem Dev.updCtx_smp (c : Nat) (f : Ctx → Ctx) : (d.updCtx c f).smp = d.smp := rfl
@[simp] theorem Dev.updCtx_upd (c : Nat) (f : Ctx → Ctx) : (d.updCtx c f).upd = d.upd := rfl
@[simp] theorem Dev.updCtx_col (c : Nat) (f : Ctx → Ctx) : (d.updCtx c f).col = d.col := rfl
@[simp] theorem Dev.updCtx_lnk (c : Nat) (f : Ctx → Ctx) : (d.updCtx c f).lnk = d.lnk := rfl
@[simp] theorem Dev.updCtx_pwr (c : Nat) (f : Ctx → Ctx) : (d.updCtx c f).pwr = d.pwr := rfl
@[simp] theorem Dev.updCtx_thm (c : Nat) (f : Ctx → Ctx) : (d.updCtx c f).thm = d.thm := rfl

/-! ### updFn writes fns only -/

@[simp] theorem Dev.updFn_now (n : Nat) (f : Fn → Fn) : (d.updFn n f).now = d.now := rfl
@[simp] theorem Dev.updFn_fresh (n : Nat) (f : Fn → Fn) : (d.updFn n f).fresh = d.fresh := rfl
@[simp] theorem Dev.updFn_regs (n : Nat) (f : Fn → Fn) : (d.updFn n f).regs = d.regs := rfl
@[simp] theorem Dev.updFn_log (n : Nat) (f : Fn → Fn) : (d.updFn n f).log = d.log := rfl
@[simp] theorem Dev.updFn_trace (n : Nat) (f : Fn → Fn) : (d.updFn n f).trace = d.trace := rfl
@[simp] theorem Dev.updFn_host (n : Nat) (f : Fn → Fn) : (d.updFn n f).host = d.host := rfl
@[simp] theorem Dev.updFn_queues (n : Nat) (f : Fn → Fn) : (d.updFn n f).queues = d.queues := rfl
@[simp] theorem Dev.updFn_ctxs (n : Nat) (f : Fn → Fn) : (d.updFn n f).ctxs = d.ctxs := rfl
@[simp] theorem Dev.updFn_extents (n : Nat) (f : Fn → Fn) : (d.updFn n f).extents = d.extents := rfl
@[simp] theorem Dev.updFn_resigns (n : Nat) (f : Fn → Fn) : (d.updFn n f).resigns = d.resigns := rfl
@[simp] theorem Dev.updFn_quiet (n : Nat) (f : Fn → Fn) : (d.updFn n f).quiet = d.quiet := rfl
@[simp] theorem Dev.updFn_mboxes (n : Nat) (f : Fn → Fn) : (d.updFn n f).mboxes = d.mboxes := rfl
@[simp] theorem Dev.updFn_fw (n : Nat) (f : Fn → Fn) : (d.updFn n f).fw = d.fw := rfl
@[simp] theorem Dev.updFn_jobs (n : Nat) (f : Fn → Fn) : (d.updFn n f).jobs = d.jobs := rfl
@[simp] theorem Dev.updFn_timers (n : Nat) (f : Fn → Fn) : (d.updFn n f).timers = d.timers := rfl
@[simp] theorem Dev.updFn_boot (n : Nat) (f : Fn → Fn) : (d.updFn n f).boot = d.boot := rfl
@[simp] theorem Dev.updFn_pins (n : Nat) (f : Fn → Fn) : (d.updFn n f).pins = d.pins := rfl
@[simp] theorem Dev.updFn_tiles (n : Nat) (f : Fn → Fn) : (d.updFn n f).tiles = d.tiles := rfl
@[simp] theorem Dev.updFn_pipes (n : Nat) (f : Fn → Fn) : (d.updFn n f).pipes = d.pipes := rfl
@[simp] theorem Dev.updFn_streams (n : Nat) (f : Fn → Fn) : (d.updFn n f).streams = d.streams := rfl
@[simp] theorem Dev.updFn_waits (n : Nat) (f : Fn → Fn) : (d.updFn n f).waits = d.waits := rfl
@[simp] theorem Dev.updFn_syncJobs (n : Nat) (f : Fn → Fn) : (d.updFn n f).syncJobs = d.syncJobs := rfl
@[simp] theorem Dev.updFn_noc (n : Nat) (f : Fn → Fn) : (d.updFn n f).noc = d.noc := rfl
@[simp] theorem Dev.updFn_mem (n : Nat) (f : Fn → Fn) : (d.updFn n f).mem = d.mem := rfl
@[simp] theorem Dev.updFn_pim (n : Nat) (f : Fn → Fn) : (d.updFn n f).pim = d.pim := rfl
@[simp] theorem Dev.updFn_kvp (n : Nat) (f : Fn → Fn) : (d.updFn n f).kvp = d.kvp := rfl
@[simp] theorem Dev.updFn_smp (n : Nat) (f : Fn → Fn) : (d.updFn n f).smp = d.smp := rfl
@[simp] theorem Dev.updFn_upd (n : Nat) (f : Fn → Fn) : (d.updFn n f).upd = d.upd := rfl
@[simp] theorem Dev.updFn_col (n : Nat) (f : Fn → Fn) : (d.updFn n f).col = d.col := rfl
@[simp] theorem Dev.updFn_lnk (n : Nat) (f : Fn → Fn) : (d.updFn n f).lnk = d.lnk := rfl
@[simp] theorem Dev.updFn_pwr (n : Nat) (f : Fn → Fn) : (d.updFn n f).pwr = d.pwr := rfl
@[simp] theorem Dev.updFn_thm (n : Nat) (f : Fn → Fn) : (d.updFn n f).thm = d.thm := rfl

/-! ### updMbox writes mboxes only -/

@[simp] theorem Dev.updMbox_now (n : Nat) (f : Mailbox → Mailbox) : (d.updMbox n f).now = d.now := rfl
@[simp] theorem Dev.updMbox_fresh (n : Nat) (f : Mailbox → Mailbox) : (d.updMbox n f).fresh = d.fresh := rfl
@[simp] theorem Dev.updMbox_regs (n : Nat) (f : Mailbox → Mailbox) : (d.updMbox n f).regs = d.regs := rfl
@[simp] theorem Dev.updMbox_log (n : Nat) (f : Mailbox → Mailbox) : (d.updMbox n f).log = d.log := rfl
@[simp] theorem Dev.updMbox_trace (n : Nat) (f : Mailbox → Mailbox) : (d.updMbox n f).trace = d.trace := rfl
@[simp] theorem Dev.updMbox_host (n : Nat) (f : Mailbox → Mailbox) : (d.updMbox n f).host = d.host := rfl
@[simp] theorem Dev.updMbox_fns (n : Nat) (f : Mailbox → Mailbox) : (d.updMbox n f).fns = d.fns := rfl
@[simp] theorem Dev.updMbox_queues (n : Nat) (f : Mailbox → Mailbox) : (d.updMbox n f).queues = d.queues := rfl
@[simp] theorem Dev.updMbox_ctxs (n : Nat) (f : Mailbox → Mailbox) : (d.updMbox n f).ctxs = d.ctxs := rfl
@[simp] theorem Dev.updMbox_extents (n : Nat) (f : Mailbox → Mailbox) : (d.updMbox n f).extents = d.extents := rfl
@[simp] theorem Dev.updMbox_resigns (n : Nat) (f : Mailbox → Mailbox) : (d.updMbox n f).resigns = d.resigns := rfl
@[simp] theorem Dev.updMbox_quiet (n : Nat) (f : Mailbox → Mailbox) : (d.updMbox n f).quiet = d.quiet := rfl
@[simp] theorem Dev.updMbox_fw (n : Nat) (f : Mailbox → Mailbox) : (d.updMbox n f).fw = d.fw := rfl
@[simp] theorem Dev.updMbox_jobs (n : Nat) (f : Mailbox → Mailbox) : (d.updMbox n f).jobs = d.jobs := rfl
@[simp] theorem Dev.updMbox_timers (n : Nat) (f : Mailbox → Mailbox) : (d.updMbox n f).timers = d.timers := rfl
@[simp] theorem Dev.updMbox_boot (n : Nat) (f : Mailbox → Mailbox) : (d.updMbox n f).boot = d.boot := rfl
@[simp] theorem Dev.updMbox_pins (n : Nat) (f : Mailbox → Mailbox) : (d.updMbox n f).pins = d.pins := rfl
@[simp] theorem Dev.updMbox_tiles (n : Nat) (f : Mailbox → Mailbox) : (d.updMbox n f).tiles = d.tiles := rfl
@[simp] theorem Dev.updMbox_pipes (n : Nat) (f : Mailbox → Mailbox) : (d.updMbox n f).pipes = d.pipes := rfl
@[simp] theorem Dev.updMbox_streams (n : Nat) (f : Mailbox → Mailbox) : (d.updMbox n f).streams = d.streams := rfl
@[simp] theorem Dev.updMbox_waits (n : Nat) (f : Mailbox → Mailbox) : (d.updMbox n f).waits = d.waits := rfl
@[simp] theorem Dev.updMbox_syncJobs (n : Nat) (f : Mailbox → Mailbox) : (d.updMbox n f).syncJobs = d.syncJobs := rfl
@[simp] theorem Dev.updMbox_noc (n : Nat) (f : Mailbox → Mailbox) : (d.updMbox n f).noc = d.noc := rfl
@[simp] theorem Dev.updMbox_mem (n : Nat) (f : Mailbox → Mailbox) : (d.updMbox n f).mem = d.mem := rfl
@[simp] theorem Dev.updMbox_pim (n : Nat) (f : Mailbox → Mailbox) : (d.updMbox n f).pim = d.pim := rfl
@[simp] theorem Dev.updMbox_kvp (n : Nat) (f : Mailbox → Mailbox) : (d.updMbox n f).kvp = d.kvp := rfl
@[simp] theorem Dev.updMbox_smp (n : Nat) (f : Mailbox → Mailbox) : (d.updMbox n f).smp = d.smp := rfl
@[simp] theorem Dev.updMbox_upd (n : Nat) (f : Mailbox → Mailbox) : (d.updMbox n f).upd = d.upd := rfl
@[simp] theorem Dev.updMbox_col (n : Nat) (f : Mailbox → Mailbox) : (d.updMbox n f).col = d.col := rfl
@[simp] theorem Dev.updMbox_lnk (n : Nat) (f : Mailbox → Mailbox) : (d.updMbox n f).lnk = d.lnk := rfl
@[simp] theorem Dev.updMbox_pwr (n : Nat) (f : Mailbox → Mailbox) : (d.updMbox n f).pwr = d.pwr := rfl
@[simp] theorem Dev.updMbox_thm (n : Nat) (f : Mailbox → Mailbox) : (d.updMbox n f).thm = d.thm := rfl

/-! ### updPim writes pim only -/

@[simp] theorem Dev.updPim_now (n : Nat) (f : PimStack → PimStack) : (d.updPim n f).now = d.now := rfl
@[simp] theorem Dev.updPim_fresh (n : Nat) (f : PimStack → PimStack) : (d.updPim n f).fresh = d.fresh := rfl
@[simp] theorem Dev.updPim_regs (n : Nat) (f : PimStack → PimStack) : (d.updPim n f).regs = d.regs := rfl
@[simp] theorem Dev.updPim_log (n : Nat) (f : PimStack → PimStack) : (d.updPim n f).log = d.log := rfl
@[simp] theorem Dev.updPim_trace (n : Nat) (f : PimStack → PimStack) : (d.updPim n f).trace = d.trace := rfl
@[simp] theorem Dev.updPim_host (n : Nat) (f : PimStack → PimStack) : (d.updPim n f).host = d.host := rfl
@[simp] theorem Dev.updPim_fns (n : Nat) (f : PimStack → PimStack) : (d.updPim n f).fns = d.fns := rfl
@[simp] theorem Dev.updPim_queues (n : Nat) (f : PimStack → PimStack) : (d.updPim n f).queues = d.queues := rfl
@[simp] theorem Dev.updPim_ctxs (n : Nat) (f : PimStack → PimStack) : (d.updPim n f).ctxs = d.ctxs := rfl
@[simp] theorem Dev.updPim_extents (n : Nat) (f : PimStack → PimStack) : (d.updPim n f).extents = d.extents := rfl
@[simp] theorem Dev.updPim_resigns (n : Nat) (f : PimStack → PimStack) : (d.updPim n f).resigns = d.resigns := rfl
@[simp] theorem Dev.updPim_quiet (n : Nat) (f : PimStack → PimStack) : (d.updPim n f).quiet = d.quiet := rfl
@[simp] theorem Dev.updPim_mboxes (n : Nat) (f : PimStack → PimStack) : (d.updPim n f).mboxes = d.mboxes := rfl
@[simp] theorem Dev.updPim_fw (n : Nat) (f : PimStack → PimStack) : (d.updPim n f).fw = d.fw := rfl
@[simp] theorem Dev.updPim_jobs (n : Nat) (f : PimStack → PimStack) : (d.updPim n f).jobs = d.jobs := rfl
@[simp] theorem Dev.updPim_timers (n : Nat) (f : PimStack → PimStack) : (d.updPim n f).timers = d.timers := rfl
@[simp] theorem Dev.updPim_boot (n : Nat) (f : PimStack → PimStack) : (d.updPim n f).boot = d.boot := rfl
@[simp] theorem Dev.updPim_pins (n : Nat) (f : PimStack → PimStack) : (d.updPim n f).pins = d.pins := rfl
@[simp] theorem Dev.updPim_tiles (n : Nat) (f : PimStack → PimStack) : (d.updPim n f).tiles = d.tiles := rfl
@[simp] theorem Dev.updPim_pipes (n : Nat) (f : PimStack → PimStack) : (d.updPim n f).pipes = d.pipes := rfl
@[simp] theorem Dev.updPim_streams (n : Nat) (f : PimStack → PimStack) : (d.updPim n f).streams = d.streams := rfl
@[simp] theorem Dev.updPim_waits (n : Nat) (f : PimStack → PimStack) : (d.updPim n f).waits = d.waits := rfl
@[simp] theorem Dev.updPim_syncJobs (n : Nat) (f : PimStack → PimStack) : (d.updPim n f).syncJobs = d.syncJobs := rfl
@[simp] theorem Dev.updPim_noc (n : Nat) (f : PimStack → PimStack) : (d.updPim n f).noc = d.noc := rfl
@[simp] theorem Dev.updPim_mem (n : Nat) (f : PimStack → PimStack) : (d.updPim n f).mem = d.mem := rfl
@[simp] theorem Dev.updPim_kvp (n : Nat) (f : PimStack → PimStack) : (d.updPim n f).kvp = d.kvp := rfl
@[simp] theorem Dev.updPim_smp (n : Nat) (f : PimStack → PimStack) : (d.updPim n f).smp = d.smp := rfl
@[simp] theorem Dev.updPim_upd (n : Nat) (f : PimStack → PimStack) : (d.updPim n f).upd = d.upd := rfl
@[simp] theorem Dev.updPim_col (n : Nat) (f : PimStack → PimStack) : (d.updPim n f).col = d.col := rfl
@[simp] theorem Dev.updPim_lnk (n : Nat) (f : PimStack → PimStack) : (d.updPim n f).lnk = d.lnk := rfl
@[simp] theorem Dev.updPim_pwr (n : Nat) (f : PimStack → PimStack) : (d.updPim n f).pwr = d.pwr := rfl
@[simp] theorem Dev.updPim_thm (n : Nat) (f : PimStack → PimStack) : (d.updPim n f).thm = d.thm := rfl

/-! ### updKvp writes kvp only -/

@[simp] theorem Dev.updKvp_now (f : Kvp → Kvp) : (d.updKvp f).now = d.now := rfl
@[simp] theorem Dev.updKvp_fresh (f : Kvp → Kvp) : (d.updKvp f).fresh = d.fresh := rfl
@[simp] theorem Dev.updKvp_regs (f : Kvp → Kvp) : (d.updKvp f).regs = d.regs := rfl
@[simp] theorem Dev.updKvp_log (f : Kvp → Kvp) : (d.updKvp f).log = d.log := rfl
@[simp] theorem Dev.updKvp_trace (f : Kvp → Kvp) : (d.updKvp f).trace = d.trace := rfl
@[simp] theorem Dev.updKvp_host (f : Kvp → Kvp) : (d.updKvp f).host = d.host := rfl
@[simp] theorem Dev.updKvp_fns (f : Kvp → Kvp) : (d.updKvp f).fns = d.fns := rfl
@[simp] theorem Dev.updKvp_queues (f : Kvp → Kvp) : (d.updKvp f).queues = d.queues := rfl
@[simp] theorem Dev.updKvp_ctxs (f : Kvp → Kvp) : (d.updKvp f).ctxs = d.ctxs := rfl
@[simp] theorem Dev.updKvp_extents (f : Kvp → Kvp) : (d.updKvp f).extents = d.extents := rfl
@[simp] theorem Dev.updKvp_resigns (f : Kvp → Kvp) : (d.updKvp f).resigns = d.resigns := rfl
@[simp] theorem Dev.updKvp_quiet (f : Kvp → Kvp) : (d.updKvp f).quiet = d.quiet := rfl
@[simp] theorem Dev.updKvp_mboxes (f : Kvp → Kvp) : (d.updKvp f).mboxes = d.mboxes := rfl
@[simp] theorem Dev.updKvp_fw (f : Kvp → Kvp) : (d.updKvp f).fw = d.fw := rfl
@[simp] theorem Dev.updKvp_jobs (f : Kvp → Kvp) : (d.updKvp f).jobs = d.jobs := rfl
@[simp] theorem Dev.updKvp_timers (f : Kvp → Kvp) : (d.updKvp f).timers = d.timers := rfl
@[simp] theorem Dev.updKvp_boot (f : Kvp → Kvp) : (d.updKvp f).boot = d.boot := rfl
@[simp] theorem Dev.updKvp_pins (f : Kvp → Kvp) : (d.updKvp f).pins = d.pins := rfl
@[simp] theorem Dev.updKvp_tiles (f : Kvp → Kvp) : (d.updKvp f).tiles = d.tiles := rfl
@[simp] theorem Dev.updKvp_pipes (f : Kvp → Kvp) : (d.updKvp f).pipes = d.pipes := rfl
@[simp] theorem Dev.updKvp_streams (f : Kvp → Kvp) : (d.updKvp f).streams = d.streams := rfl
@[simp] theorem Dev.updKvp_waits (f : Kvp → Kvp) : (d.updKvp f).waits = d.waits := rfl
@[simp] theorem Dev.updKvp_syncJobs (f : Kvp → Kvp) : (d.updKvp f).syncJobs = d.syncJobs := rfl
@[simp] theorem Dev.updKvp_noc (f : Kvp → Kvp) : (d.updKvp f).noc = d.noc := rfl
@[simp] theorem Dev.updKvp_mem (f : Kvp → Kvp) : (d.updKvp f).mem = d.mem := rfl
@[simp] theorem Dev.updKvp_pim (f : Kvp → Kvp) : (d.updKvp f).pim = d.pim := rfl
@[simp] theorem Dev.updKvp_smp (f : Kvp → Kvp) : (d.updKvp f).smp = d.smp := rfl
@[simp] theorem Dev.updKvp_upd (f : Kvp → Kvp) : (d.updKvp f).upd = d.upd := rfl
@[simp] theorem Dev.updKvp_col (f : Kvp → Kvp) : (d.updKvp f).col = d.col := rfl
@[simp] theorem Dev.updKvp_lnk (f : Kvp → Kvp) : (d.updKvp f).lnk = d.lnk := rfl
@[simp] theorem Dev.updKvp_pwr (f : Kvp → Kvp) : (d.updKvp f).pwr = d.pwr := rfl
@[simp] theorem Dev.updKvp_thm (f : Kvp → Kvp) : (d.updKvp f).thm = d.thm := rfl

/-! ### updSampler writes smp only -/

@[simp] theorem Dev.updSampler_now (n : Nat) (f : Sampler → Sampler) : (d.updSampler n f).now = d.now := rfl
@[simp] theorem Dev.updSampler_fresh (n : Nat) (f : Sampler → Sampler) : (d.updSampler n f).fresh = d.fresh := rfl
@[simp] theorem Dev.updSampler_regs (n : Nat) (f : Sampler → Sampler) : (d.updSampler n f).regs = d.regs := rfl
@[simp] theorem Dev.updSampler_log (n : Nat) (f : Sampler → Sampler) : (d.updSampler n f).log = d.log := rfl
@[simp] theorem Dev.updSampler_trace (n : Nat) (f : Sampler → Sampler) : (d.updSampler n f).trace = d.trace := rfl
@[simp] theorem Dev.updSampler_host (n : Nat) (f : Sampler → Sampler) : (d.updSampler n f).host = d.host := rfl
@[simp] theorem Dev.updSampler_fns (n : Nat) (f : Sampler → Sampler) : (d.updSampler n f).fns = d.fns := rfl
@[simp] theorem Dev.updSampler_queues (n : Nat) (f : Sampler → Sampler) : (d.updSampler n f).queues = d.queues := rfl
@[simp] theorem Dev.updSampler_ctxs (n : Nat) (f : Sampler → Sampler) : (d.updSampler n f).ctxs = d.ctxs := rfl
@[simp] theorem Dev.updSampler_extents (n : Nat) (f : Sampler → Sampler) : (d.updSampler n f).extents = d.extents := rfl
@[simp] theorem Dev.updSampler_resigns (n : Nat) (f : Sampler → Sampler) : (d.updSampler n f).resigns = d.resigns := rfl
@[simp] theorem Dev.updSampler_quiet (n : Nat) (f : Sampler → Sampler) : (d.updSampler n f).quiet = d.quiet := rfl
@[simp] theorem Dev.updSampler_mboxes (n : Nat) (f : Sampler → Sampler) : (d.updSampler n f).mboxes = d.mboxes := rfl
@[simp] theorem Dev.updSampler_fw (n : Nat) (f : Sampler → Sampler) : (d.updSampler n f).fw = d.fw := rfl
@[simp] theorem Dev.updSampler_jobs (n : Nat) (f : Sampler → Sampler) : (d.updSampler n f).jobs = d.jobs := rfl
@[simp] theorem Dev.updSampler_timers (n : Nat) (f : Sampler → Sampler) : (d.updSampler n f).timers = d.timers := rfl
@[simp] theorem Dev.updSampler_boot (n : Nat) (f : Sampler → Sampler) : (d.updSampler n f).boot = d.boot := rfl
@[simp] theorem Dev.updSampler_pins (n : Nat) (f : Sampler → Sampler) : (d.updSampler n f).pins = d.pins := rfl
@[simp] theorem Dev.updSampler_tiles (n : Nat) (f : Sampler → Sampler) : (d.updSampler n f).tiles = d.tiles := rfl
@[simp] theorem Dev.updSampler_pipes (n : Nat) (f : Sampler → Sampler) : (d.updSampler n f).pipes = d.pipes := rfl
@[simp] theorem Dev.updSampler_streams (n : Nat) (f : Sampler → Sampler) : (d.updSampler n f).streams = d.streams := rfl
@[simp] theorem Dev.updSampler_waits (n : Nat) (f : Sampler → Sampler) : (d.updSampler n f).waits = d.waits := rfl
@[simp] theorem Dev.updSampler_syncJobs (n : Nat) (f : Sampler → Sampler) : (d.updSampler n f).syncJobs = d.syncJobs := rfl
@[simp] theorem Dev.updSampler_noc (n : Nat) (f : Sampler → Sampler) : (d.updSampler n f).noc = d.noc := rfl
@[simp] theorem Dev.updSampler_mem (n : Nat) (f : Sampler → Sampler) : (d.updSampler n f).mem = d.mem := rfl
@[simp] theorem Dev.updSampler_pim (n : Nat) (f : Sampler → Sampler) : (d.updSampler n f).pim = d.pim := rfl
@[simp] theorem Dev.updSampler_kvp (n : Nat) (f : Sampler → Sampler) : (d.updSampler n f).kvp = d.kvp := rfl
@[simp] theorem Dev.updSampler_upd (n : Nat) (f : Sampler → Sampler) : (d.updSampler n f).upd = d.upd := rfl
@[simp] theorem Dev.updSampler_col (n : Nat) (f : Sampler → Sampler) : (d.updSampler n f).col = d.col := rfl
@[simp] theorem Dev.updSampler_lnk (n : Nat) (f : Sampler → Sampler) : (d.updSampler n f).lnk = d.lnk := rfl
@[simp] theorem Dev.updSampler_pwr (n : Nat) (f : Sampler → Sampler) : (d.updSampler n f).pwr = d.pwr := rfl
@[simp] theorem Dev.updSampler_thm (n : Nat) (f : Sampler → Sampler) : (d.updSampler n f).thm = d.thm := rfl

/-! ### updEngine writes upd only -/

@[simp] theorem Dev.updEngine_now (n : Nat) (f : Engine → Engine) : (d.updEngine n f).now = d.now := rfl
@[simp] theorem Dev.updEngine_fresh (n : Nat) (f : Engine → Engine) : (d.updEngine n f).fresh = d.fresh := rfl
@[simp] theorem Dev.updEngine_regs (n : Nat) (f : Engine → Engine) : (d.updEngine n f).regs = d.regs := rfl
@[simp] theorem Dev.updEngine_log (n : Nat) (f : Engine → Engine) : (d.updEngine n f).log = d.log := rfl
@[simp] theorem Dev.updEngine_trace (n : Nat) (f : Engine → Engine) : (d.updEngine n f).trace = d.trace := rfl
@[simp] theorem Dev.updEngine_host (n : Nat) (f : Engine → Engine) : (d.updEngine n f).host = d.host := rfl
@[simp] theorem Dev.updEngine_fns (n : Nat) (f : Engine → Engine) : (d.updEngine n f).fns = d.fns := rfl
@[simp] theorem Dev.updEngine_queues (n : Nat) (f : Engine → Engine) : (d.updEngine n f).queues = d.queues := rfl
@[simp] theorem Dev.updEngine_ctxs (n : Nat) (f : Engine → Engine) : (d.updEngine n f).ctxs = d.ctxs := rfl
@[simp] theorem Dev.updEngine_extents (n : Nat) (f : Engine → Engine) : (d.updEngine n f).extents = d.extents := rfl
@[simp] theorem Dev.updEngine_resigns (n : Nat) (f : Engine → Engine) : (d.updEngine n f).resigns = d.resigns := rfl
@[simp] theorem Dev.updEngine_quiet (n : Nat) (f : Engine → Engine) : (d.updEngine n f).quiet = d.quiet := rfl
@[simp] theorem Dev.updEngine_mboxes (n : Nat) (f : Engine → Engine) : (d.updEngine n f).mboxes = d.mboxes := rfl
@[simp] theorem Dev.updEngine_fw (n : Nat) (f : Engine → Engine) : (d.updEngine n f).fw = d.fw := rfl
@[simp] theorem Dev.updEngine_jobs (n : Nat) (f : Engine → Engine) : (d.updEngine n f).jobs = d.jobs := rfl
@[simp] theorem Dev.updEngine_timers (n : Nat) (f : Engine → Engine) : (d.updEngine n f).timers = d.timers := rfl
@[simp] theorem Dev.updEngine_boot (n : Nat) (f : Engine → Engine) : (d.updEngine n f).boot = d.boot := rfl
@[simp] theorem Dev.updEngine_pins (n : Nat) (f : Engine → Engine) : (d.updEngine n f).pins = d.pins := rfl
@[simp] theorem Dev.updEngine_tiles (n : Nat) (f : Engine → Engine) : (d.updEngine n f).tiles = d.tiles := rfl
@[simp] theorem Dev.updEngine_pipes (n : Nat) (f : Engine → Engine) : (d.updEngine n f).pipes = d.pipes := rfl
@[simp] theorem Dev.updEngine_streams (n : Nat) (f : Engine → Engine) : (d.updEngine n f).streams = d.streams := rfl
@[simp] theorem Dev.updEngine_waits (n : Nat) (f : Engine → Engine) : (d.updEngine n f).waits = d.waits := rfl
@[simp] theorem Dev.updEngine_syncJobs (n : Nat) (f : Engine → Engine) : (d.updEngine n f).syncJobs = d.syncJobs := rfl
@[simp] theorem Dev.updEngine_noc (n : Nat) (f : Engine → Engine) : (d.updEngine n f).noc = d.noc := rfl
@[simp] theorem Dev.updEngine_mem (n : Nat) (f : Engine → Engine) : (d.updEngine n f).mem = d.mem := rfl
@[simp] theorem Dev.updEngine_pim (n : Nat) (f : Engine → Engine) : (d.updEngine n f).pim = d.pim := rfl
@[simp] theorem Dev.updEngine_kvp (n : Nat) (f : Engine → Engine) : (d.updEngine n f).kvp = d.kvp := rfl
@[simp] theorem Dev.updEngine_smp (n : Nat) (f : Engine → Engine) : (d.updEngine n f).smp = d.smp := rfl
@[simp] theorem Dev.updEngine_col (n : Nat) (f : Engine → Engine) : (d.updEngine n f).col = d.col := rfl
@[simp] theorem Dev.updEngine_lnk (n : Nat) (f : Engine → Engine) : (d.updEngine n f).lnk = d.lnk := rfl
@[simp] theorem Dev.updEngine_pwr (n : Nat) (f : Engine → Engine) : (d.updEngine n f).pwr = d.pwr := rfl
@[simp] theorem Dev.updEngine_thm (n : Nat) (f : Engine → Engine) : (d.updEngine n f).thm = d.thm := rfl

/-! ### updStream writes streams only -/

@[simp] theorem Dev.updStream_now (n : Nat) (f : Stream → Stream) : (d.updStream n f).now = d.now := rfl
@[simp] theorem Dev.updStream_fresh (n : Nat) (f : Stream → Stream) : (d.updStream n f).fresh = d.fresh := rfl
@[simp] theorem Dev.updStream_regs (n : Nat) (f : Stream → Stream) : (d.updStream n f).regs = d.regs := rfl
@[simp] theorem Dev.updStream_log (n : Nat) (f : Stream → Stream) : (d.updStream n f).log = d.log := rfl
@[simp] theorem Dev.updStream_trace (n : Nat) (f : Stream → Stream) : (d.updStream n f).trace = d.trace := rfl
@[simp] theorem Dev.updStream_host (n : Nat) (f : Stream → Stream) : (d.updStream n f).host = d.host := rfl
@[simp] theorem Dev.updStream_fns (n : Nat) (f : Stream → Stream) : (d.updStream n f).fns = d.fns := rfl
@[simp] theorem Dev.updStream_queues (n : Nat) (f : Stream → Stream) : (d.updStream n f).queues = d.queues := rfl
@[simp] theorem Dev.updStream_ctxs (n : Nat) (f : Stream → Stream) : (d.updStream n f).ctxs = d.ctxs := rfl
@[simp] theorem Dev.updStream_extents (n : Nat) (f : Stream → Stream) : (d.updStream n f).extents = d.extents := rfl
@[simp] theorem Dev.updStream_resigns (n : Nat) (f : Stream → Stream) : (d.updStream n f).resigns = d.resigns := rfl
@[simp] theorem Dev.updStream_quiet (n : Nat) (f : Stream → Stream) : (d.updStream n f).quiet = d.quiet := rfl
@[simp] theorem Dev.updStream_mboxes (n : Nat) (f : Stream → Stream) : (d.updStream n f).mboxes = d.mboxes := rfl
@[simp] theorem Dev.updStream_fw (n : Nat) (f : Stream → Stream) : (d.updStream n f).fw = d.fw := rfl
@[simp] theorem Dev.updStream_jobs (n : Nat) (f : Stream → Stream) : (d.updStream n f).jobs = d.jobs := rfl
@[simp] theorem Dev.updStream_timers (n : Nat) (f : Stream → Stream) : (d.updStream n f).timers = d.timers := rfl
@[simp] theorem Dev.updStream_boot (n : Nat) (f : Stream → Stream) : (d.updStream n f).boot = d.boot := rfl
@[simp] theorem Dev.updStream_pins (n : Nat) (f : Stream → Stream) : (d.updStream n f).pins = d.pins := rfl
@[simp] theorem Dev.updStream_tiles (n : Nat) (f : Stream → Stream) : (d.updStream n f).tiles = d.tiles := rfl
@[simp] theorem Dev.updStream_pipes (n : Nat) (f : Stream → Stream) : (d.updStream n f).pipes = d.pipes := rfl
@[simp] theorem Dev.updStream_waits (n : Nat) (f : Stream → Stream) : (d.updStream n f).waits = d.waits := rfl
@[simp] theorem Dev.updStream_syncJobs (n : Nat) (f : Stream → Stream) : (d.updStream n f).syncJobs = d.syncJobs := rfl
@[simp] theorem Dev.updStream_noc (n : Nat) (f : Stream → Stream) : (d.updStream n f).noc = d.noc := rfl
@[simp] theorem Dev.updStream_mem (n : Nat) (f : Stream → Stream) : (d.updStream n f).mem = d.mem := rfl
@[simp] theorem Dev.updStream_pim (n : Nat) (f : Stream → Stream) : (d.updStream n f).pim = d.pim := rfl
@[simp] theorem Dev.updStream_kvp (n : Nat) (f : Stream → Stream) : (d.updStream n f).kvp = d.kvp := rfl
@[simp] theorem Dev.updStream_smp (n : Nat) (f : Stream → Stream) : (d.updStream n f).smp = d.smp := rfl
@[simp] theorem Dev.updStream_upd (n : Nat) (f : Stream → Stream) : (d.updStream n f).upd = d.upd := rfl
@[simp] theorem Dev.updStream_col (n : Nat) (f : Stream → Stream) : (d.updStream n f).col = d.col := rfl
@[simp] theorem Dev.updStream_lnk (n : Nat) (f : Stream → Stream) : (d.updStream n f).lnk = d.lnk := rfl
@[simp] theorem Dev.updStream_pwr (n : Nat) (f : Stream → Stream) : (d.updStream n f).pwr = d.pwr := rfl
@[simp] theorem Dev.updStream_thm (n : Nat) (f : Stream → Stream) : (d.updStream n f).thm = d.thm := rfl

/-! ### updPort writes lnk only -/

@[simp] theorem Dev.updPort_now (n : Nat) (f : PortSt → PortSt) : (d.updPort n f).now = d.now := rfl
@[simp] theorem Dev.updPort_fresh (n : Nat) (f : PortSt → PortSt) : (d.updPort n f).fresh = d.fresh := rfl
@[simp] theorem Dev.updPort_regs (n : Nat) (f : PortSt → PortSt) : (d.updPort n f).regs = d.regs := rfl
@[simp] theorem Dev.updPort_log (n : Nat) (f : PortSt → PortSt) : (d.updPort n f).log = d.log := rfl
@[simp] theorem Dev.updPort_trace (n : Nat) (f : PortSt → PortSt) : (d.updPort n f).trace = d.trace := rfl
@[simp] theorem Dev.updPort_host (n : Nat) (f : PortSt → PortSt) : (d.updPort n f).host = d.host := rfl
@[simp] theorem Dev.updPort_fns (n : Nat) (f : PortSt → PortSt) : (d.updPort n f).fns = d.fns := rfl
@[simp] theorem Dev.updPort_queues (n : Nat) (f : PortSt → PortSt) : (d.updPort n f).queues = d.queues := rfl
@[simp] theorem Dev.updPort_ctxs (n : Nat) (f : PortSt → PortSt) : (d.updPort n f).ctxs = d.ctxs := rfl
@[simp] theorem Dev.updPort_extents (n : Nat) (f : PortSt → PortSt) : (d.updPort n f).extents = d.extents := rfl
@[simp] theorem Dev.updPort_resigns (n : Nat) (f : PortSt → PortSt) : (d.updPort n f).resigns = d.resigns := rfl
@[simp] theorem Dev.updPort_quiet (n : Nat) (f : PortSt → PortSt) : (d.updPort n f).quiet = d.quiet := rfl
@[simp] theorem Dev.updPort_mboxes (n : Nat) (f : PortSt → PortSt) : (d.updPort n f).mboxes = d.mboxes := rfl
@[simp] theorem Dev.updPort_fw (n : Nat) (f : PortSt → PortSt) : (d.updPort n f).fw = d.fw := rfl
@[simp] theorem Dev.updPort_jobs (n : Nat) (f : PortSt → PortSt) : (d.updPort n f).jobs = d.jobs := rfl
@[simp] theorem Dev.updPort_timers (n : Nat) (f : PortSt → PortSt) : (d.updPort n f).timers = d.timers := rfl
@[simp] theorem Dev.updPort_boot (n : Nat) (f : PortSt → PortSt) : (d.updPort n f).boot = d.boot := rfl
@[simp] theorem Dev.updPort_pins (n : Nat) (f : PortSt → PortSt) : (d.updPort n f).pins = d.pins := rfl
@[simp] theorem Dev.updPort_tiles (n : Nat) (f : PortSt → PortSt) : (d.updPort n f).tiles = d.tiles := rfl
@[simp] theorem Dev.updPort_pipes (n : Nat) (f : PortSt → PortSt) : (d.updPort n f).pipes = d.pipes := rfl
@[simp] theorem Dev.updPort_streams (n : Nat) (f : PortSt → PortSt) : (d.updPort n f).streams = d.streams := rfl
@[simp] theorem Dev.updPort_waits (n : Nat) (f : PortSt → PortSt) : (d.updPort n f).waits = d.waits := rfl
@[simp] theorem Dev.updPort_syncJobs (n : Nat) (f : PortSt → PortSt) : (d.updPort n f).syncJobs = d.syncJobs := rfl
@[simp] theorem Dev.updPort_noc (n : Nat) (f : PortSt → PortSt) : (d.updPort n f).noc = d.noc := rfl
@[simp] theorem Dev.updPort_mem (n : Nat) (f : PortSt → PortSt) : (d.updPort n f).mem = d.mem := rfl
@[simp] theorem Dev.updPort_pim (n : Nat) (f : PortSt → PortSt) : (d.updPort n f).pim = d.pim := rfl
@[simp] theorem Dev.updPort_kvp (n : Nat) (f : PortSt → PortSt) : (d.updPort n f).kvp = d.kvp := rfl
@[simp] theorem Dev.updPort_smp (n : Nat) (f : PortSt → PortSt) : (d.updPort n f).smp = d.smp := rfl
@[simp] theorem Dev.updPort_upd (n : Nat) (f : PortSt → PortSt) : (d.updPort n f).upd = d.upd := rfl
@[simp] theorem Dev.updPort_col (n : Nat) (f : PortSt → PortSt) : (d.updPort n f).col = d.col := rfl
@[simp] theorem Dev.updPort_pwr (n : Nat) (f : PortSt → PortSt) : (d.updPort n f).pwr = d.pwr := rfl
@[simp] theorem Dev.updPort_thm (n : Nat) (f : PortSt → PortSt) : (d.updPort n f).thm = d.thm := rfl

/-! ### updClu writes pwr only -/

@[simp] theorem Dev.updClu_now (n : Nat) (f : ClusterPwr → ClusterPwr) : (d.updClu n f).now = d.now := rfl
@[simp] theorem Dev.updClu_fresh (n : Nat) (f : ClusterPwr → ClusterPwr) : (d.updClu n f).fresh = d.fresh := rfl
@[simp] theorem Dev.updClu_regs (n : Nat) (f : ClusterPwr → ClusterPwr) : (d.updClu n f).regs = d.regs := rfl
@[simp] theorem Dev.updClu_log (n : Nat) (f : ClusterPwr → ClusterPwr) : (d.updClu n f).log = d.log := rfl
@[simp] theorem Dev.updClu_trace (n : Nat) (f : ClusterPwr → ClusterPwr) : (d.updClu n f).trace = d.trace := rfl
@[simp] theorem Dev.updClu_host (n : Nat) (f : ClusterPwr → ClusterPwr) : (d.updClu n f).host = d.host := rfl
@[simp] theorem Dev.updClu_fns (n : Nat) (f : ClusterPwr → ClusterPwr) : (d.updClu n f).fns = d.fns := rfl
@[simp] theorem Dev.updClu_queues (n : Nat) (f : ClusterPwr → ClusterPwr) : (d.updClu n f).queues = d.queues := rfl
@[simp] theorem Dev.updClu_ctxs (n : Nat) (f : ClusterPwr → ClusterPwr) : (d.updClu n f).ctxs = d.ctxs := rfl
@[simp] theorem Dev.updClu_extents (n : Nat) (f : ClusterPwr → ClusterPwr) : (d.updClu n f).extents = d.extents := rfl
@[simp] theorem Dev.updClu_resigns (n : Nat) (f : ClusterPwr → ClusterPwr) : (d.updClu n f).resigns = d.resigns := rfl
@[simp] theorem Dev.updClu_quiet (n : Nat) (f : ClusterPwr → ClusterPwr) : (d.updClu n f).quiet = d.quiet := rfl
@[simp] theorem Dev.updClu_mboxes (n : Nat) (f : ClusterPwr → ClusterPwr) : (d.updClu n f).mboxes = d.mboxes := rfl
@[simp] theorem Dev.updClu_fw (n : Nat) (f : ClusterPwr → ClusterPwr) : (d.updClu n f).fw = d.fw := rfl
@[simp] theorem Dev.updClu_jobs (n : Nat) (f : ClusterPwr → ClusterPwr) : (d.updClu n f).jobs = d.jobs := rfl
@[simp] theorem Dev.updClu_timers (n : Nat) (f : ClusterPwr → ClusterPwr) : (d.updClu n f).timers = d.timers := rfl
@[simp] theorem Dev.updClu_boot (n : Nat) (f : ClusterPwr → ClusterPwr) : (d.updClu n f).boot = d.boot := rfl
@[simp] theorem Dev.updClu_pins (n : Nat) (f : ClusterPwr → ClusterPwr) : (d.updClu n f).pins = d.pins := rfl
@[simp] theorem Dev.updClu_tiles (n : Nat) (f : ClusterPwr → ClusterPwr) : (d.updClu n f).tiles = d.tiles := rfl
@[simp] theorem Dev.updClu_pipes (n : Nat) (f : ClusterPwr → ClusterPwr) : (d.updClu n f).pipes = d.pipes := rfl
@[simp] theorem Dev.updClu_streams (n : Nat) (f : ClusterPwr → ClusterPwr) : (d.updClu n f).streams = d.streams := rfl
@[simp] theorem Dev.updClu_waits (n : Nat) (f : ClusterPwr → ClusterPwr) : (d.updClu n f).waits = d.waits := rfl
@[simp] theorem Dev.updClu_syncJobs (n : Nat) (f : ClusterPwr → ClusterPwr) : (d.updClu n f).syncJobs = d.syncJobs := rfl
@[simp] theorem Dev.updClu_noc (n : Nat) (f : ClusterPwr → ClusterPwr) : (d.updClu n f).noc = d.noc := rfl
@[simp] theorem Dev.updClu_mem (n : Nat) (f : ClusterPwr → ClusterPwr) : (d.updClu n f).mem = d.mem := rfl
@[simp] theorem Dev.updClu_pim (n : Nat) (f : ClusterPwr → ClusterPwr) : (d.updClu n f).pim = d.pim := rfl
@[simp] theorem Dev.updClu_kvp (n : Nat) (f : ClusterPwr → ClusterPwr) : (d.updClu n f).kvp = d.kvp := rfl
@[simp] theorem Dev.updClu_smp (n : Nat) (f : ClusterPwr → ClusterPwr) : (d.updClu n f).smp = d.smp := rfl
@[simp] theorem Dev.updClu_upd (n : Nat) (f : ClusterPwr → ClusterPwr) : (d.updClu n f).upd = d.upd := rfl
@[simp] theorem Dev.updClu_col (n : Nat) (f : ClusterPwr → ClusterPwr) : (d.updClu n f).col = d.col := rfl
@[simp] theorem Dev.updClu_lnk (n : Nat) (f : ClusterPwr → ClusterPwr) : (d.updClu n f).lnk = d.lnk := rfl
@[simp] theorem Dev.updClu_thm (n : Nat) (f : ClusterPwr → ClusterPwr) : (d.updClu n f).thm = d.thm := rfl

/-! ### updSpot writes thm only -/

@[simp] theorem Dev.updSpot_now (p : Spot) (f : SpotSt → SpotSt) : (d.updSpot p f).now = d.now := rfl
@[simp] theorem Dev.updSpot_fresh (p : Spot) (f : SpotSt → SpotSt) : (d.updSpot p f).fresh = d.fresh := rfl
@[simp] theorem Dev.updSpot_regs (p : Spot) (f : SpotSt → SpotSt) : (d.updSpot p f).regs = d.regs := rfl
@[simp] theorem Dev.updSpot_log (p : Spot) (f : SpotSt → SpotSt) : (d.updSpot p f).log = d.log := rfl
@[simp] theorem Dev.updSpot_trace (p : Spot) (f : SpotSt → SpotSt) : (d.updSpot p f).trace = d.trace := rfl
@[simp] theorem Dev.updSpot_host (p : Spot) (f : SpotSt → SpotSt) : (d.updSpot p f).host = d.host := rfl
@[simp] theorem Dev.updSpot_fns (p : Spot) (f : SpotSt → SpotSt) : (d.updSpot p f).fns = d.fns := rfl
@[simp] theorem Dev.updSpot_queues (p : Spot) (f : SpotSt → SpotSt) : (d.updSpot p f).queues = d.queues := rfl
@[simp] theorem Dev.updSpot_ctxs (p : Spot) (f : SpotSt → SpotSt) : (d.updSpot p f).ctxs = d.ctxs := rfl
@[simp] theorem Dev.updSpot_extents (p : Spot) (f : SpotSt → SpotSt) : (d.updSpot p f).extents = d.extents := rfl
@[simp] theorem Dev.updSpot_resigns (p : Spot) (f : SpotSt → SpotSt) : (d.updSpot p f).resigns = d.resigns := rfl
@[simp] theorem Dev.updSpot_quiet (p : Spot) (f : SpotSt → SpotSt) : (d.updSpot p f).quiet = d.quiet := rfl
@[simp] theorem Dev.updSpot_mboxes (p : Spot) (f : SpotSt → SpotSt) : (d.updSpot p f).mboxes = d.mboxes := rfl
@[simp] theorem Dev.updSpot_fw (p : Spot) (f : SpotSt → SpotSt) : (d.updSpot p f).fw = d.fw := rfl
@[simp] theorem Dev.updSpot_jobs (p : Spot) (f : SpotSt → SpotSt) : (d.updSpot p f).jobs = d.jobs := rfl
@[simp] theorem Dev.updSpot_timers (p : Spot) (f : SpotSt → SpotSt) : (d.updSpot p f).timers = d.timers := rfl
@[simp] theorem Dev.updSpot_boot (p : Spot) (f : SpotSt → SpotSt) : (d.updSpot p f).boot = d.boot := rfl
@[simp] theorem Dev.updSpot_pins (p : Spot) (f : SpotSt → SpotSt) : (d.updSpot p f).pins = d.pins := rfl
@[simp] theorem Dev.updSpot_tiles (p : Spot) (f : SpotSt → SpotSt) : (d.updSpot p f).tiles = d.tiles := rfl
@[simp] theorem Dev.updSpot_pipes (p : Spot) (f : SpotSt → SpotSt) : (d.updSpot p f).pipes = d.pipes := rfl
@[simp] theorem Dev.updSpot_streams (p : Spot) (f : SpotSt → SpotSt) : (d.updSpot p f).streams = d.streams := rfl
@[simp] theorem Dev.updSpot_waits (p : Spot) (f : SpotSt → SpotSt) : (d.updSpot p f).waits = d.waits := rfl
@[simp] theorem Dev.updSpot_syncJobs (p : Spot) (f : SpotSt → SpotSt) : (d.updSpot p f).syncJobs = d.syncJobs := rfl
@[simp] theorem Dev.updSpot_noc (p : Spot) (f : SpotSt → SpotSt) : (d.updSpot p f).noc = d.noc := rfl
@[simp] theorem Dev.updSpot_mem (p : Spot) (f : SpotSt → SpotSt) : (d.updSpot p f).mem = d.mem := rfl
@[simp] theorem Dev.updSpot_pim (p : Spot) (f : SpotSt → SpotSt) : (d.updSpot p f).pim = d.pim := rfl
@[simp] theorem Dev.updSpot_kvp (p : Spot) (f : SpotSt → SpotSt) : (d.updSpot p f).kvp = d.kvp := rfl
@[simp] theorem Dev.updSpot_smp (p : Spot) (f : SpotSt → SpotSt) : (d.updSpot p f).smp = d.smp := rfl
@[simp] theorem Dev.updSpot_upd (p : Spot) (f : SpotSt → SpotSt) : (d.updSpot p f).upd = d.upd := rfl
@[simp] theorem Dev.updSpot_col (p : Spot) (f : SpotSt → SpotSt) : (d.updSpot p f).col = d.col := rfl
@[simp] theorem Dev.updSpot_lnk (p : Spot) (f : SpotSt → SpotSt) : (d.updSpot p f).lnk = d.lnk := rfl
@[simp] theorem Dev.updSpot_pwr (p : Spot) (f : SpotSt → SpotSt) : (d.updSpot p f).pwr = d.pwr := rfl

/-! ### updGpio writes pins only -/

@[simp] theorem Dev.updGpio_now (n : Nat) (f : Gpio → Gpio) : (d.updGpio n f).now = d.now := rfl
@[simp] theorem Dev.updGpio_fresh (n : Nat) (f : Gpio → Gpio) : (d.updGpio n f).fresh = d.fresh := rfl
@[simp] theorem Dev.updGpio_regs (n : Nat) (f : Gpio → Gpio) : (d.updGpio n f).regs = d.regs := rfl
@[simp] theorem Dev.updGpio_log (n : Nat) (f : Gpio → Gpio) : (d.updGpio n f).log = d.log := rfl
@[simp] theorem Dev.updGpio_trace (n : Nat) (f : Gpio → Gpio) : (d.updGpio n f).trace = d.trace := rfl
@[simp] theorem Dev.updGpio_host (n : Nat) (f : Gpio → Gpio) : (d.updGpio n f).host = d.host := rfl
@[simp] theorem Dev.updGpio_fns (n : Nat) (f : Gpio → Gpio) : (d.updGpio n f).fns = d.fns := rfl
@[simp] theorem Dev.updGpio_queues (n : Nat) (f : Gpio → Gpio) : (d.updGpio n f).queues = d.queues := rfl
@[simp] theorem Dev.updGpio_ctxs (n : Nat) (f : Gpio → Gpio) : (d.updGpio n f).ctxs = d.ctxs := rfl
@[simp] theorem Dev.updGpio_extents (n : Nat) (f : Gpio → Gpio) : (d.updGpio n f).extents = d.extents := rfl
@[simp] theorem Dev.updGpio_resigns (n : Nat) (f : Gpio → Gpio) : (d.updGpio n f).resigns = d.resigns := rfl
@[simp] theorem Dev.updGpio_quiet (n : Nat) (f : Gpio → Gpio) : (d.updGpio n f).quiet = d.quiet := rfl
@[simp] theorem Dev.updGpio_mboxes (n : Nat) (f : Gpio → Gpio) : (d.updGpio n f).mboxes = d.mboxes := rfl
@[simp] theorem Dev.updGpio_fw (n : Nat) (f : Gpio → Gpio) : (d.updGpio n f).fw = d.fw := rfl
@[simp] theorem Dev.updGpio_jobs (n : Nat) (f : Gpio → Gpio) : (d.updGpio n f).jobs = d.jobs := rfl
@[simp] theorem Dev.updGpio_timers (n : Nat) (f : Gpio → Gpio) : (d.updGpio n f).timers = d.timers := rfl
@[simp] theorem Dev.updGpio_boot (n : Nat) (f : Gpio → Gpio) : (d.updGpio n f).boot = d.boot := rfl
@[simp] theorem Dev.updGpio_tiles (n : Nat) (f : Gpio → Gpio) : (d.updGpio n f).tiles = d.tiles := rfl
@[simp] theorem Dev.updGpio_pipes (n : Nat) (f : Gpio → Gpio) : (d.updGpio n f).pipes = d.pipes := rfl
@[simp] theorem Dev.updGpio_streams (n : Nat) (f : Gpio → Gpio) : (d.updGpio n f).streams = d.streams := rfl
@[simp] theorem Dev.updGpio_waits (n : Nat) (f : Gpio → Gpio) : (d.updGpio n f).waits = d.waits := rfl
@[simp] theorem Dev.updGpio_syncJobs (n : Nat) (f : Gpio → Gpio) : (d.updGpio n f).syncJobs = d.syncJobs := rfl
@[simp] theorem Dev.updGpio_noc (n : Nat) (f : Gpio → Gpio) : (d.updGpio n f).noc = d.noc := rfl
@[simp] theorem Dev.updGpio_mem (n : Nat) (f : Gpio → Gpio) : (d.updGpio n f).mem = d.mem := rfl
@[simp] theorem Dev.updGpio_pim (n : Nat) (f : Gpio → Gpio) : (d.updGpio n f).pim = d.pim := rfl
@[simp] theorem Dev.updGpio_kvp (n : Nat) (f : Gpio → Gpio) : (d.updGpio n f).kvp = d.kvp := rfl
@[simp] theorem Dev.updGpio_smp (n : Nat) (f : Gpio → Gpio) : (d.updGpio n f).smp = d.smp := rfl
@[simp] theorem Dev.updGpio_upd (n : Nat) (f : Gpio → Gpio) : (d.updGpio n f).upd = d.upd := rfl
@[simp] theorem Dev.updGpio_col (n : Nat) (f : Gpio → Gpio) : (d.updGpio n f).col = d.col := rfl
@[simp] theorem Dev.updGpio_lnk (n : Nat) (f : Gpio → Gpio) : (d.updGpio n f).lnk = d.lnk := rfl
@[simp] theorem Dev.updGpio_pwr (n : Nat) (f : Gpio → Gpio) : (d.updGpio n f).pwr = d.pwr := rfl
@[simp] theorem Dev.updGpio_thm (n : Nat) (f : Gpio → Gpio) : (d.updGpio n f).thm = d.thm := rfl

/-! ### What the updates set -/

@[simp] theorem Dev.setReg_alive (o : Nat) (w : Word) : (d.setReg o w).alive = d.alive := rfl
@[simp] theorem Dev.setFld_alive (o : Nat) (f : Field) (v : Nat) : (d.setFld o f v).alive = d.alive := rfl
@[simp] theorem Dev.updTile_alive (t : Nat) (f : Tile → Tile) : (d.updTile t f).alive = d.alive := rfl
@[simp] theorem Dev.drew_fresh : d.drew.fresh = d.fresh + 1 := rfl
@[simp] theorem Dev.updKvp_kvp (f : Kvp → Kvp) : (d.updKvp f).kvp = f d.kvp := rfl

@[simp] theorem Dev.tile_updTile_same (t : Nat) (f : Tile → Tile) : (d.updTile t f).tile t = f (d.tile t) := by
  simp [Dev.tile, Dev.updTile]

theorem Dev.tile_updTile_other {t u : Nat} (f : Tile → Tile) (h : u ≠ t) : (d.updTile t f).tile u = d.tile u := by
  simp [Dev.tile, Dev.updTile, look_put_other _ _ h]

@[simp] theorem Dev.mbox_updMbox_same (n : Nat) (f : Mailbox → Mailbox) : (d.updMbox n f).mbox n = f (d.mbox n) := by
  simp [Dev.mbox, Dev.updMbox]

@[simp] theorem Dev.fn_updFn_same (n : Nat) (f : Fn → Fn) : (d.updFn n f).fn n = f (d.fn n) := by
  simp [Dev.fn, Dev.updFn]

@[simp] theorem Dev.pimStack_updPim_same (n : Nat) (f : PimStack → PimStack) : (d.updPim n f).pimStack n = f (d.pimStack n) := by
  simp [Dev.pimStack, Dev.updPim]

@[simp] theorem Dev.sampler_updSampler_same (n : Nat) (f : Sampler → Sampler) : (d.updSampler n f).sampler n = f (d.sampler n) := by
  simp [Dev.sampler, Dev.updSampler]

/-- A register just written reads what was written. -/
@[simp] theorem Dev.reg_setReg_same (o : Nat) (w : Word) : (d.setReg o w).reg o = w :=
  canonGet_canonSet_same _

/-- Writing one register leaves every other one. -/
theorem Dev.reg_setReg_other {o p : Nat} (w : Word) (h : p ≠ o) : (d.setReg o w).reg p = d.reg p :=
  canonGet_canonSet_other _ h

/-- Writing a register keeps the canonical form of the list. -/
theorem Dev.setReg_canon (o : Nat) (w : Word) (h : canonOk regReset d.regs = true) : canonOk regReset (d.setReg o w).regs = true :=
  canonOk_canonSet h

end Sys2Proof.Machine
end

