-- ==== Sys2Proof/Laws/Desc.lean ====
section
/-! SUPPORT. What a descriptor's row does when the descriptor at the head of its queue starts now. -/

namespace Sys2Proof.Machine

/-- A descriptor that no quiet period holds starts. -/
theorem startHead_notQuiet {d : Dev} {q : Nat} {x : Desc} (start : Dev → Nat → Desc → Dev) (h : d.notQuiet x) :
    d.startHead q x start = (start (d.markStart q x.n) q { x with phase := .running, start := d.now }).pass := by
  unfold Dev.startHead
  rw [if_neg]
  intro k
  simp only [Bool.and_eq_true, decide_eq_true_eq] at k
  simp [h k.1] at k

/-- A descriptor that starts now has the type and body of the one at the head. -/
theorem runHead_startsNow {d e : Dev} {q : Nat} {pick : Desc → Bool} {check : Dev → Nat → Desc → Checked} {y : Desc}
    (start : Dev → Nat → Desc → Dev) (h : d.startsNow q check e y)
    (hp : ∀ x : Desc, x.raw = y.raw → pick x = true) :
    d.runHead q pick check start = (start e q y).pass := by
  obtain ⟨_, hf, x, hx, ⟨hr, hq, rfl, rfl⟩ | ⟨hd, e', table, g, hc, rfl, hs, hw, hq, rfl, rfl⟩⟩ := h
  · simp only [Dev.runHead, hx, hp x rfl, hf, hr, Bool.true_eq_false, decide_false, Bool.or_self]
    exact startHead_notQuiet start hq
  · unfold Dev.runHead
    rw [hx]
    simp only [hp x rfl, hf, Bool.true_eq_false, decide_false, Bool.or_self, Bool.false_eq_true, if_false, hd, hc]
    simp only [hd] at hs hw hq
    simp only [hs]
    obtain hw | ⟨o, thr, w, hw, hpx, hv, ht⟩ := hw
    · simp only [hw]
      exact startHead_notQuiet start hq
    · simp only [hw, hpx, Bool.false_eq_true, if_false]
      rw [if_pos (by simp only [hv, decide_true, Bool.true_and]; simpa using ht)]
      exact startHead_notQuiet start hq

/-- The row of an instant type. -/
theorem effectRow_startsNow {s : State} {e : Dev} {q limit typ : Nat} {check : Dev → Nat → Desc → Checked} {y : Desc}
    (f : Dev → Nat → Desc → Dev × Nat) (hq : q < limit) (h : s.dev.startsNow q check e y) (ht : y.typ = typ) :
    effectRow q limit typ s check f = .next (s.completes (f e q y).1 q y (f e q y).2) := by
  unfold effectRow
  rw [onUnit_alive _ hq h.1, runHead_startsNow _ h (fun x hx => by
    have : x.typ = y.typ := by simp [Desc.typ, hx]
    simp [this, ht])]
  rfl

end Sys2Proof.Machine
end

