-- ==== Sys2Proof/Laws/Event.lean ====
section
/-! SUPPORT. What raising an event, tracing and showing a register can change: the registers, the log, the trace buffer and the
MSI-X messages, and nothing else of the device. -/

namespace Sys2Proof.Machine

/-- Two devices that differ in nothing but registers, log, trace buffer and MSI-X messages. -/
abbrev Dev.toldFrom (e d : Dev) : Prop :=
  e = { d with
    regs := e.regs
    log := e.log
    trace := e.trace
    host := { d.host with
      msix := e.host.msix
      msixLast := e.host.msixLast } }

theorem Dev.toldFrom_refl (d : Dev) : d.toldFrom d := rfl

theorem Dev.toldFrom_trans {a b c : Dev} (h : b.toldFrom a) (k : c.toldFrom b) : c.toldFrom a := by
  unfold Dev.toldFrom at *
  rw [k, h]

theorem Dev.setReg_told (d : Dev) (o : Nat) (w : Word) : (d.setReg o w).toldFrom d := rfl
theorem Dev.setFld_told (d : Dev) (o : Nat) (f : Field) (v : Nat) : (d.setFld o f v).toldFrom d := rfl
theorem Dev.satFld_told (d : Dev) (o : Nat) (f : Field) (n : Nat) : (d.satFld o f n).toldFrom d := rfl
theorem Dev.wrapFld_told (d : Dev) (o : Nat) (f : Field) (n : Nat) : (d.wrapFld o f n).toldFrom d := rfl

theorem Dev.msix_told (d : Dev) (fn v : Nat) : (d.msix fn v).toldFrom d := by
  unfold Dev.msix; split <;> rfl

theorem Dev.msixEvent_told (d : Dev) (fn : Nat) : (d.msixEvent fn).toldFrom d := by
  have h := Dev.msix_told d fn 0
  unfold Dev.msixEvent
  split
  · split
    · rfl
    · unfold Dev.toldFrom at *; rw [h]
  · unfold Dev.toldFrom at *; rw [h]

theorem Dev.eventMsix_told (d : Dev) (e : Ev) : (d.eventMsix e).toldFrom d := by
  unfold Dev.eventMsix
  split
  · exact Dev.toldFrom_trans (Dev.msixEvent_told d 0) (Dev.msixEvent_told _ _)
  · exact Dev.msixEvent_told d 0

theorem Dev.traceAt_told (d : Dev) (p u c j a b : Nat) : (d.traceAt p u c j a b).toldFrom d := by
  unfold Dev.traceAt
  split
  · rfl
  split
  · rfl
  dsimp only
  repeat' split
  all_goals rfl

theorem Dev.logOne_told (d : Dev) (e : Ev) : (d.logOne e).1.toldFrom d := by
  unfold Dev.logOne Dev.logWrite
  dsimp only
  split <;> rfl

theorem Dev.traceEvent_told (d : Dev) (e : Ev) : (d.traceEvent e).toldFrom d := Dev.traceAt_told _ _ _ _ _ _ _

/-- An event in the log, its message and its trace record. -/
theorem Dev.logMsixTrace_told (d : Dev) (e : Ev) : (((d.logOne e).1.eventMsix e).traceEvent e).toldFrom d :=
  Dev.toldFrom_trans (Dev.toldFrom_trans (Dev.logOne_told d e) (Dev.eventMsix_told _ e)) (Dev.traceEvent_told _ e)

theorem Dev.raise_eq (d : Dev) (e : Ev) : d.raise e =
    if (d.logOne e).2 && e.code ≠ 0x0C52 then
      ((((((d.logOne e).1.eventMsix e).traceEvent e).logOne { code := 0x0C52, args := [e.code] }).1.eventMsix
        { code := 0x0C52, args := [e.code] }).traceEvent { code := 0x0C52, args := [e.code] })
    else ((d.logOne e).1.eventMsix e).traceEvent e := rfl

/-- Everything that raising an event can do. -/
theorem Dev.raise_told (d : Dev) (e : Ev) : (d.raise e).toldFrom d := by
  rw [Dev.raise_eq]
  split
  · exact Dev.toldFrom_trans (Dev.logMsixTrace_told d e) (Dev.logMsixTrace_told _ _)
  · exact Dev.logMsixTrace_told d e

theorem Dev.raisePwr_told (d : Dev) (code unit : Nat) (own : List Nat) : (d.raisePwr code unit own).toldFrom d :=
  Dev.raise_told _ _

theorem Dev.fold_told {α : Type} (f : Dev → α → Dev) (h : ∀ d a, (f d a).toldFrom d) :
    ∀ (l : List α) (d : Dev), (l.foldl f d).toldFrom d
  | [], _ => rfl
  | a :: l, d => Dev.toldFrom_trans (h d a) (Dev.fold_told f h l (f d a))

/-- Applying the fraction shows registers and traces, nothing more. -/
theorem Dev.applyF_told (d : Dev) (c : Nat) : (d.applyF c).toldFrom d := by
  unfold Dev.applyF
  have h : ∀ x y z w f g, ((d.setFld x y f).setFld z w g).toldFrom d :=
    fun x y _ _ f _ => Dev.toldFrom_trans (Dev.setFld_told d x y f) (Dev.setFld_told _ _ _ _)
  dsimp only
  generalize (if d.powered c then max d.fCap (d.fld (R.THM_CLU c) F.THM_CLU_FT) else 0) = f
  generalize b2n (d.powered c && decide (d.fCap < d.fld (R.THM_CLU c) F.THM_CLU_FT)) = g
  generalize R.CLU_PWR_STAT c = off
  by_cases k : f = d.fld off F.CLU_PWR_STAT_F_APPLIED
  · rw [if_pos k]; exact h _ _ _ _ _ _
  · rw [if_neg k]; exact Dev.toldFrom_trans (h _ _ _ _ _ _) (Dev.traceAt_told _ _ _ _ _ _ _)

theorem Dev.applyAllF_told (d : Dev) : d.applyAllF.toldFrom d := Dev.fold_told _ Dev.applyF_told _ _

theorem Dev.warmPause_told (d : Dev) (c : Nat) : (d.warmPause c).toldFrom d := rfl

/-- The global fraction changes registers, log, trace and messages, nothing more. -/
theorem Dev.setF_told (d : Dev) (f : Nat) : (d.setF f).toldFrom d := by
  have h : ∀ e : Dev, e.toldFrom d → ((if f = 0 then e else allClusters.foldl Dev.warmPause e).applyAllF).toldFrom d := by
    intro e he
    refine Dev.toldFrom_trans ?_ (Dev.applyAllF_told _)
    split
    · exact he
    · exact Dev.toldFrom_trans he (Dev.fold_told _ Dev.warmPause_told _ _)
  unfold Dev.setF
  refine h _ ?_
  split
  · exact Dev.toldFrom_trans (Dev.setFld_told d _ _ _) (Dev.raisePwr_told _ _ _ _)
  split
  · exact Dev.toldFrom_trans (Dev.setFld_told d _ _ _) (Dev.raisePwr_told _ _ _ _)
  · exact Dev.setFld_told d _ _ _

theorem Dev.hostRange_told (d : Dev) (fn off : Nat) : (d.hostRange fn off).toldFrom d :=
  Dev.toldFrom_trans (Dev.satFld_told d _ _ _) (Dev.raise_told _ _)

theorem Dev.reservedWrite_told (d : Dev) (fn off : Nat) : (d.reservedWrite fn off).toldFrom d :=
  Dev.toldFrom_trans (Dev.satFld_told d _ _ _) (Dev.raise_told _ _)

end Sys2Proof.Machine
end

