-- ==== Sys2Proof/Laws/Memory.lean ====
section
/-! SUPPORT. Memory: a write reads back, leaves every other byte, and every memory operation keeps the canonical form. -/

namespace Sys2Proof.Machine

/-! ### Runs of cells -/

theorem writeCells_wf (bs : List Byte) {k : Nat} {m : List Host.Cell} (h : Memory.wf m) : Memory.wf (writeCells m k bs) := by
  induction bs generalizing k m with
  | nil => exact h
  | cons b r ih => exact ih (canonOk_canonSet h)

theorem writeCells_before (bs : List Byte) {k a : Nat} (m : List Host.Cell) (h : a < k) :
    canonGet zeroByte (writeCells m k bs) a = canonGet zeroByte m a := by
  induction bs generalizing k m with
  | nil => rfl
  | cons b r ih =>
    rw [writeCells, ih _ (by omega), canonGet_canonSet_other _ (by omega)]

theorem writeCells_after (bs : List Byte) {k a : Nat} (m : List Host.Cell) (h : k + bs.length ≤ a) :
    canonGet zeroByte (writeCells m k bs) a = canonGet zeroByte m a := by
  induction bs generalizing k m with
  | nil => rfl
  | cons b r ih =>
    simp only [List.length_cons] at h
    rw [writeCells, ih _ (by omega), canonGet_canonSet_other _ (by omega)]

/-- A byte outside the run written reads as before. -/
theorem writeCells_other (bs : List Byte) {k a : Nat} (m : List Host.Cell) (h : a < k ∨ k + bs.length ≤ a) :
    canonGet zeroByte (writeCells m k bs) a = canonGet zeroByte m a :=
  h.elim (writeCells_before bs m) (writeCells_after bs m)

/-- A byte of the run written reads what was written. -/
theorem writeCells_same (bs : List Byte) {k i : Nat} (m : List Host.Cell) (hi : i < bs.length) :
    canonGet zeroByte (writeCells m k bs) (k + i) = bs.getD i 0 := by
  induction bs generalizing k m i with
  | nil => simp at hi
  | cons b r ih =>
    rw [writeCells]
    cases i with
    | zero => rw [writeCells_before r _ (by omega)]; exact canonGet_canonSet_same m
    | succ i =>
      rw [show k + (i + 1) = k + 1 + i from by omega, ih _ (by simpa using hi)]; rfl

theorem foldl_canonSet_wf (f : Host.Cell → Nat) (l : List Host.Cell) {m : List Host.Cell} (h : Memory.wf m) :
    Memory.wf (l.foldl (fun acc e => canonSet zeroByte acc (f e) e.2) m) := by
  induction l generalizing m with
  | nil => exact h
  | cons e r ih => exact ih (canonOk_canonSet h)

theorem canonClear_wf (lo hi : Nat) {m : List Host.Cell} (h : Memory.wf m) : Memory.wf (canonClear lo hi m) := canonOk_canonClear h

theorem copyCells_wf (src : List Host.Cell) (lo len dlo : Nat) {dst : List Host.Cell} (h : Memory.wf dst) :
    Memory.wf (copyCells src lo len dst dlo) := foldl_canonSet_wf _ _ (canonClear_wf _ _ h)

/-! ### Device memory -/

theorem Dev.poke_wf {d : Dev} (a : Nat) (bs : List Byte) (h : Memory.wf d.mem.cells) : Memory.wf (d.poke a bs).mem.cells :=
  writeCells_wf bs h

theorem Dev.granuleMended_wf {d : Dev} (p : Nat) (h : Memory.wf d.mem.cells ∧ Memory.wf d.mem.err) :
    Memory.wf (d.granuleMended p).mem.cells ∧ Memory.wf (d.granuleMended p).mem.err :=
  ⟨h.1, canonClear_wf _ _ h.2⟩

theorem Dev.foldl_mended_cells (l : List Nat) (f : Dev → Nat → Nat) (d : Dev) :
    (l.foldl (fun d g => d.granuleMended (f d g)) d).mem.cells = d.mem.cells := by
  induction l generalizing d with
  | nil => rfl
  | cons e r ih => rw [List.foldl_cons, ih]; rfl

theorem canonGet_canonClear {lo hi a : Nat} (m : List Host.Cell) (h : ¬ (lo ≤ a ∧ a < hi)) :
    canonGet zeroByte (canonClear lo hi m) a = canonGet zeroByte m a := by
  induction m with
  | nil => rfl
  | cons e r ih =>
    obtain ⟨k, v⟩ := e
    simp only [canonClear, List.filter] at ih ⊢
    by_cases hk : lo ≤ k ∧ k < hi
    · have : k ≠ a := fun e => h (e ▸ hk)
      simp only [hk.1, hk.2, decide_true, Bool.and_self, Bool.not_true, canonGet, this, if_false]; exact ih
    · rw [show (!(decide (lo ≤ k) && decide (k < hi))) = true by simp; omega]
      simp only [canonGet]
      split
      · rfl
      · exact ih

theorem canonGet_canonClear_in {lo hi a : Nat} {m : List Host.Cell} (h : lo ≤ a ∧ a < hi) :
    canonGet zeroByte (canonClear lo hi m) a = 0 := by
  induction m with
  | nil => rfl
  | cons e r ih =>
    obtain ⟨k, v⟩ := e
    simp only [canonClear, List.filter] at ih ⊢
    by_cases hk : lo ≤ k ∧ k < hi
    · simp only [hk.1, hk.2, decide_true, Bool.and_self, Bool.not_true]; exact ih
    · have : k ≠ a := fun e => hk (e ▸ h)
      rw [show (!(decide (lo ≤ k) && decide (k < hi))) = true by simp; omega]
      simp only [canonGet, this, if_false]; exact ih

/-- Clearing a range writes 0 there and leaves every other byte. -/
theorem Dev.memZero_get (d : Dev) (a len x : Nat) :
    canonGet zeroByte (d.memZero a len).mem.cells x = if a ≤ x ∧ x < a + len then 0 else canonGet zeroByte d.mem.cells x := by
  unfold Dev.memZero
  dsimp only
  rw [Dev.foldl_mended_cells _ Dev.phys]
  split
  · next h => exact canonGet_canonClear_in h
  · next h => exact canonGet_canonClear _ h

/-- Counting a run that in-stack sequences hold off changes the stacks' units and the registers that show them, nothing else. -/
theorem Dev.holdRun_frame (d : Dev) (a len : Nat) :
    d.holdRun a len = { d with regs := (d.holdRun a len).regs, pim := (d.holdRun a len).pim } := by
  unfold Dev.holdRun
  dsimp only
  split
  · rfl
  · split <;> rfl

@[simp] theorem Dev.holdRun_mem (d : Dev) (a len : Nat) : (d.holdRun a len).mem = d.mem := by rw [d.holdRun_frame a len]

/-- A write into memory in which no granule is damaged, retired or lies on a failed pin stores its bytes and touches nothing else
but the hold of the in-stack units. -/
theorem Dev.memWriteRun_clean {d : Dev} {w : Access} {a : Nat} {bs : List Byte} (hb : bs.isEmpty = false)
    (h : (d.holdRun a bs.length).writeSpecial a (a + bs.length) = []) :
    d.memWriteRun w a bs = ((d.holdRun a bs.length).poke a bs, none) := by
  unfold Dev.memWriteRun
  simp [hb, h, Dev.writeGranules]

/-! ### Host memory and tile SRAM -/

theorem Dev.hostWrite_wf {d e : Dev} {fn iova : Nat} {bs : List Byte} (h : Memory.wf d.host.mem) (he : d.hostWrite fn iova bs = some e) :
    Memory.wf e.host.mem := by
  unfold Dev.hostWrite at he
  split at he
  · cases he; exact writeCells_wf bs h
  · cases he

theorem Dev.hostPosts_wf (fn : Nat) (hw : HostWrites) {d : Dev} (h : Memory.wf d.host.mem) : Memory.wf (d.hostPosts fn hw).host.mem := by
  induction hw generalizing d with
  | nil => exact h
  | cons e r ih => exact ih (writeCells_wf e.2 h)

theorem Tile.sramPut_wf {x : Tile} (a : Nat) (bs : List Byte) (h : Memory.wf x.sram) : Memory.wf (x.sramPut a bs).sram :=
  writeCells_wf bs h

/-- Every memory of the machine is in its canonical form at reset. -/
theorem reset_memories_wf : Memory.wf State.reset.dev.mem.cells ∧ Memory.wf State.reset.dev.mem.err ∧ Memory.wf State.reset.dev.host.mem :=
  ⟨rfl, rfl, rfl⟩

end Sys2Proof.Machine
end

