-- ==== Sys2Proof/Laws/Message.lean ====
section
/-! SUPPORT. What a message row answers: with the message in service it acts on it, with its layout kept it acts as its row says. -/

namespace Sys2Proof.Machine

/-- A message row acts on the message that the firmware serves on its mailbox. -/
theorem mbRow_serves {s : State} {mb : Nat} {r : MbReq} {pick : MbReq → Bool} (f : Dev → MbReq → Dev)
    (h : s.dev.serves mb r) (k : pick r = true) : mbRow mb pick s f = .next (s.withDev (f s.dev r)) := by
  obtain ⟨hm, ha, hf, hr⟩ := h
  unfold mbRow
  rw [onUnit_alive _ hm ha]
  simp only [Dev.fwRequest, ha, hf, Bool.and_self, if_true, hr, Option.filter, k]
  rfl

/-- A message row that also acts on the debug unlock. -/
theorem trustRow_serves {s : State} {mb : Nat} {r : MbReq} {pick : MbReq → Bool} (f : Trust → Dev → MbReq → Trust × Dev)
    (h : s.dev.serves mb r) (k : pick r = true) :
    trustRow mb pick s f = .next { s with
      trust := (f s.trust s.dev r).1
      dev := (f s.trust s.dev r).2 } := by
  obtain ⟨hm, ha, hf, hr⟩ := h
  unfold trustRow
  rw [if_pos hm]
  simp only [Dev.fwRequest, ha, hf, Bool.and_self, if_true, hr, Option.filter, k]

/-- A body of the right length whose fields pass their checks. -/
theorem bodyRow_ok (d : Dev) (mb : Nat) (r : MbReq) {len : Nat} {checks : List (Nat × Bool)} (f : Dev → Dev)
    (hl : r.body.length = len) (hc : firstBad checks = none) : d.bodyRow mb r len checks f = f d := by
  unfold Dev.bodyRow
  rw [if_neg (fun h => h hl), hc]

/-- The first field that fails is the one answered. -/
theorem bodyRow_bad (d : Dev) (mb : Nat) (r : MbReq) {len off : Nat} {checks : List (Nat × Bool)} (f : Dev → Dev)
    (hl : r.body.length = len) (hc : firstBad checks = some off) : d.bodyRow mb r len checks f = d.answerBad mb r off := by
  unfold Dev.bodyRow
  rw [if_neg (fun h => h hl), hc]

@[simp] theorem firstBad_nil : firstBad [] = none := rfl
@[simp] theorem firstBad_good (off : Nat) (l : List (Nat × Bool)) : firstBad ((off, false) :: l) = firstBad l := rfl
@[simp] theorem firstBad_first (off : Nat) (l : List (Nat × Bool)) : firstBad ((off, true) :: l) = some off := rfl

/-- A row whose message the firmware does not serve does nothing. -/
theorem mbRow_idle {s : State} {mb : Nat} {pick : MbReq → Bool} (f : Dev → MbReq → Dev) (hm : mb < 8)
    (h : ∀ r, s.dev.serves mb r → pick r = false) : mbRow mb pick s f = .next s := by
  unfold mbRow onUnit
  rw [if_pos hm]
  unfold onDev Dev.fwRequest
  by_cases ha : s.dev.alive = true
  · by_cases hf : s.dev.fwRuns = true
    · cases hr : (s.dev.mbox mb).req with
      | none => simp [hr]
      | some r => simp only [ha, hf, hr, Option.filter, h r ⟨hm, ha, hf, hr⟩]; simp
    · simp [hf]
  · simp [ha]

/-- The rows that take one opcode. -/
theorem isOp_iff (op : Nat) (r : MbReq) : isOp op r = true ↔ r.opcode = op := by simp [isOp]

/-- A message row whose body has a layout answers as the layout says. -/
theorem bodyRow_answers {s : State} {mb : Nat} {pick : MbReq → Bool} {named : MbReq → Prop} {len : Nat}
    {checks : MbReq → List (Nat × Bool)} {ok : MbReq → State} {ans : Out} {tests : Dev → MbReq → List (Nat × Bool)}
    (f : Dev → MbReq → Dev → Dev) (hm : mb < 8)
    (e : ans = mbRow mb pick s (fun d r => d.bodyRow mb r len (tests d r) (f d r)))
    (hp : ∀ r, pick r = true ↔ named r) (hc : ∀ r, tests s.dev r = checks r)
    (ho : ∀ r, s.dev.serves mb r → named r → s.withDev (f s.dev r s.dev) = ok r) :
    Answers s mb named len checks ok ans := by
  subst e
  refine ⟨fun h => mbRow_idle _ hm (fun r hr => ?_), fun r hr hn => ⟨fun hl => ?_, fun off hl hx => ?_, fun hl hx => ?_⟩⟩
  · have := mt (hp r).1 (h r hr)
    simpa using this
  · rw [mbRow_serves _ hr ((hp r).2 hn)]; unfold Dev.bodyRow; rw [if_pos hl]; rfl
  · rw [mbRow_serves _ hr ((hp r).2 hn), bodyRow_bad _ _ _ _ hl ((congrArg firstBad (hc r)).trans hx)]; rfl
  · rw [mbRow_serves _ hr ((hp r).2 hn), bodyRow_ok _ _ _ _ hl ((congrArg firstBad (hc r)).trans hx), ho r hr hn]

/-- A message row over the debug unlock answers as its layout says. -/
theorem trustRow_answers {s : State} {mb : Nat} {pick : MbReq → Bool} {named : MbReq → Prop} {len : Nat}
    {checks : MbReq → List (Nat × Bool)} {ok : MbReq → State} {ans : Out} {f : Trust → Dev → MbReq → Trust × Dev}
    (hm : mb < 8) (e : ans = trustRow mb pick s f) (hp : ∀ r, pick r = true ↔ named r)
    (hl : ∀ r, r.body.length ≠ len → f s.trust s.dev r = (s.trust, s.dev.answerLen mb r))
    (hb : ∀ r off, r.body.length = len → firstBad (checks r) = some off → f s.trust s.dev r = (s.trust, s.dev.answerBad mb r off))
    (ho : ∀ r, r.body.length = len → firstBad (checks r) = none →
      { s with trust := (f s.trust s.dev r).1, dev := (f s.trust s.dev r).2 } = ok r) :
    Answers s mb named len checks ok ans := by
  subst e
  refine ⟨fun h => ?_, fun r hr hn => ⟨fun k => ?_, fun off k hx => ?_, fun k hx => ?_⟩⟩
  · unfold trustRow Dev.fwRequest
    rw [if_pos hm]
    by_cases ha : s.dev.alive = true
    · by_cases hf : s.dev.fwRuns = true
      · cases hr : (s.dev.mbox mb).req with
        | none => simp
        | some r =>
          have := mt (hp r).1 (h r ⟨hm, ha, hf, hr⟩)
          simp only [ha, hf, Option.filter, this]; simp
      · simp [hf]
    · simp [ha]
  · rw [trustRow_serves _ hr ((hp r).2 hn), hl r k]; rfl
  · rw [trustRow_serves _ hr ((hp r).2 hn), hb r off k hx]; rfl
  · rw [trustRow_serves _ hr ((hp r).2 hn), ho r k hx]

end Sys2Proof.Machine
end

