-- ==== Sys2Proof/Laws/Packet.lean ====
section
/-! SUPPORT. What a packet's row answers: the one case split that every remote operation shares. -/

namespace Sys2Proof.Machine

/-- A row of a remote operation takes its packet as `Takes` says. -/
theorem bamatRow_takes {s : State} (p : BamatPkt) (op : Nat) (f : Dev → Dev) (ha : s.dev.alive = true) :
    Takes p op s f (bamatRow p op s f) := by
  unfold Takes bamatRow Dev.bamatTakes
  rw [onDev_alive _ ha]
  refine ⟨?_, ?_⟩
  · intro h
    rw [if_pos (by obtain h | h := h <;> simp [h])]
  · intro h1 h2
    rw [if_neg (by simp [h1, h2])]
    refine ⟨?_, ?_, ?_, ?_⟩
    · intro h3; simp [h3, State.withDev]
    · intro h3 h4; simp [h3, h4, State.withDev]
    · intro h3 h4 h5; simp [h3, h4, h5, State.withDev]
    · intro h3 h4 h5; simp [h3, h4, Nat.not_le.2 h5, State.withDev]

end Sys2Proof.Machine
end

