-- ==== Sys2Proof/Laws/Tile.lean ====
section
/-! SUPPORT. The tiles' shared operations: what a tile row does where the tile stands at its operation and where it does not, what
moving on keeps, and when finishing an operation touches nothing but the tile. -/

namespace Sys2Proof.Machine

/-- A tile row at its operation does the operation. -/
theorem tileRow_at {s : State} {t slot code : Nat} (f : Dev → Tile → Nat → Dev) (h : s.dev.standsAt t slot code) :
    tileRow t slot code s f = .next (s.withDev (f s.dev (s.dev.tile t) (s.dev.word t slot))) := by
  obtain ⟨ha, ht, hr, hn, hc, hk⟩ := h
  unfold tileRow
  rw [onUnit_alive _ ht ha]
  simp [Dev.tileOp, hr, hn, hc, hk, State.withDev, Dev.word]

/-- A tile row away from its operation does nothing. -/
theorem tileOp_elsewhere {d : Dev} {t slot code : Nat} (f : Dev → Tile → Nat → Dev)
    (h : (d.tile t).seq ≠ .run ∨ (d.tile t).nextSlot ≠ some slot ∨ slotOp (d.tile t).bundle slot ≠ code) :
    d.tileOp t slot code f = d := by
  unfold Dev.tileOp
  obtain h | h | h := h <;> simp [h]

/-- Writing a G register touches nothing else. -/
theorem Tile.setReg_frame (x : Tile) (i : Nat) (w : Word) : ∃ g, x.setReg i w = { x with g := g } := by
  unfold Tile.setReg; split
  · exact ⟨x.g, rfl⟩
  · exact ⟨_, rfl⟩

theorem Tile.setRegs_frame (l : List (Nat × Word)) (x : Tile) :
    ∃ g, l.foldl (fun t e => t.setReg e.1 e.2) x = { x with g := g } := by
  induction l generalizing x with
  | nil => exact ⟨x.g, rfl⟩
  | cons e r ih =>
    obtain ⟨g, hg⟩ := Tile.setReg_frame x e.1 e.2
    obtain ⟨g', hg'⟩ := ih (x.setReg e.1 e.2)
    exact ⟨g', by rw [List.foldl_cons, hg', hg]⟩

/-- What the sequencer may change at a bundle's end: G, the pending writes and branch, PC, the slot, and whether it runs. -/
theorem Tile.endBundle_frame (x : Tile) : ∃ g pc seq, x.endBundle =
      { x with g := g, gwrites := [], branch := none, pc := pc, slot := 0, seq := seq } ∧
    (x.gwrites = [] → g = x.g) ∧ (x.halting = false → seq = x.seq ∨ seq = .done) := by
  obtain ⟨g, hg⟩ := Tile.setRegs_frame x.gwrites x
  have hgw : x.gwrites = [] → g = x.g := by
    intro h; rw [h] at hg; exact (congrArg Tile.g hg).symm
  unfold Tile.endBundle
  rw [hg]
  by_cases hs : x.slot = 7
  · exact ⟨g, _, .done, by simp [hs]; rfl, hgw, fun _ => .inr rfl⟩
  · by_cases hh : x.halting = true
    · exact ⟨g, _, .halted, by simp [hs, hh]; rfl, hgw, fun h => by simp [h] at hh⟩
    · exact ⟨g, _, x.seq, by simp [hs, hh]; rfl, hgw, fun _ => .inl rfl⟩

/-- What the sequencer may change in passing over bundles. -/
theorem Tile.settle_frame (n : Nat) (x : Tile) : ∃ g gw br pc slot seq, Tile.settle n x =
      { x with g := g, gwrites := gw, branch := br, pc := pc, slot := slot, seq := seq } ∧
    (x.gwrites = [] → g = x.g) ∧ (x.halting = false → seq = x.seq ∨ seq = .done) := by
  induction n generalizing x with
  | zero => exact ⟨x.g, x.gwrites, x.branch, x.pc, x.slot, x.seq, rfl, fun _ => rfl, fun _ => .inl rfl⟩
  | succ n ih =>
    unfold Tile.settle
    split
    · exact ⟨x.g, x.gwrites, x.branch, x.pc, x.slot, x.seq, rfl, fun _ => rfl, fun _ => .inl rfl⟩
    · split
      · next k _ => exact ⟨x.g, x.gwrites, x.branch, x.pc, k, x.seq, rfl, fun _ => rfl, fun _ => .inl rfl⟩
      · split
        · exact ⟨x.g, x.gwrites, x.branch, x.pc, x.slot, x.seq, rfl, fun _ => rfl, fun _ => .inl rfl⟩
        · obtain ⟨g, pc, seq, he, hg, hs⟩ := x.endBundle_frame
          obtain ⟨g', gw, br, pc', slot, seq', he', hg', hs'⟩ := ih x.endBundle
          refine ⟨g', gw, br, pc', slot, seq', by rw [he', he], fun h => ?_, fun h => ?_⟩
          · rw [hg' (by rw [he]), he]; exact hg h
          · obtain h' | h' := hs' (by rw [he]; exact h)
            · rw [h', he]; exact hs h
            · exact .inr h'

/-- What moving on to the next operation may change; a tile that is not halting runs on or ends. -/
theorem Tile.advance_frame (x : Tile) : ∃ g gw br pc slot seq,
    x.advance = { x with g := g, gwrites := gw, branch := br, pc := pc, slot := slot, seq := seq } ∧
    (x.gwrites = [] → g = x.g) ∧ (x.halting = false → seq = .run ∨ seq = .done) := by
  obtain ⟨g, gw, br, pc, slot, seq, he, hg, hs⟩ := Tile.settle_frame (x.code.length + 2) { x with seq := .run, slot := x.slot + 1 }
  exact ⟨g, gw, br, pc, slot, seq, he, hg, hs⟩

/-- Finishing an operation of a tile that is not halting changes that tile alone. -/
theorem Dev.opDone_eq {d : Dev} {t : Nat} {g : Tile → Tile} (h : (g (d.tile t)).halting = false) :
    d.opDone t g = d.updTile t (fun x => (g x).advance) := by
  obtain ⟨_, _, _, _, _, seq, he, _, hs⟩ := (g (d.tile t)).advance_frame
  have hn : ((g (d.tile t)).advance).seq ≠ .halted := by
    rw [he]; obtain h' | h' := hs h <;> simp [h']
  simp [Dev.opDone, hn]

end Sys2Proof.Machine
end

