-- ==== Sys2Proof/Laws/Update.lean ====
section
/-! SUPPORT. What one unit of an update does, case by case: its record read, its chunks read, written and recorded (R227, R229). -/

namespace Sys2Proof.Machine

variable {d e : Dev} {n u : Nat} {c : UpdCmd} {x : Tensor}

theorem Dev.unitRun_stops {a : Nat} (h : d.memCheckRead { ctx := c.ctx } (x.recordAt u) 32 = (e, some a)) :
    d.unitRun n c x u = e.unitStops n c x a := by
  unfold Dev.unitRun; rw [h]; rfl

theorem Dev.unitRun_done (h : d.memCheckRead { ctx := c.ctx } (x.recordAt u) 32 = (e, none)) (k : e.memNat (x.recordAt u) 4 = c.step) :
    d.unitRun n c x u = e.updGo := by
  unfold Dev.unitRun; rw [h]; exact if_pos k

theorem Dev.unitRun_goes (h : d.memCheckRead { ctx := c.ctx } (x.recordAt u) 32 = (e, none)) (k : e.memNat (x.recordAt u) 4 ≠ c.step) :
    d.unitRun n c x u = e.unitChunks n c x u ((u - x.units.1) * unitSize) (chunksOf (x.unitElems u)) := by
  unfold Dev.unitRun; rw [h]; exact if_neg k

theorem Dev.unitChunks_part {base i a : Nat} {cs : List (Nat × Nat)} (h : d.chunksFail c x base 0 cs = (e, some (i, a))) :
    d.unitChunks n c x u base cs = e.unitPart n c x u cs i a := by
  unfold Dev.unitChunks; rw [h]

theorem Dev.unitChunks_whole {base : Nat} {cs : List (Nat × Nat)} (h : d.chunksFail c x base 0 cs = (e, none)) :
    d.unitChunks n c x u base cs = e.unitWhole n c x u cs := by
  unfold Dev.unitChunks; rw [h]

theorem Dev.unitPart_stops {i a : Nat} {w : Option Nat} {cs : List (Nat × Nat)}
    (h : d.drew.updateChunks n c x u ((((List.range i).zip cs).filter (fun e => Config.partlyWritten d.fresh e.1)).map (·.2)) = (e, w)) :
    d.unitPart n c x u cs i a = e.unitStops n c x (w.getD a) := by
  unfold Dev.unitPart; rw [h]

theorem Dev.unitWhole_stops {a : Nat} {cs : List (Nat × Nat)} (h : d.updateChunks n c x u cs = (e, some a)) :
    d.unitWhole n c x u cs = e.unitStops n c x a := by
  unfold Dev.unitWhole; rw [h]; rfl

theorem Dev.unitWhole_unrecorded {f : Dev} {a : Nat} {cs : List (Nat × Nat)} (h : d.updateChunks n c x u cs = (e, none))
    (k : e.writeUnitRecord c.ctx x u c.step = (f, some a)) : d.unitWhole n c x u cs = f.unitStops n c x a := by
  unfold Dev.unitWhole; rw [h]; show unitDone n c x u (e.writeUnitRecord c.ctx x u c.step) = _; rw [k]; rfl

theorem Dev.unitWhole_done {f : Dev} {cs : List (Nat × Nat)} (h : d.updateChunks n c x u cs = (e, none))
    (k : e.writeUnitRecord c.ctx x u c.step = (f, none)) :
    d.unitWhole n c x u cs = (f.wrapFld (R.UPD_ENG_CNT n) F.UPD_ENG_CNT_ELEMENTS (x.unitElems u)).updGo := by
  unfold Dev.unitWhole; rw [h]; show unitDone n c x u (e.writeUnitRecord c.ctx x u c.step) = _; rw [k]; rfl

end Sys2Proof.Machine
end

