-- ==== Sys2Proof/Machine/ConfigSpace.lean ====
section
/-! DEFINITION. Configuration space as the host enumerates it (R292, R293): a read-only view of identity, capabilities and settings. -/

namespace Sys2Proof.Machine

/-- The capabilities of R293, the standard and the extended. -/
inductive Capability where
  | powerManagement
  | pciExpress
  | msix
  | aer
  | ari
  | deviceSerialNumber
  | secondaryPciExpress
  | physicalLayer16
  | physicalLayer32
  | physicalLayer64
  | dataLinkFeature
  | flitLogging
  | laneMargining
  | ats
  | acs
  | srIov
  deriving DecidableEq, Repr

/-- Standard capabilities (R293). -/
def standardCaps : List Capability := [.powerManagement, .pciExpress, .msix]

/-- Extended capabilities; SR-IOV appears in the PF only (R293). -/
def extendedCaps (f : Nat) : List Capability :=
  [.aer, .ari, .deviceSerialNumber, .secondaryPciExpress, .physicalLayer16, .physicalLayer32, .physicalLayer64, .dataLinkFeature,
    .flitLogging, .laneMargining, .ats, .acs] ++ (if f = 0 then [.srIov] else [])

/-- The functions of ACS (R293): source validation, request redirect, completion redirect. -/
def acsFunctions : List String := ["source validation", "request redirect", "completion redirect"]

/-- The SR-IOV capability of the PF (R292): VFs at most, first offset, stride, VF Device ID, VFs enabled. -/
structure SrIov where
  total : Nat
  offset : Nat
  stride : Nat
  device : Nat
  enabled : Nat
  deriving DecidableEq, Repr

/-- A function's configuration space: identity, capabilities, what they report as supported, and what is set. -/
structure ConfigView where
  vendor : Nat
  device : Nat
  classCode : Nat
  revision : Nat
  standard : List Capability
  extended : List Capability
  vectors : Nat
  maxPayload : Nat
  maxReadRequest : Nat
  atsDepth : Nat
  srIov : Option SrIov
  busMaster : Bool
  settings : FnCfg
  deriving DecidableEq, Repr

/-- Settings as a configuration-space reset leaves them (R292 and R295; PRESUMED, log entry 26). -/
def FnCfg.reset : FnCfg := { mps := 128, mrrs := 512, ats := false, d3 := false, completionMs := 50 }

/-- The settings of a function. -/
def Dev.fnCfg (d : Dev) (f : Nat) : FnCfg := (look f d.host.cfg).getD FnCfg.reset

/-- The configuration space of a function that exists while the link is up (R292, R293). -/
def Dev.configSpace (d : Dev) (f : Nat) : Option ConfigView :=
  if d.host.linkUp = false || d.fnExists f = false then none
  else some {
    vendor := 0x1F9D, device := if f = 0 then d.fld R.HIF_ID F.HIF_ID_DEVICE else 0x0A17, classCode := 0x120000,
    revision := d.fld R.HIF_ID F.HIF_ID_REV, standard := standardCaps, extended := extendedCaps f, vectors := vectorsOf f,
    maxPayload := 512, maxReadRequest := 4096, atsDepth := 32,
    srIov := if f = 0 then some ⟨d.fld R.HIF_ID F.HIF_ID_VFS_MAX, 1, 1, 0x0A17, d.host.vfs⟩ else none,
    busMaster := d.host.bme.contains f, settings := d.fnCfg f }

end Sys2Proof.Machine
end

