-- ==== Sys2Proof/Tests/Slice0.lean ====
section
/-! SUPPORT. Tests: the ill-formed terms that well-formedness refuses, results worked by hand from the specification, and for every
obligation with hypotheses a concrete state and operands that meet them. -/

namespace Sys2Proof.Tests

open Sys2Proof Sys2Proof.Machine

set_option Elab.async false

/-! ### Ill-formed commands -/

/-- An empty mesh packet of a type, to a destination. -/
def pkt (typ dst : Nat) : NocPkt :=
  { typ := typ, vc := 0, len := 0, job := 0, tag := 0, dst := dst, src := 0, red := false, rfmt := 0, ph := 0, addr := 0, cnt := 0,
    total := 0, hb := 0, payload := [] }

/-- A Bamat packet of a type on a virtual channel. -/
def bpkt (op vc : Nat) : BamatPkt := { BamatPkt.blank with op := op, vc := vc }

/-- Commands on tiles, engines and memory with one operand out of range each. -/
theorem test_wf_refuses_units : ∀ c ∈ ([.registerWrite 64 0 8 0, .registerWrite 0 0 3 0, .registerWrite 0 0x4000000 8 0, .rcRead 0 4 8,
    .rcRead 64 0 8, .malformedRead 0 0 8, .malformedRead 0 0x4000000 2, .devConfig 8, .loadw 256 [], .loadw 0 [((0, 72), 1)],
    .rampStep 256 true, .throttleBubble 16, .vopAdd 256, .ldc 256, .mcopyOut 0 [((0, 99), 1)], .halt 256,
    .syncPacket (.tile 256) .signal 0 0, .syncPacket (.host 4160) .signal 0 0, .syncPacket (.timer 4) .signal 0 0,
    .syncPacket (.page 1024) .signal 0 0, .syncPacket (.sampler 16 0) .signal 0 0, .syncPacket (.controller 0 1024) .signal 0 0,
    .syncPacket (.collective 1024) .signal 0 0, .syncPacket (.port 32 0) .signal 0 0, .syncPacket (.timer 0) .signal 16384 0,
    .syncPacket (.timer 0) .signal 0 (2 ^ 32), .syncTimeout 0 (.tile 256), .syncTimeout 0 (.desc 4160 0), .stream 4096 0 0,
    .credit 0 256 0, .credit 0 0 256, .pipeline 4096, .pipeBound 4096] : List Instr), wf c = false := by decide +kernel

/-- Packets, memory, engines and collectives with one operand out of range each. -/
theorem test_wf_refuses_fields : ∀ c ∈ ([.packetInject (pkt 16 0), .packetInject (pkt 0 2048),
    .packetInject { pkt 0 0 with payload := List.replicate 129 0 }, .epArrival 320 ⟨0, false⟩ 0 (pkt 5 0), .epArrival 0 ⟨7, false⟩ 0 (pkt 5 0),
    .epArrival 0 ⟨0, false⟩ 65536 (pkt 5 0),
    .flitCrcFail 0 5 false, .memRead (2 ^ 40) .scrubber [] [], .memRead 0 (.tile 256) [] [], .memRead 0 (.remote 32768 0) [] [],
    .memRead 0 .scrubber [(72, 1)] [], .memRead 0 .scrubber [] [(72, 1)], .memWrite (2 ^ 40 - 1) [0, 0] .scrubber, .refresh (.near 256 0),
    .refresh (.near 0 4), .refresh (.far 16 0 0 0), .refresh (.far 0 32 0 0), .refresh (.far 0 0 4 0), .refresh (.far 0 0 0 4),
    .refreshBoundary 0 [2368], .scrub 272 [] [], .sequenceStart 0 128 1, .sequenceStart 0 0 0, .pimCmdDone 16,
    .copyOnWrite 65536 0 0, .copyOnWrite 0 256 0, .pageRead (bpkt 256 0), .pageData { bpkt 9 5 with payload := List.replicate 1025 0 },
    .sampleRow 16, .smpTimeout 0 16, .updateUnit 16, .konaocAdd 0 32 0 0, .konaocFma 0 0 0 0 32, .konaocMov 0 0 32,
    .ownerHashes 4096 0 0 0 0 [], .ownerHashes 0 0 0 0 256 [], .noticeAuditDone 0 32768, .checkPacket 0 4096 false [],
    .localSummary 0 0 0 0 [] [], .localSummary 0 0 0 0 (List.replicate 56 0) [4096], .noticeDone 0 4096] : List Instr),
    wf c = false := by decide +kernel

/-- Links, the host, messages, power, heat and pins with one operand out of range each. -/
theorem test_wf_refuses_outside : ∀ c ∈ ([.trainingAttempt 32 0, .ident 0 { dev := 65536, port := 0, vers := 0, topoId := 0 },
    .laneDropped 0 8, .flitReceive 0 { link := 0, content := [], crc := 0 }, .noticeRing 5 0 true, .noticeRing 0 8 true,
    .refuse (bpkt 11 8), .ethFrame 0 (2 ^ 48) 0 0 (.flits []), .ethFrame 0 0 65536 0 (.pause 0),
    .ethFrame 0 0 0 65536 (.pause 0),
    .ethFrame 32 0 0 0 (.pause 0), .linkUp 2 16, .linkUp 6 3, .flrVf 0, .bmeCleared 64,
    .sqTail 0 0x1000000 8 0 [], .cqHead 0 0 3 0, .hifAdmqTail 64 8 0 [], .descriptorFetch 4160, .nop 4096, .ctxCreate 4160,
    .copyDone 4096 0, .resignQueue 0 4096, .readback [(0x4000000, 0)], .versionGet 8, .timerExpiry 4, .convPhaseFailed 12,
    .ivrPhaseFailed 0 32, .slopeTokenReturn 4, .cappingWindow [] [] [] [] [], .sensorSample (.tile 256) [none, none] [],
    .sensorSample (.tile 0) [none] [], .sensorSample (.near 0 4) [none] [], .sensorSample (.far 16) (List.replicate 12 none) [],
    .sensorSample (.edge 64) [none] [], .bistDone [{ kind := 0, unit := 0, index := 0, source := 1, state := 0 }] 0, .bistDone [] 65536,
    .strapChanged 16, .gpioEdge 8 true, .i3cAddressed 128, .mailboxDoorbell 0 3 0 [], .completionTimeout 4160 none,
    .testAccessPort 256, .tempoPps 8] : List Instr), wf c = false := by decide +kernel

/-- Well-formed commands at the top of their ranges. -/
theorem test_wf_accepts : ∀ c ∈ ([.registerWrite 63 0x3FFFFFF 8 0, .rcRead 0 0x3FFFFF8 8, .vopAdd 255, .loadw 255 [((0, 71), 1)],
    .syncPacket (.port 31 4095) .signal 16383 0xFFFFFFFF, .packetInject (pkt 15 2047), .memRead (2 ^ 40 - 1) (.remote 32767 1023) [(71, 1)] [],
    .memWrite (2 ^ 40 - 1) [0] .scrubber, .refresh (.far 15 31 3 3), .refreshBoundary 255 [2367], .scrub 271 [] [], .konaocFma 15 31 31 31 31,
    .flrVf 63, .descriptorFetch 4159, .ivrPhaseFailed 15 31, .sensorSample (.far 15) (List.replicate 12 none) [],
    .cappingWindow (List.replicate 16 0) (List.replicate 16 0) [(255, 1)] [] (List.replicate 18 0), .testAccessPort 255,
    .tempoPps 7] : List Instr), wf c = true := by decide +kernel

/-! ### Small states -/

/-- The reset state with its device changed. -/
def with1 (f : Dev → Dev) : State := { State.reset with dev := f Dev.reset }

/-- A bundle with one slot filled. -/
def bundleOf (slot word : Nat) : Nat := word * 2 ^ [56, 0, 28, 72, 88, 104].getD slot 0

/-- Tile 0 runs and stands at the one operation of its program. -/
def tileAt (slot word : Nat) (x : Tile) : Tile := { x with seq := .run, code := [bundleOf slot word] }

/-- The device with tile 0 at one operation. -/
def atOp (slot word : Nat) (x : Tile) : State := with1 (fun d => { d with tiles := [(0, tileAt slot word x)] })

/-- A tile that owns stream 7 on port 3 in both directions. -/
def portTile : Tile := { Tile.blank with pipe := some 1, ports := [⟨3, true, 8, 0, some 7⟩, ⟨3, false, 8, 0, some 7⟩] }

/-- Stream 7 between tile 0 and itself, with `n` lines of credit. -/
def stream7 (n : Nat) : Stream :=
  { pipe := 1, srcPort := 3, dstPort := 3, prods := [0], conss := [0], broadcast := false, sampler := none, share := 8,
    credits := [((0, 0), n)], flight := [], returning := [], group := none }

/-- A pipeline of one stage on tile 0, of queue 5. -/
def pipe1 : Pipe :=
  { q := 5, n := 0, ctx := 1, job := 2, stages := [⟨[0], false⟩], timeout := 0, released := false, ending := none }

/-- The firmware runs and has taken a request from mailbox 1. -/
def serving (f : Dev → Dev) (op : Nat) (body : List Byte) : State :=
  with1 (fun d => f { d.setFld R.MGT_FW_STAT F.MGT_FW_STAT_STATE 2 with
    mboxes := [(1, { Mailbox.blank with req := some ⟨3, 2, op, 9, body, 0⟩ })] })

/-- The request of `serving`. -/
def req (op : Nat) (body : List Byte) : MbReq := ⟨3, 2, op, 9, body, 0⟩

/-- Bytes that are 0 but at some places. -/
def bytesWith (n : Nat) (es : List (Nat × Nat)) : List Byte := (List.range n).map (fun i => BitVec.ofNat 8 ((look i es).getD 0))

/-- The bytes of a descriptor of a type with a body. -/
def rawOf (typ : Nat) (body : List Byte) : List Byte :=
  BitVec.ofNat 8 typ :: List.replicate 15 0 ++ body ++ List.replicate (48 - body.length) 0

/-- A descriptor whose wait has been released. -/
def descOf (typ : Nat) (body : List Byte) : Desc :=
  { n := 0, raw := rawOf typ body, table := [], phase := .released, ready := 0, start := 0, astat := 0, energy := 0, urgent := false,
    tiles := [], expired := false }

/-- A queue of context 1 with one descriptor. -/
def queueOf (x : Desc) : Queue :=
  { state := .active, cls := 1, base := 1, fn := 0, loc := 0, log2 := 4, ctx := 1, vector := 0, sq := 0, cq := 0x1000, tail := 1, fetch := 1,
    head := 0, written := 0, dropped := 0, lastService := 0, fetched := [x], held := [], recordLost := false, resignAtOrphan := false,
    wasOrphaned := false, orphanedDone := 0, epoch := 0 }

/-- The device with the firmware running. -/
def fwDev : Dev := Dev.reset.setFld R.MGT_FW_STAT F.MGT_FW_STAT_STATE 2

/-- Queue 5 with a descriptor and its table at its head, in the device `f` makes of one whose firmware runs. -/
def queuedIn (f : Dev → Dev) (typ : Nat) (body : List Byte) (table : List Byte := []) : State :=
  with1 (fun _ => { f fwDev with queues := [(5, queueOf { descOf typ body with table := table })] })

/-- That device once the descriptor has started. -/
def begun (f : Dev → Dev) (typ : Nat) (body : List Byte) (table : List Byte := []) : Dev :=
  (queuedIn f typ body table).dev.markStart 5 0

/-- `queuedIn` in the device that the reset leaves. -/
def queued (typ : Nat) (body : List Byte) : State := queuedIn id typ body

/-- The descriptor of `queuedIn` once it runs. -/
def started (typ : Nat) (body : List Byte) (table : List Byte := []) : Desc :=
  { descOf typ body with table := table, phase := .running }

/-- The host's link is up and the PF exists and masters the bus. -/
def hosted (f : Dev → Dev) : State := with1 (fun d => f { d with host := { HostSide.reset with linkUp := true, bme := [0] } })

/-! ### Results by hand -/

/-- 1.0 + 2.0 = 3.0 and 1.0 × −2.0 = −2.0 in FP32 (R52). -/
theorem test_fp32_sum_and_product : f32Add 0x3F800000 0x40000000 = 0x40400000 ∧ f32Mul 0x3F800000 0xC0000000 = 0xC0000000 := by
  decide +kernel

/-- A tie goes to the even neighbour: 1 + 2^-24 is 1, 1 + 3 × 2^-24 is 1 + 2^-22 (R43). -/
theorem test_fp32_ties_to_even : f32Add 0x3F800000 0x33800000 = 0x3F800000 ∧ f32Add 0x3F800001 0x33800000 = 0x3F800002 := by decide +kernel

/-- CRC-32C of the nine digits is 0xE3069283, the check value of the polynomial that R272 names. -/
theorem test_crc32c_check_value :
    crc32c [0x31, 0x32, 0x33, 0x34, 0x35, 0x36, 0x37, 0x38, 0x39] = 0xE3069283 := by decide +kernel

/-- The capping law at a tenth over the cap: F rises by 0.1 × GAIN/256, so 102 of 1,024 at GAIN 256 and a power of 1.1 CAP (R360). -/
theorem test_capping_law : cappingLaw 0 256 (11 * 2400 * 1000) 2400 0 = 102 := by decide +kernel

/-- The converter ceiling of 8 phases: 3,000 × 8 × 155/1,700 = 2,188 W, so 2,100 W (R350). -/
theorem test_converter_ceiling : convCeiling 8 = 2100 := by decide +kernel

/-- A tile operation past the device stops by name. -/
theorem test_absent_tile_stops : exec (.vopAdd 256) State.reset = .fault (.noSuchUnit "tile" 256) := rfl

/-- A write to memory is read back, and only its bytes change (R141). -/
theorem test_memory_write : ∃ t, exec (.memWrite 0x1000 [0xAB, 0xCD] .scrubber) State.reset = .next t ∧
    canonGet zeroByte t.dev.mem.cells 0x1001 = 0xCD ∧ canonGet zeroByte t.dev.mem.cells 0x1002 = 0 := ⟨_, rfl, by decide +kernel⟩

/-- A power sample of 48 V and 80 A is 3,840 W: above 3,600 W, so F is 921/1,024 at once (R362). -/
theorem test_peak_guard : ∃ t, exec (.powerSample 4800 8000) State.reset = .next t ∧ t.dev.fCap = 921 := ⟨_, rfl, by decide +kernel⟩

/-- One nanosecond passes on an empty queue. -/
theorem test_idle_tick : ∃ t, step State.reset = .next t ∧ t.dev.now = 1 := ⟨_, rfl, by decide +kernel⟩

/-! ### Witnesses: the block as a whole -/

theorem witness_IdleStepTicks : (State.reset.pending = [] ∧ State.reset.dev.alive = true) ∧
    (let s := with1 (fun d => { d with pins := { Pins.reset with perst := false } }); s.pending = [] ∧ s.dev.alive = false) := by
  decide +kernel

theorem witness_EveryStepKeepsTrustOk : State.reset.trust.ok ∧ ∃ t, step State.reset = .next t := ⟨by decide +kernel, _, rfl⟩

/-- An SVN_COMMIT in service with an image of SVN 64. -/
def svn64 : State := serving (fun d => { d with fw := { d.fw with svn := 64 } }) 3 []

theorem witness_FusedCounterNeverFalls : (State.reset.trust.ok ∧ ∃ t, step State.reset = .next t) ∧
    ((∀ mb, Instr.purgeDone ≠ .svnCommit mb) ∧ ∃ t, exec .purgeDone State.reset = .next t) ∧
    (svn64.dev.serves 1 (req 3 []) ∧ (req 3 []).opcode = 3 ∧ (req 3 []).body = [] ∧ svn64.trust.svn < svn64.dev.fw.svn ∧
      svn64.dev.fw.svn ≤ 64 ∧ ¬ (State.reset.trust.svn < (serving id 3 []).dev.fw.svn) ∧ (serving id 3 [1]).dev.serves 1 (req 3 [1])) :=
  ⟨⟨by decide +kernel, _, rfl⟩, ⟨(fun _ h => by cases h), _, rfl⟩, by decide +kernel⟩

theorem witness_OnlyTrustCommandsReachTrust :
    (∀ mb, Instr.vopAdd 0 ≠ .svnCommit mb ∧ Instr.vopAdd 0 ≠ .challenge mb ∧ Instr.vopAdd 0 ≠ .respond mb ∧ Instr.vopAdd 0 ≠ .lock mb) ∧
    (∀ ir, Instr.vopAdd 0 ≠ .testAccessPort ir) ∧ (∀ l, Instr.vopAdd 0 ≠ .perstN l ∧ Instr.vopAdd 0 ≠ .modResetN l) ∧
    Instr.vopAdd 0 ≠ .inputGood ∧ (∀ v, Instr.vopAdd 0 ≠ .inputLockout v) ∧ Instr.vopAdd 0 ≠ .auxiliaryPowerOn ∧
    ∃ t, exec (.vopAdd 0) (atOp 2 1 Tile.blank) = .next t := by
  refine ⟨?_, ?_, ?_, ?_, ?_, ?_, _, rfl⟩ <;> intros <;> repeat' constructor
  all_goals (intro h; cases h)

theorem witness_CommandsComplete : wf (.vopAdd 255) = true ∧ ∃ t, exec (.vopAdd 255) State.reset = .next t := ⟨by decide +kernel, _, rfl⟩

theorem witness_DeadDeviceDoesNothing :
    let s := with1 (fun d => { d with pins := { Pins.reset with dark := true } })
    s.dev.alive = false ∧ (∀ l, Instr.readyLate ≠ .perstN l ∧ Instr.readyLate ≠ .modResetN l) ∧ Instr.readyLate ≠ .inputGood ∧
    (∀ v, Instr.readyLate ≠ .inputLockout v ∧ Instr.readyLate ≠ .vinRange v ∧ Instr.readyLate ≠ .auxRange v) ∧
    Instr.readyLate ≠ .auxiliaryPowerOn ∧ (∀ n, Instr.readyLate ≠ .strapChanged n ∧ Instr.readyLate ≠ .i3cAddressed n) ∧
    (∀ g l, Instr.readyLate ≠ .gpioEdge g l) ∧ (∀ r, Instr.readyLate ≠ .i3cRequest r) ∧ ∃ t, exec .readyLate s = .next t := by
  refine ⟨by decide +kernel, ?_, ?_, ?_, ?_, ?_, ?_, ?_, _, rfl⟩ <;> intros <;> repeat' constructor
  all_goals (intro h; cases h)

theorem witness_UnitsBeyondTheDeviceStop : exec (.vopAdd 256) State.reset = .fault (.noSuchUnit "tile" 256) ∧
    exec (.nop 4096) State.reset = .fault (.noSuchUnit "queue" 4096) ∧ exec (.timerExpiry 4) State.reset = .fault (.noSuchUnit "timer" 4) :=
  ⟨rfl, rfl, rfl⟩

/-! ### Witnesses: tiles -/

theorem witness_OperationChangesOnlyItsTile : (id (Dev.reset.tile 3)).halting = false ∧ 4 ≠ 3 := by decide +kernel

theorem witness_AdvanceKeepsTileData : Tile.blank.gwrites = [] := rfl

theorem witness_VectorExactOperations : ∀ code ∈ [1, 2, 3, 4, 5, 6, 7, 8, 9, 10, 28], (atOp 2 code Tile.blank).dev.standsAt 0 2 code := by
  decide +kernel

theorem witness_VectorApproximateAndConvert :
    (∀ code ∈ [12, 13, 14, 15, 16, 17, 18, 19, 20, 21, 22, 23, 24, 25, 26, 27], (atOp 2 code Tile.blank).dev.standsAt 0 2 code) ∧
    (∀ code ∈ [11, 29], (atOp 2 code Tile.blank).dev.standsAt 0 2 code ∧ vFmt ((atOp 2 code Tile.blank).dev.word 0 2) = 0) ∧
    (∀ code ∈ [11, 29], (atOp 2 (code + 2 ^ 25) Tile.blank).dev.standsAt 0 2 code ∧
      vFmt ((atOp 2 (code + 2 ^ 25) Tile.blank).dev.word 0 2) = 1) := by
  decide +kernel

/-- An operand: FP32, one row of 8 bytes at SRAM address 0x40, its packed form at 0x80; in memory at 0x100000 when `mem`. -/
def opd1 (mem : Bool) : Operand :=
  { addr := if mem then 0x100000 else 0x40, saddr := 0x80, tscale := 0x3F800000, stride := 0x80, rows := 1, rowBytes := 8, fmt := 0, mem := mem,
    hasT := false, hasB := false, rnd := 1, tag := 0, offReg := 0, iReg := 0 }

/-- Tile 0 at a load or store on `opd1`, bound to a pipeline of context 1, which owns a mebibyte from 0x100000. -/
def onOpd (slot code : Nat) (mem : Bool) : State :=
  with1 (fun d => { d with
    tiles := [(0, tileAt slot code { Tile.blank with pipe := some 1, opds := [opd1 mem] })]
    pipes := [(1, pipe1)]
    extents := [⟨0x100000, 0x100000, 1, 1⟩] })

/-- LDV, LDG, LDC, MCOPY in and out, LATFILL, STV and STG with their data readable, and STG outside SRAM and outside the context. -/
theorem witness_LoadsAndStores :
    (let d := (onOpd 0 1 false).dev
    d.standsAt 0 0 1 ∧ (opd1 false).fault = none ∧
      ((d.upsets 0 []).runRead 0 false ((d.tile 0).rowAddr (opd1 false) 0) 512).2 = .inr (List.replicate 512 0) ∧
      (((d.upsets 0 []).runRead 0 false ((d.tile 0).rowAddr (opd1 false) 0) 512).1.rowScales 0 (d.tile 0) (opd1 false) 128).2 = .inr []) ∧
    (let d := (onOpd 0 2 true).dev
    d.standsAt 0 0 2 ∧ (opd1 true).codeFault = none ∧ ((d.upsets 0 []).runRead 0 true ((d.tile 0).rowAddr (opd1 true) 0) 8).2 = .inr (List.replicate 8 0)) ∧
    (onOpd 0 3 false).dev.standsAt 0 0 3 ∧
    (let d := (onOpd 0 4 true).dev
    let e := (d.runsRead 0 true 8 ((d.tile 0).memRows (opd1 true))).1
    d.standsAt 0 0 4 ∧ d.runsOk 0 true 8 ((d.tile 0).memRows (opd1 true)) = none ∧
      d.runsOk 0 false 8 ((d.tile 0).packedRows (opd1 true)) = none ∧
      (d.runsRead 0 true 8 ((d.tile 0).memRows (opd1 true))).2 = .inr [List.replicate 8 0] ∧
      (e.copyWrite 0 false (((d.tile 0).packedRows (opd1 true)).zip [List.replicate 8 0])).2 = none) ∧
    (let d := (onOpd 0 5 true).dev
    let e := ((d.upsets 0 []).runsRead 0 false 8 ((d.tile 0).packedRows (opd1 true))).1
    d.standsAt 0 0 5 ∧ (d.upsets 0 []).runsOk 0 false 8 ((d.tile 0).packedRows (opd1 true)) = none ∧
      (d.upsets 0 []).runsOk 0 true 8 ((d.tile 0).memRows (opd1 true)) = none ∧
      ((d.upsets 0 []).runsRead 0 false 8 ((d.tile 0).packedRows (opd1 true))).2 = .inr [List.replicate 8 0] ∧
      (e.copyWrite 0 true (((d.tile 0).memRows (opd1 true)).zip [List.replicate 8 0])).2 = none) ∧
    (let d := (onOpd 0 6 true).dev
    d.standsAt 0 0 6 ∧ d.runsOk 0 true 64 ((d.tile 0).memRows (opd1 true)) = none ∧
      (d.runsRead 0 true 64 ((d.tile 0).memRows (opd1 true))).2 = .inr [List.replicate 64 0]) ∧
    (let d := (onOpd 3 1 false).dev
    let vs := storeValues 0 (List.replicate 128 0)
    let row := storeRow (d.storeRule (d.tileCtx 0) (opd1 false)) (opd1 false) (fun i => (d.tile 0).srIndex (opd1 false) vs.length 0 i) vs
    d.standsAt 0 3 1 ∧ (d.tile 0).opd (lOpd (d.word 0 3)) = opd1 false ∧ (opd1 false).fault = none ∧
      row.1 = [] ∧ d.runsOk 0 false row.2.1.length [(d.tile 0).rowAddr (opd1 false) 0] = none ∧
      (d.runWrite 0 false ((d.tile 0).rowAddr (opd1 false) 0) row.2.1).2 = none) ∧
    (let d := (onOpd 3 2 false).dev
    d.standsAt 0 3 2 ∧ (d.tile 0).opd (lOpd (d.word 0 3)) = opd1 false ∧ (opd1 false).codeFault = none ∧
      (d.runWrite 0 false ((d.tile 0).rowAddr (opd1 false) 0) (leBytes 8 ((d.tile 0).reg 0).toNat)).2 = none) := by
  refine ⟨?_, ?_, ?_, ?_, ?_, ?_, ?_, ?_⟩ <;> decide +kernel

/-- Tile 0 at a load (slot 0) or a store (slot 3) on operand `o`. -/
def atLoad (slot code : Nat) (o : Operand) : State :=
  with1 (fun d => { d with tiles := [(0, tileAt slot code { Tile.blank with opds := [o] })] })

/-- A reserved format, an illegal tensor scale, an address outside SRAM and one outside what the context owns. -/
theorem witness_LoadsAndStoresStop :
    (let o : Operand := { opd1 true with fmt := 15 }
    fmtOk o.fmt = false ∧ o.codeFault = some (.fault 0x0141) ∧ o.fault = some (.fault 0x0141) ∧
      (∀ code ∈ [1, 2, 4, 5, 6], (atLoad 0 code o).dev.standsAt 0 0 code) ∧ (∀ code ∈ [1, 2], (atLoad 3 code o).dev.standsAt 0 3 code)) ∧
    (let o : Operand := { opd1 false with hasT := true, tscale := 0x7F800000 }
    fmtOk o.fmt = true ∧ o.hasT = true ∧ tscaleOk o.tscale = false) ∧
    (∀ o ∈ [{ opd1 false with addr := sramSize - 7 }, opd1 true],
      (let d := (atLoad 0 2 o).dev
      d.standsAt 0 0 2 ∧ o.codeFault = none ∧ ((d.upsets 0 []).runRead 0 o.mem ((d.tile 0).rowAddr o 0) 8).2.isLeft = true) ∧
      (let d := (atLoad 0 1 o).dev
      d.standsAt 0 0 1 ∧ o.fault = none ∧ ((d.upsets 0 []).runRead 0 o.mem ((d.tile 0).rowAddr o 0) 512).2.isLeft = true) ∧
      (let d := (atLoad 3 2 o).dev
      d.standsAt 0 3 2 ∧ o.codeFault = none ∧
        (d.runWrite 0 o.mem ((d.tile 0).rowAddr o 0) (leBytes 8 ((d.tile 0).reg 0).toNat)).2.isSome = true)) ∧
    sramSize < (sramSize - 7) + 8 ∧ Dev.reset.owns (Dev.reset.tileCtx 0) 0x100000 8 = false := by
  refine ⟨?_, ?_, ?_, ?_, ?_⟩ <;> decide +kernel

/-- A loaded set of BF16 zeros. -/
def fullSet : WSet := ⟨true, 1, 0x3F800000, false, List.replicate 32 (List.replicate 128 0), []⟩

/-- A BF16 operand of the array. -/
def arrOpd : Operand := { opd1 false with addr := 0x1000, fmt := 1, stride := 256, rowBytes := 64 }

/-- Tile 0 at an array operation, with set A loaded and one vector in the latent buffer; the count of vectors is in G1. -/
def onArray (code : Nat) : State :=
  with1 (fun d => { d with
    tiles := [(0, tileAt 1 (code + 2 ^ 22) { Tile.blank with opds := [arrOpd], g := [0, 1], setA := fullSet, latbuf := [[]] })] })

/-- LOADW, LOADWT, ISSUE, ISSUEL, DRAINV and DRAINS on BF16 data in SRAM. -/
theorem witness_ArrayOperations :
    (let d := (onArray 1).dev
    let x := d.tile 0
    let base := x.rowAddr arrOpd 0
    let as := (List.range (rateK 1)).map (straightRow 1 base 256)
    d.standsAt 0 1 1 ∧ x.opd (aOpd (d.word 0 1)) = arrOpd ∧ arrOpd.fault = none ∧ base % 128 = 0 ∧ strideOk 1 256 = true ∧
      (d.upsets 0 []).runsOk 0 false (rowBytesOf 1) as = none ∧ ((d.upsets 0 []).runsRead 0 false (rowBytesOf 1) as).2.isRight = true ∧
      (((d.upsets 0 []).runsRead 0 false (rowBytesOf 1) as).1.loadScales 0 x arrOpd true).2 = .inr []) ∧
    (let d := (onArray 2).dev
    let x := d.tile 0
    let read := (d.upsets 0 []).sramRead 0 (x.rowAddr arrOpd 0) (128 * (rateK 1 * fmtBits 1 / 8))
    d.standsAt 0 1 2 ∧ arrOpd.fault = none ∧ x.rowAddr arrOpd 0 % 128 = 0 ∧ read.2.isRight = true ∧
      (read.1.loadScales 0 x arrOpd false).2 = .inr []) ∧
    (let d := (onArray 3).dev
    let x := d.tile 0
    let read := (d.upsets 0 []).runsRead 0 false (packedBytes 1 32) (x.rowAddrs arrOpd 1)
    d.standsAt 0 1 3 ∧ x.issueCheck (d.word 0 1) = .inr 1 ∧
      (d.upsets 0 []).runsOk 0 false (packedBytes 1 32) (x.rowAddrs arrOpd 1) = none ∧ read.2.isRight = true ∧
      (read.1.issueScales 0 x arrOpd 32 1).2 = .inr [[]]) ∧
    (let d := (onArray 4).dev
    let x := d.tile 0
    d.standsAt 0 1 4 ∧ x.issueCheck (d.word 0 1) = .inr 1 ∧ (aClr (d.word 0 1) && (x.reg 29).getLsbD 0) = false ∧ 1 ≤ x.latbuf.length ∧
      (d.issueScales 0 x arrOpd 32 1).2 = .inr [[]]) ∧
    (onArray 5).dev.standsAt 0 1 5 ∧
    (let d := (onArray 6).dev
    let x := d.tile 0
    let p := storeRow (d.storeRule (d.tileCtx 0) arrOpd) arrOpd (x.srIndex arrOpd 128 0)
      (((x.entry 0).cols.take (d.width 0)).map (fun c => outValue arrOpd (drainValue (x.entry 0) c)))
    d.standsAt 0 1 6 ∧ x.count (d.word 0 1) = some 1 ∧ arrOpd.fault = none ∧ arrOpd.blocks = false ∧ (x.entry 0).latent = false ∧
      sramIn (x.rowAddr arrOpd 0) p.2.1.length = true ∧ (d.runsWrite 0 false [(x.rowAddr arrOpd 0, p.2.1)]).2 = none) := by
  refine ⟨?_, ?_, ?_, ?_, ?_, ?_⟩ <;> decide +kernel

/-- The ramp at rest and at level 8, up and down. -/
theorem witness_ArrayOperations_ramp :
    (Dev.reset.alive = true ∧ Dev.reset.fld (R.TIL_ARRAY_STAT 255) F.TIL_ARRAY_STAT_LEVEL = 0) ∧
    (let d := Dev.reset.setFld (R.TIL_ARRAY_STAT 255) F.TIL_ARRAY_STAT_LEVEL 8
    d.alive = true ∧ d.fld (R.TIL_ARRAY_STAT 255) F.TIL_ARRAY_STAT_LEVEL ≠ 0 ∧
      rampCycles 8 4 ((d.tile 255).credits, (d.tile 255).slots, 0) = (0, 0, 4)) := by
  decide +kernel

/-- The device with tile 0 at a stream operation on port 3, stream 7 having `n` lines of credit. -/
def onStream (code n : Nat) (inbox : List Inbox) : State :=
  with1 (fun d => { d with
    tiles := [(0, tileAt 4 (code + 8 * 3) { portTile with opds := [opd1 false], inbox := inbox })]
    streams := [(7, stream7 n)]
    pipes := [(1, pipe1)] })

/-- SENDV with and without credit, RECVV with a message of the right and the wrong size and with none, SEND and RECV. -/
theorem witness_StreamOperations :
    (∀ n ∈ [8, 0], let d := (onStream 1 n []).dev
      d.standsAt 0 4 1 ∧ (d.tile 0).portStream (tPort (d.word 0 4)) true = some 7 ∧ look 7 d.streams = some (stream7 n)) ∧
    (∀ len ∈ [512, 8], let d := (onStream 2 8 [⟨3, 0, List.replicate len 0⟩]).dev
      d.standsAt 0 4 2 ∧ (d.tile 0).portStream (tPort (d.word 0 4)) false = some 7 ∧
        ((d.tile 0).nextMessage (stream7 8) (tPort (d.word 0 4))) = some ⟨3, 0, List.replicate len 0⟩) ∧
    (let d := (onStream 2 8 []).dev
    d.standsAt 0 4 2 ∧ (d.tile 0).portStream (tPort (d.word 0 4)) false = some 7 ∧ look 7 d.streams = some (stream7 8) ∧
      (d.tile 0).nextMessage (stream7 8) (tPort (d.word 0 4)) = none) ∧
    (let d := (onStream 3 8 []).dev
    let x := d.tile 0
    let read := (d.upsets 0 []).runsRead 0 false 8 (x.rowAddrs (opd1 false) 1)
    d.standsAt 0 4 3 ∧ (opd1 false).codeFault = none ∧ (d.upsets 0 []).runsOk 0 false 8 (x.rowAddrs (opd1 false) 1) = none ∧ read.2 = .inr [List.replicate 8 0] ∧
      x.portStream (tPort (d.word 0 4)) true = some 7 ∧ look 7 read.1.streams = some (stream7 8)) ∧
    (∀ m ∈ [none, some ⟨3, 0, []⟩, some ⟨3, 0, List.replicate 8 0⟩], let d := (onStream 4 8 m.toList).dev
    let x := d.tile 0
    d.standsAt 0 4 4 ∧ (opd1 false).codeFault = none ∧ d.runsOk 0 false 8 (x.rowAddrs (opd1 false) 1) = none ∧
      x.portStream (tPort (d.word 0 4)) false = some 7 ∧ look 7 d.streams = some (stream7 8) ∧
      x.nextMessage (stream7 8) (tPort (d.word 0 4)) = m ∧
      (d.runsWrite 0 false ((x.rowAddrs (opd1 false) 1).zip (rowsOf 8 1 (List.replicate 8 0)))).2 = none) := by
  refine ⟨?_, ?_, ?_, ?_, ?_⟩ <;> decide +kernel

/-- CREDIT and STREAM on an open path, on one that a failed link bars and for a job that is being purged; a wait past its deadline. -/
theorem witness_StreamOperations_delivery :
    (let st : Stream := { stream7 8 with flight := [⟨0, 1, [1]⟩] }
    let d := { (onStream 1 8 []).dev with streams := [(7, st)] }
    d.alive = true ∧ look 7 d.streams = some st ∧ d.streamBarred st 1 0 = false ∧ d.streamBarred st 0 1 = false ∧ d.jobPurged 0 = false ∧
      st.flight.find? (fun f => f.prod = 0 && f.cons = 1) = some ⟨0, 1, [1]⟩ ∧
      ({ d with noc := { d.noc with purging := [(2, true)] } } : Dev).jobPurged 0 = true ∧
      ({ d with noc := { d.noc with failed := [(0, 1), (1, 0)] } } : Dev).streamBarred st 1 0 = true ∧
      ({ d with noc := { d.noc with failed := [(0, 1), (1, 0)] } } : Dev).streamBarred st 0 1 = true) ∧
    (let d := (with1 (fun d => { d with now := 9, tiles := [(0, { portTile with seq := .waitStream 3 9 })] })).dev
    (d.tile 0).seq = .waitStream 3 9 ∧ 9 ≤ d.now) := by
  decide +kernel

/-- Tile 0 at a sync operation with word `w`, its handle 0 naming object 100 of context `c` at value `v`. -/
def onSync (w c v : Nat) : State :=
  with1 (fun d => { d.setReg (R.SYN_OBJ 100) (BitVec.ofNat 64 (v + c * 2 ^ 32 + 2 ^ 42)) with
    tiles := [(0, tileAt 5 w { portTile with handles := [(0, 100, 5)], g := [0, 1, 2] })]
    pipes := [(1, pipe1)] })

/-- The codes without further hypotheses, LOOP at 1 and at 2, BNE on equal and unequal registers, and HALT. -/
theorem witness_ControlOperations :
    (∀ code ∈ [1, 2, 3, 5, 7, 11], (onSync code 1 0).dev.standsAt 0 5 code) ∧
    (let d := (onSync (4 + 2 ^ 9) 1 0).dev
    d.standsAt 0 5 4 ∧ (d.tile 0).reg (cGa (d.word 0 5)) = 1) ∧
    (let d := (onSync (4 + 2 ^ 10) 1 0).dev
    d.standsAt 0 5 4 ∧ (d.tile 0).reg (cGa (d.word 0 5)) ≠ 1) ∧
    (let d := (onSync (6 + 2 ^ 9) 1 0).dev
    d.standsAt 0 5 6 ∧ (d.tile 0).reg (cGd (d.word 0 5)) ≠ (d.tile 0).reg (cGa (d.word 0 5))) ∧
    (let d := (onSync 6 1 0).dev
    d.standsAt 0 5 6 ∧ (d.tile 0).reg (cGd (d.word 0 5)) = (d.tile 0).reg (cGa (d.word 0 5))) := by
  refine ⟨?_, ?_, ?_, ?_, ?_⟩ <;> decide +kernel

/-- SIGNAL with and without the right to it, WAIT served, waiting and on a proxy, SRESET; packets of a timer, of a tile without a
pipeline and of a port whose job is being purged; a wait past its deadline; a sum, and an object that is a proxy. -/
theorem witness_SyncOperations :
    (let d := (onSync 8 1 0).dev
    d.standsAt 0 5 8 ∧ ((d.tile 0).handle (cHnd (d.word 0 5))).1 = 100 ∧ d.syncOwned 100 (d.tileCtx 0) = true ∧ d.tileSettled 0 = true) ∧
    (let d := (onSync 8 2 0).dev
    d.standsAt 0 5 8 ∧ d.syncOwned 100 (d.tileCtx 0) = false) ∧
    (let d := (onSync 9 1 1).dev
    d.standsAt 0 5 9 ∧ d.syncOwned 100 (d.tileCtx 0) = true ∧ d.proxyOf 100 = none ∧ (d.tile 0).syncArg (d.word 0 5) ≤ d.syncValue 100) ∧
    (let d := (onSync 9 1 0).dev
    d.standsAt 0 5 9 ∧ (d.tile 0).handle (cHnd (d.word 0 5)) = (100, 5000) ∧ d.syncOwned 100 (d.tileCtx 0) = true ∧
      d.proxyOf 100 = none ∧ d.syncValue 100 < (d.tile 0).syncArg (d.word 0 5)) ∧
    (let d := (onSync 10 1 0).dev
    d.standsAt 0 5 10 ∧ d.syncOwned 100 (d.tileCtx 0) = true) ∧
    (let d := { (onSync 9 1 1).dev with lnk := { Dev.reset.lnk with proxies := [(0, ⟨100, 1, 2, 9, 50⟩)] } }
    d.standsAt 0 5 9 ∧ (d.proxyOf 100).isSome = true) ∧
    (let d := (onSync 8 1 0).dev
    d.alive = true ∧ d.syncPurged (.timer 3) = false ∧ d.agentMay (.timer 3) 100 .signal = true ∧ d.agentMay (.timer 3) 100 .wait = false ∧
      d.agentMay (.tile 0) 100 .sreset = true ∧ d.agentMay (.tile 0) 100 .wait = true ∧
      ({ d with noc := { d.noc with purging := [(2, true)] } } : Dev).syncPurged (.port 31 2) = true) ∧
    (∀ who ∈ [Waiter.tile 0, .desc 5 0], let d := { (onSync 8 1 0).dev with waits := [⟨100, 1, who, 0⟩] }
    d.alive = true ∧ d.waits.find? (fun y => y.obj = 100 && y.who = who && decide (y.deadline ≤ d.now)) = some ⟨100, 1, who, 0⟩) ∧
    (Dev.reset.proxyOf 100 = none ∧ Dev.reset.syncValue 100 + (2 ^ 33 - 1) % 2 ^ 32 < 2 ^ 32) := by
  refine ⟨?_, ?_, ?_, ?_, ?_, ?_, ?_, ?_, ?_⟩ <;> decide +kernel

/-! ### Witnesses: Konaoc, descriptors and the engines -/

theorem witness_KonaocOperations : Dev.reset.alive = true ∧ 15 < 16 ∧ 0 < 32 ∧ 31 < 32 ∧ 28 ≤ 31 ∧ 27 < 28 := by decide +kernel

/-- A released descriptor at the head of queue 5 starts now, in a device that works with its firmware running and no quiet period. -/
theorem starts (f : Dev → Dev) (typ : Nat) (body table : List Byte) (check : Dev → Nat → Desc → Checked)
    (h : (f fwDev).alive = true ∧ (f fwDev).fwRuns = true ∧ (f fwDev).quiet = [] ∧ (f fwDev).now = 0) :
    (queuedIn f typ body table).dev.startsNow 5 check (begun f typ body table) (started typ body table) := by
  refine ⟨h.1, h.2.1, { descOf typ body with table := table }, rfl, .inl ⟨rfl, fun _ => ?_, rfl, ?_⟩⟩
  · simp [queuedIn, with1, Dev.quietNow, h.2.2.1, look]
  · simp [queuedIn, with1, started, h.2.2.2, descOf]

/-- A dispatched NOP starts now as well. -/
theorem starts_dispatched :
    let x := { descOf 1 [] with phase := .dispatched }
    let d := (with1 (fun d => { d.setFld R.MGT_FW_STAT F.MGT_FW_STAT_STATE 2 with queues := [(5, queueOf x)] })).dev
    d.startsNow 5 (fun d _ _ => (d, .inr [])) ((d.updDesc 5 0 (fun z => { z with table := [] })).markStart 5 0)
      { x with phase := .running, start := 0 } :=
  ⟨rfl, by decide +kernel, _, rfl, .inr ⟨rfl, _, [], _, rfl, rfl, by decide +kernel, .inl (by decide +kernel), by decide +kernel, rfl, rfl⟩⟩

/-- The types that act at once; the queue named by a QUEUE_DESTROY and by a QUEUE_ADOPT (body 0x10) is queue 5 itself. -/
theorem witness_ContextAndQueueDescriptors :
    (∀ (t : Nat) (check : Dev → Nat → Desc → Checked), (queued t [5]).dev.startsNow 5 check (begun id t [5]) (started t [5])) ∧
    (∀ t ∈ [1, 2, 3, 4, 5, 6], (started t [5]).typ = t) ∧
    (begun id 5 [5]).namedQueue 5 ((started 5 [5]).body 0 2) = some 5 ∧
    (let e := begun id 6 [5]
    e.namedQueue 5 ((started 6 [5]).body 0 2) = some 5 ∧ (e.queue 5).isSome = true) ∧
    (let body := bytesWith 48 [(16, 5)]
    let e := begun id 6 body
    e.namedQueue 5 ((started 6 body).body 0x10 2) = some 5 ∧ (e.queue 5).isSome = true) :=
  ⟨fun t check => starts id t [5] [] check (by decide +kernel), by decide +kernel, by decide +kernel, by decide +kernel, by decide +kernel⟩

/-- A WAIT of queue 5 on object 100 of its context, for 3, dispatched; the object's value is `v`. -/
def waitDesc : Desc := { descOf 11 (bytesWith 48 [(0, 2), (2, 100), (4, 3)]) with phase := .dispatched }
def waitDev (v : Nat) : Dev :=
  { fwDev.setReg (R.SYN_OBJ 100) (BitVec.ofNat 64 (v + 2 ^ 32 + 2 ^ 42)) with queues := [(5, queueOf waitDesc)] }

/-- MEM_ALLOC of one mebibyte in far memory finds room, SYNC_ALLOC of one object finds it; every operation of SYNC_OP and LINK_MAP; a
WAIT whose value has come and one whose value has not. -/
theorem witness_MemorySyncAndLinkDescriptors :
    (∀ (t : Nat) (body : List Byte) (check : Dev → Nat → Desc → Checked),
      (queued t body).dev.startsNow 5 check (begun id t body) (started t body)) ∧
    (∀ t ∈ [7, 8, 9, 10, 11, 21], (started t []).typ = t) ∧
    (let body : List Byte := bytesWith 48 [(0, 1), (10, 0x10)]
    ((begun id 7 body).allocBase ((started 7 body).body 0 1) ((started 7 body).body 1 1) ((started 7 body).body 8 8)).isSome = true) ∧
    (begun id 9 [1, 0]).freeSyncs ((started 9 [1, 0]).body 0 2) = some 0 ∧
    (∀ op ∈ ([1, 3] : List Nat), (started 11 [BitVec.ofNat 8 op]).body 0 1 = op) ∧
    (∀ op ∈ ([1, 2, 3, 4] : List Nat), (started 21 [BitVec.ofNat 8 op]).body 0 1 = op) ∧
    (∀ v ∈ [2, 3], let d := waitDev v
    d.alive = true ∧ d.fwRuns = true ∧ (d.queue 5).bind Queue.headDesc = some waitDesc ∧ d.desc 5 0 = some waitDesc ∧
      waitDesc.phase = .dispatched ∧ waitDesc.typ = 11 ∧ waitDesc.body 0 1 = 2 ∧ d.syncOpCheck 5 waitDesc = (d, .inr []) ∧
      waitDesc.namedWait = some (100, 3, 1000000000) ∧ d.proxyOf 100 = none ∧ d.syncOwned 100 (d.queueCtx 5) = true ∧
      (v = 3 → 3 ≤ d.syncValue 100) ∧ (v = 2 → d.syncValue 100 < 3)) := by
  refine ⟨fun t body check => starts id t body [] check (by decide +kernel), ?_, ?_, ?_, ?_, ?_, ?_⟩ <;> decide +kernel

/-- A command of an in-stack stack that has only been accepted. -/
def pimNew : PimCmd :=
  { q := 5, n := 0, ctx := 1, started := false, lanes := [], writes := [], sums := [], flags := [], stopping := false }

/-- Stack 0 with a command in hand. -/
def busyStack (d : Dev) : Dev := d.updPim 0 (fun z => { z with cmds := [{ pimNew with started := true }] })

/-- Every operation, behind a command in hand and alone; a POOL of one empty bag. -/
theorem witness_InStackCommands :
    (∀ op ∈ ([1, 2, 3, 4, 5, 6, 7, 8] : List Nat), ∀ f ∈ [id, busyStack],
      (queuedIn f 14 [BitVec.ofNat 8 op]).dev.startsNow 5 Dev.pimCheck (begun f 14 [BitVec.ofNat 8 op]) (started 14 [BitVec.ofNat 8 op])) ∧
    (∀ op ∈ ([1, 2, 3, 4, 5, 6, 7, 8] : List Nat), (started 14 [BitVec.ofNat 8 op]).typ = 14 ∧ pimOp (started 14 [BitVec.ofNat 8 op]) = op ∧
      pimStk (started 14 [BitVec.ofNat 8 op]) = 0 ∧ (begun id 14 [BitVec.ofNat 8 op]).desc 5 0 = some (started 14 [BitVec.ofNat 8 op]) ∧
      ((begun id 14 [BitVec.ofNat 8 op]).pimStack 0).cmds = [] ∧
      (((begun busyStack 14 [BitVec.ofNat 8 op]).pimStack 0).cmds.map PimCmd.started) = [true]) ∧
    (let body := bytesWith 48 [(0, 8), (9, 0x10), (0x28, 1), (0x2C, 1)]
    let x := started 14 body
    let e := begun (fun d => { d with extents := [⟨0, 0x100000, 1, 1⟩] }) 14 body
    (e.poolCompute 5 x false pimNew).2.isRight = true) := by
  refine ⟨?_, by decide +kernel, by decide +kernel⟩
  intro op _ f hf
  refine starts f 14 _ [] _ ?_
  rcases List.mem_cons.1 hf with rfl | hf
  · decide +kernel
  · rw [List.mem_singleton.1 hf]; decide +kernel

/-- Sequence 2 of context 1, one layer of one page of 64-byte rows, `len` tokens long, its map at 0x20_0000. -/
def kvSeq (len : Nat) : KvSeq :=
  { ctx := 1, layers := 1, maxPages := 1, w := 128, fmt := 1, remoteOk := false, job := 0, len := len, map := 0x200000 }

/-- The context owns the map and the frame at 0x30_0000, which its first page has when `len` is not 0; the frame at 0x30_4000 is free. -/
def kvDev (len : Nat) (d : Dev) : Dev :=
  { (d.memWriteRun {} 0x200000 (if len = 0 then [] else leBytes 8 0x300000 ++ leBytes 4 7)).1 with
    extents := [⟨0x200000, 0x200000, 1, 1⟩]
    kvp := { Kvp.reset with
      seqs := [(2, kvSeq len)]
      free := [(1, 0x304000)]
      dir := if len = 0 then [] else [(7, ⟨0x300000, 1, false, false, 1, 1, 1⟩)] } }

/-- The body of a KVP descriptor `op` on sequence 2 or, to open one, 3. -/
def kvBody (op : Nat) : List Byte :=
  bytesWith 48 [(0, op), (6, if op = 1 ∨ op = 5 then 3 else 2), (0x0C, 2), (0x10, 1), (0x14, 1), (0x1A, if op = 3 then 0x38 else 0x21), (0x24, 1)]

/-- The device in which it acts, and the descriptor. -/
def kvBegun (op len : Nat) : Dev := (begun (kvDev len) 15 (kvBody op)).updKvp (fun k => { k with work := [] })
def kvDesc (op : Nat) : Desc := started 15 (kvBody op)

/-- A page engine with an APPEND in hand. -/
def kvBusy (d : Dev) : Dev := d.updKvp (fun k => { k with running := some ⟨6, 0, 1, [], none, []⟩ })

/-- Every operation of KVP behind an APPEND in hand, and in an idle engine. -/
theorem witness_PageCommands :
    (∀ op ∈ ([1, 2, 3, 4, 5, 6, 7, 8] : List Nat),
      (queuedIn kvBusy 15 (kvBody op)).dev.startsNow 5 Dev.kvCheck (begun kvBusy 15 (kvBody op)) (kvDesc op)) ∧
    (∀ op ∈ ([1, 2, 3, 4, 5, 6, 7, 8] : List Nat), (begun kvBusy 15 (kvBody op)).kvp.running.isSome = true ∧ (kvDesc op).typ = 15 ∧
      (kvDesc op).body 0 1 = op) ∧
    (∀ op ∈ ([1, 2, 3, 4, 5, 6, 7, 8] : List Nat), ∀ len ∈ ([0, 1] : List Nat),
      (queuedIn (kvDev len) 15 (kvBody op)).dev.startsNow 5 Dev.kvCheck (begun (kvDev len) 15 (kvBody op)) (kvDesc op)) ∧
    (∀ op ∈ ([1, 2, 3, 4, 5, 6, 7, 8] : List Nat), ∀ len ∈ ([0, 1] : List Nat), let e := begun (kvDev len) 15 (kvBody op)
      e.kvp.running = none ∧ e.kvp.work = [] ∧ e.workHeld (.desc 5 0) = false ∧ e.desc 5 0 = some (kvDesc op)) := by
  refine ⟨fun op _ => starts _ 15 _ [] _ (by decide +kernel), by decide +kernel, fun op _ len hl => starts _ 15 _ [] _ ?_, by decide +kernel⟩
  revert len; decide +kernel

/-- SEQ_OPEN, SEQ_CLOSE, POOL_ADD and APPEND with what each of them needs. -/
theorem witness_PageCommands_first :
    (let h := kvBegun 1 0
    let y := kvDesc 1
    look (kvSeqNo y) h.kvp.seqs = none ∧ kvAddr y % 64 = 0 ∧ h.owns 1 (kvAddr y) (mapBytes (kvNlayer y) (bits (kvArg y) 47 32)) = true) ∧
    ((kvBegun 2 1).ownSeq 1 (kvSeqNo (kvDesc 2)) = some (kvSeq 1) ∧
      ((kvBegun 2 1).mapRead 2 (kvSeq 1) (pageGrid 0 1 0 (pagesOf 1))).2 = none) ∧
    (let h := kvBegun 3 1
    let y := kvDesc 3
    1 ≤ kvCount y ∧ kvCount y ≤ memSize / frameSize ∧ kvAddr y % frameSize = 0 ∧
      h.inOneExtent 1 (kvAddr y) (kvCount y * frameSize) = true ∧ h.isCompute (kvAddr y) = false ∧ h.kvp.pooled = []) ∧
    (let d := { kvBegun 4 0 with mem := (Dev.reset.memWriteRun {} 0x210000 [2, 0, 1, 0, 0, 0, 0, 0, 0, 0, 0x22]).1.mem }
    (d.kvAppendCheck 1 (kvDesc 4)).2.isRight = true) := by
  refine ⟨?_, ?_, ?_, ?_⟩ <;> decide +kernel

/-- FORK, TRUNCATE, FETCH and PUSH with what each of them needs. -/
theorem witness_PageCommands_last :
    (let h := kvBegun 5 1
    let y := kvDesc 5
    look (kvSeqNo y) h.kvp.seqs = none ∧ h.ownSeq 1 (y.body 0x0C 2) = some (kvSeq 1) ∧ kvCount y ≤ 1 ∧ kvAddr y % 64 = 0 ∧
      h.owns 1 (kvAddr y) (mapBytes 1 1) = true ∧ (h.mapRead 2 (kvSeq 1) (pageGrid 0 1 0 (pagesOf 1))).2 = none ∧
      (look (h.mapId (kvSeq 1) 0 0) h.kvp.dir).map DirEntry.refcnt = some 1) ∧
    ((kvBegun 6 1).ownSeq 1 (kvSeqNo (kvDesc 6)) = some (kvSeq 1) ∧ kvCount (kvDesc 6) ≤ 1 ∧
      ((kvBegun 6 1).mapRead 2 (kvSeq 1) (pageGrid 0 1 1 1)).2 = none) ∧
    (let h := kvBegun 7 0
    let y := kvDesc 7
    let grid := pageGrid (y.body 0x0E 2) (kvNlayer y) 0 (pagesOf (kvCount y))
    h.ownSeq 1 (kvSeqNo y) = some (kvSeq 0) ∧ fetchShapeOk (kvSeq 0) (y.body 0x0E 2) (kvNlayer y) (kvCount y) = true ∧
      grid.length ≤ h.framesFree 1 ∧ grid.length ≤ h.entriesFree ∧ grid = [(0, 0)]) ∧
    (let h := kvBegun 8 1
    let y := kvDesc 8
    h.ownSeq 1 (kvSeqNo y) = some (kvSeq 1) ∧ 1 ≤ kvNlayer y ∧ y.body 0x0E 2 + kvNlayer y ≤ 1 ∧ kvCount y ≤ 1 ∧
      (h.mapRead 2 (kvSeq 1) (pageGrid 0 1 0 (pagesOf 1))).2 = none ∧ (look (h.mapId (kvSeq 1) 0 0) h.kvp.dir).isSome = true ∧
      (h.readsOk 1 (kvSeq 1).used [0x300000]).2 = none) := by
  refine ⟨?_, ?_, ?_, ?_⟩ <;> decide +kernel

/-- A reduce-scatter of 512 elements in FP32 between devices 0 and 7, this device being member `self`; DST in far memory. -/
def coll1 (op self flags : Nat) : Collective :=
  { q := 5, n := 0, ctx := 1, job := 4
    body := bytesWith 48 [(0, op), (3, flags), (0x14, 0x40), (0x21, 2), (0x28, 2), (0x2A, self), (0x2C, 1)]
    table := bytesWith 96 [(0, 4), (5, 2), (66, 0xFF), (67, 0xFF), (80, 7), (82, 0xFF), (83, 0xFF)]
    start := 0, red := true, det := false, check := false, policy := 0, contribs := [], taken := [], has := []
    counts := [], staged := [], next := [], order := [], checks := [], compared := [], nf := none, checkElem := none, flags := 0
    backupUsed := false, tm := none, d2 := none, finished := false, ue := none, sums := [], gone := [], goneDevs := [], marked := [], statusDone := false
    gather := [], refetch := [], mcast := none }

/-- The device with a collective open as number 3, at time `now`. -/
def inColl (now : Nat) (x : Collective) : Dev := { Dev.reset with now := now, col := { Coll.reset with open_ := [(3, x)] } }

/-- Memory whose granule at address `a` holds two wrong symbols, and the byte 1 at 0x40. -/
def badMem (a : Nat) (d : Dev) : Dev :=
  { d with mem := { d.mem with cells := [⟨0x40, 1⟩], err := [(a / 64 * 128, 0x55), (a / 64 * 128 + 1, 0x77)] } }

/-- The body and table of a collective, in a device whose job 4 is open. -/
def collBody : List Byte := (coll1 1 0 0).body
def collTable : List Byte := (coll1 1 0 0).table
def withJob (open_ : List (Nat × Collective)) (d : Dev) : Dev :=
  { d with jobs := [(4, ⟨1, 0, 0, false, 0⟩)], col := { Coll.reset with open_ := open_ } }

/-- PIPELINE, SAMPLE, GAMBIT, COPY and AUDIT; an UPDATE that is not skipped, one that is, and one whose flag cannot be read; a collective
that meets another, one beyond 256 and one that opens. -/
theorem witness_EngineDescriptors :
    (∀ (typ : Nat) (body table : List Byte) (check : Dev → Nat → Desc → Checked), ∀ f ∈ [id, badMem 0, withJob []],
      (queuedIn f typ body table).dev.startsNow 5 check (begun f typ body table) (started typ body table)) ∧
    (∀ t ∈ [12, 13, 16, 17, 18, 19, 20], (started t []).typ = t) ∧
    (∀ op ∈ ([1, 2, 3, 4, 5] : List Nat), (started 20 [BitVec.ofNat 8 op]).body 0 1 = op) ∧
    (started 18 []).body 0x20 8 = 0 ∧
    (∀ p ∈ ([(0x40, true), (8, false)] : List (Nat × Bool)), let e := begun (badMem 0) 18 (bytesWith 48 [(0x20, p.1)])
      let y := started 18 (bytesWith 48 [(0x20, p.1)])
      y.body 0x20 8 = p.1 ∧ (y.body 0 1).testBit 2 = false ∧ (e.memCheckRead { ctx := 1 } (y.body 0x20 8) 8).2.isNone = p.2 ∧
        (p.2 = true → (e.memCheckRead { ctx := 1 } (y.body 0x20 8) 8).1.memNat (y.body 0x20 8) 1 ≠ 0)) ∧
    (let z : CollDesc := ⟨(started 20 collBody collTable).raw.drop 16, collTable⟩
    (begun (withJob [(3, coll1 1 0 0)]) 20 collBody collTable).collApart z = false ∧
      (begun (withJob (List.replicate 256 (3, { coll1 1 0 0 with job := 5 }))) 20 collBody collTable).collApart z = true ∧
      256 ≤ (begun (withJob (List.replicate 256 (3, { coll1 1 0 0 with job := 5 }))) 20 collBody collTable).col.open_.length ∧
      (begun (withJob []) 20 collBody collTable).collApart z = true ∧ (begun (withJob []) 20 collBody collTable).col.open_.length < 256 ∧
      (look z.job (begun (withJob []) 20 collBody collTable).jobs).isSome = true) := by
  refine ⟨fun typ body table check f hf => starts f typ body table check ?_, by decide +kernel, by decide +kernel, by decide +kernel,
    by decide +kernel, by decide +kernel⟩
  rcases List.mem_cons.1 hf with rfl | hf
  · decide +kernel
  rcases List.mem_cons.1 hf with rfl | hf
  · decide +kernel
  · rw [List.mem_singleton.1 hf]; decide +kernel

/-- A running COPY of 64 bytes from address `src`, its source in host memory when `host`. -/
def copyDesc (src : Nat) (host : Bool) : Desc := started 12 (bytesWith 48 [(0, src), (9, 0x10), (0x10, 64), (0x18, b2n host)])
def copying (src : Nat) (host : Bool) (f : Dev → Dev) : Dev := f { Dev.reset with queues := [(5, queueOf (copyDesc src host))] }

/-- COPY_DONE of a descriptor that is no COPY, of copies within memory that can and cannot be read, and of copies from host memory that
can be reached, that cannot, and of a queue that was orphaned. -/
theorem witness_EngineDescriptors_copies :
    ((queued 1 []).dev.alive = true ∧ ((queued 1 []).dev.desc 5 0).isSome = true ∧ (started 1 []).typ ≠ 12) ∧
    (∀ p ∈ ([(0, false), (64, true)] : List (Nat × Bool)), let d := copying p.1 false (badMem 0)
    d.alive = true ∧ d.desc 5 0 = some (copyDesc p.1 false) ∧ (copyDesc p.1 false).typ = 12 ∧ (copyDesc p.1 false).phase = .running ∧
      (copySrcHost (copyDesc p.1 false) || copyDstHost (copyDesc p.1 false)) = false ∧
      (d.copyGuard 1 (copyDesc p.1 false) 64).2.2.isNone = p.2) ∧
    (let y := copyDesc 0 true
    (copySrcHost y || copyDstHost y) = true ∧ (copying 0 true id).suppressed 5 = false ∧
      (copying 0 true id).hostReach ((copying 0 true id).queueFn 5) (y.body 0 8) (y.body 0x10 8) = false ∧
      (copying 0 true (fun d => { d with host := { HostSide.reset with linkUp := true, bme := [0] } })).hostReach 0 (y.body 0 8)
        (y.body 0x10 8) = true ∧
      (copying 0 true (fun d => { d with queues := [(5, { queueOf y with wasOrphaned := true })] })).suppressed 5 = true) := by
  refine ⟨?_, ?_, ?_⟩ <;> decide +kernel

/-! ### Witnesses: pipelines, the network and memory -/

/-- Pipeline 1 bound, ending and released with its tile at HALT and before it; the last number, which holds none. -/
theorem witness_PipelineEvents :
    (let d := (with1 (fun d => { d with pipes := [(1, pipe1)] })).dev
    d.alive = true ∧ look 4095 d.pipes = none ∧ look 1 d.pipes = some pipe1 ∧ pipe1.ending = none ∧ pipe1.released = false) ∧
    (let x := { pipe1 with ending := some (stResigned, 0) }
    let d := (with1 (fun d => { d with pipes := [(1, x)] })).dev
    look 1 d.pipes = some x ∧ x.ending.isSome = true) ∧
    (let x := { pipe1 with released := true }
    let d := (with1 (fun d => { d with pipes := [(4095, x)], tiles := [(0, { Tile.blank with seq := .done })] })).dev
    d.alive = true ∧ look 4095 d.pipes = some x ∧ x.ending = none ∧ x.released = true ∧
      x.tiles.all (fun t => (d.tile t).seq == .done && (d.tile t).latwait.isEmpty && d.tileAcked t) = true) ∧
    (let x := { pipe1 with released := true }
    let d := (with1 (fun d => { d with pipes := [(4095, x)], tiles := [(0, { Tile.blank with seq := .run })] })).dev
    x.tiles.all (fun t => (d.tile t).seq == .done && (d.tile t).latwait.isEmpty && d.tileAcked t) = false) := by
  decide +kernel

/-- A reducible ACC packet of FP32, one of two terms, from tile 0 to tile 7. -/
def term : NocPkt := { pkt 5 7 with vc := 1, red := true, ph := 0, cnt := 1, total := 2, hb := 100, payload := [0, 0, 0x80, 0x3F] }

/-- Packets to the last group, of a wrong channel, of a job being purged, and to a tile and a group. -/
theorem witness_Packets_inject :
    (let d := Dev.reset
    d.alive = true ∧ d.dstOk 2047 = false ∧ d.dstOk 305 = false ∧ vcOk 5 0 = false) ∧
    (let d := { Dev.reset with noc := { Noc.reset with purging := [(4095, false)] } }
    d.dstOk 304 = true ∧ vcOk 5 4 = true ∧ d.purgingNow 4095 = true ∧ d.purgingNow 0 = false) ∧
    (let d := { Dev.reset.setReg (R.NOC_MCAST 1023) 1 with noc := { Noc.reset with groups := [(1023, [0, 3])] } }
    d.alive = true ∧ d.dstOk 2047 = true ∧ vcOk 1 6 = true ∧ d.purgingNow 0 = false) := by
  decide +kernel

/-- A packet in the mesh, on its way to its target router; the mesh that carries it and holds entries. -/
def meshOf (p : NocPkt) (parked : List Parked) (f : Dev → Dev) : Dev :=
  f { Dev.reset.setFld R.NOC_CFG F.NOC_CFG_EP_EN 1 with noc := { Noc.reset with flight := [⟨p, targetRouter p, none⟩], parked := parked } }

/-- The packets of the mesh that are `p` bound for one router. -/
def meshOne (p : NocPkt) : MeshPkt → Bool := fun x => x.pkt = p && (decide (p.dst < 1024) || x.target = 3)

/-- The entry in which the term waits at a router since the start. -/
def held (node : Nat) : Parked := ⟨node, term, 0, none, 0⟩

/-- A term that goes past a port already handled, that is purged, and one that is no reducible term; one of a DETERMINISTIC job, one with
EP_EN = 0; one that is not finite, alone and with a partner. -/
theorem witness_Packets_passing :
    (let d := meshOf term [] (fun d => { d with noc := { d.noc with handled := [(3, 0, 2)] } })
    d.alive = true ∧ d.portPassed 3 0 1 = true) ∧
    (let p := { pkt 0 7 with payload := [1] }
    let d := { Dev.reset with noc := { Noc.reset with flight := [⟨p, 3, none⟩, ⟨pkt 0 7, 3, none⟩], failed := [(neighbour 3 0, linkDir (neighbour 3 0) 3)] } }
    d.meshFirst (meshOne (pkt 0 7)) = false ∧ d.portStopped 3 1 = true) ∧
    (let d := meshOf term [] (fun d => { d with noc := { d.noc with purging := [(0, false)] } })
    d.portPassed 3 0 6 = false ∧ d.portStopped 3 6 = false ∧ d.meshFirst (meshOne term) = true ∧ d.purgingNow term.job = true) ∧
    (let d := meshOf (pkt 0 7) [] id
    d.meshFirst (meshOne (pkt 0 7)) = true ∧ d.purgingNow 0 = false ∧ reducible (pkt 0 7) = false) ∧
    (let d := meshOf term [] (fun d => d.setReg (R.NOC_JOB_DET 0) 1)
    d.meshFirst (meshOne term) = true ∧ reducible term = true ∧ (d.meshTaken (meshOne term)).detJob term.job = true) ∧
    (let d := meshOf term [] (fun d => d.setFld R.NOC_CFG F.NOC_CFG_EP_EN 0)
    d.purgingNow 0 = false ∧ (d.meshTaken (meshOne term)).detJob 0 = false ∧
      (d.meshTaken (meshOne term)).fld R.NOC_CFG F.NOC_CFG_EP_EN = 0) ∧
    (let p := { term with payload := [0, 0, 0x80, 0x7F] }
    let d := (meshOf p [held 3] id).meshTaken (meshOne p)
    nonFinitePayload p = true ∧ d.detJob 0 = false ∧ d.fld R.NOC_CFG F.NOC_CFG_EP_EN ≠ 0 ∧ d.oldLink p.src = false ∧ d.oldLink p.dst = false ∧
      d.noc.parked.find? (fun x => x.node = 3 && pktMatch x 0 p && decide (199 < x.since + 2 * x.pkt.hb)) = some (held 3) ∧
      d.noc.parked.find? (fun x => x.node = 3 && pktMatch x 0 p && decide (200 < x.since + 2 * x.pkt.hb)) = none) := by
  refine ⟨?_, ?_, ?_, ?_, ?_, ?_, ?_⟩ <;> decide +kernel

/-- A term that meets its partner with a finite sum, with a sum that overflows and with too many terms; one alone that may park, with an
entry free and with none, and one that may not; an expired entry and a router without one. -/
theorem witness_Packets_meeting :
    (let d := (meshOf term [held 3] id).meshTaken (meshOne term)
    nonFinitePayload term = false ∧
      d.noc.parked.find? (fun x => x.node = 3 && pktMatch x 0 term && decide (0 < x.since + 2 * x.pkt.hb)) = some (held 3) ∧
      (held 3).pkt.cnt + term.cnt ≤ term.total ∧ (held 3).pkt.cnt + term.cnt ≤ 255 ∧
      sumPayload (held 3).pkt term = some [0, 0, 0, 0x40]) ∧
    (let p := { term with payload := [0xFF, 0xFF, 0x7F, 0x7F] }
    nonFinitePayload p = false ∧ sumPayload p p = none) ∧
    (let p := { term with cnt := 2 }
    p.total < term.cnt + p.cnt) ∧
    (let d := (meshOf term [] id).meshTaken (meshOne term)
    d.noc.parked.find? (fun x => x.node = 3 && pktMatch x 0 term && decide (0 < x.since + 2 * x.pkt.hb)) = none ∧
      (mayPark 3 0 term && decide (term.cnt < term.total) && decide (0 < term.hb)) = true ∧ d.entryFree 3 0 = true) ∧
    (let d := (meshOf term (List.replicate 64 (held 3)) id).meshTaken (meshOne term)
    d.entryFree 3 0 = false) ∧
    (let p := { term with hb := 0 }
    (mayPark 3 0 p && decide (p.cnt < p.total) && decide (0 < p.hb)) = false) ∧
    (let d := { meshOf term [held 319] id with now := 100 }
    d.alive = true ∧ d.noc.parked.find? (fun x => x.node = 319 && decide (x.since + 2 * x.pkt.hb ≤ 2 * d.now + 1)) = some (held 319) ∧
      d.noc.parked.find? (fun x => x.node = 0 && decide (x.since + 2 * x.pkt.hb ≤ 2 * d.now + 1)) = none) := by
  refine ⟨?_, ?_, ?_, ?_, ?_, ?_, ?_⟩ <;> decide +kernel

/-- A purge in hand with its quiet period and none; a link that does not exist, one that has failed, and a working link's first failure,
its sixteenth in a row and its sixty-fourth in a second. -/
theorem witness_Packets_purge :
    ({ Noc.reset with purging := [(4095, true), (1, false)] } : Noc).purging = [(4095, true), (1, false)] ∧
    (Dev.reset.alive = true ∧ Dev.reset.noc.purging = []) ∧
    (linkDir 0 (neighbour 0 4) ≠ 4 ∨ linkDir 319 (neighbour 319 0) ≠ 0) ∧
    (let d := { Dev.reset with noc := { Noc.reset with failed := [(0, 0)] } }
    d.linkFailed 0 (neighbour 0 0) = true) ∧
    (let d := { Dev.reset with noc := { Noc.reset with retries := [((0, 0), 15, List.replicate 63 0)] } }
    d.linkFailed 0 (neighbour 0 0) = false ∧ linkDir 0 (neighbour 0 0) = 0 ∧ d.linkRetries 0 0 = (15, List.replicate 63 0) ∧
      ((List.replicate 63 0).filter (fun t => decide (d.now < t + 1000000))).length = 63) ∧
    Dev.reset.linkRetries 0 0 = (0, []) := by
  refine ⟨?_, ?_, ?_, ?_, ?_, ?_⟩ <;> decide +kernel

/-- Writes by the scrubber of one byte at the top of memory and of two below a gibibyte's end; a write by a tile without a pipeline, one
to a lane with a sequence, one over a granule with errors and one to a retired page. -/
theorem witness_MemoryWriteStoresItsBytes :
    (let d := Dev.reset
    d.alive = true ∧ d.accessOwned .scrubber (memSize - 1) 1 = true ∧ d.laneBusy (memSize - 1) = false ∧
      (d.holdRun (memSize - 1) 1).writeSpecial (memSize - 1) memSize = [] ∧ d.laneBusy 0x3FFFFFFE = false ∧
      (d.holdRun 0x3FFFFFFE 2).writeSpecial 0x3FFFFFFE 0x40000000 = [] ∧ Memory.wf d.mem.cells ∧
      (d.pimStack (stackOf (d.phys (memSize - 1)))).seqs = [] ∧ d.accessOwned (.tile 0) 0 1 = false) ∧
    ({ Dev.reset with pim := [(0, { PimStack.blank with seqs := [⟨laneOf (256 * gib), 1, 0⟩] })] } : Dev).laneBusy (256 * gib) = true ∧
    (let d := (badMem 0 Dev.reset).holdRun 0 64
    (d.writeGranules (d.accessOf .scrubber) 0 64 (d.writeSpecial 0 64)).2 = none ∧ d.writeSpecial 0 64 = [0]) ∧
    (let d := ({ Dev.reset with mem := { MemSys.reset with retired := [0] } } : Dev).holdRun 0 4
    (d.writeGranules (d.accessOf .scrubber) 0 4 (d.writeSpecial 0 4)).2 = some 0) := by
  refine ⟨?_, ?_, ?_, ?_⟩ <;> decide +kernel

/-- A read that is refused, one of a lane with a sequence, one of COMPUTE, one that shows no error, one symbol or two, and one whose
error stays. -/
theorem witness_MemoryControllers_reads :
    let far := 256 * gib
    (let d := Dev.reset.setReg (R.PIM_CFG) 1
    d.alive = true ∧ d.accessOwned (.tile 0) far 1 = false ∧ d.accessOwned .scrubber far 1 = true ∧ d.laneBusy far = false ∧
      d.accessFails far = false ∧ d.isCompute far = true) ∧
    (let d := Dev.reset
    d.laneBusy 0 = false ∧ d.isCompute 0 = false ∧ d.accessFails 0 = false ∧ d.mem.wbPend.contains (d.phys 0 / 64) = false ∧
      decodeWord (wrongAdd (d.seenErr (d.phys 0)) []) = .clean ∧
      decodeWord (wrongAdd (d.seenErr (d.phys 0)) [(71, 0x55)]) = .corrected 71 0x55 ∧
      decodeWord (wrongAdd (d.seenErr (d.phys 0)) [(0, 0x55), (1, 0x77)]) = .ue ∧
      decodeWord (wrongAdd ((badMem 0 d).seenErr (d.phys 0)) []) = .ue) ∧
    (let d := { Dev.reset with pim := [(0, { PimStack.blank with seqs := [⟨laneOf far, 1, 0⟩] })] }
    d.laneBusy far = true) := by
  refine ⟨?_, ?_, ?_⟩ <;> decide +kernel

/-- A pending write-back; a slice in use and a lost one; a fallback that waits for a tile and one whose tiles have all switched; an
evacuation with a page to copy and one that has copied all; a scrub of a lane with a sequence, of one granule, and of an empty range;
a bank whose lane runs. -/
theorem witness_MemoryControllers_events :
    (let d := { Dev.reset with mem := { MemSys.reset with wbPend := [0] } }
    d.alive = true ∧ d.mem.wbPend.contains (d.phys 0 / 64) = true) ∧
    (Dev.reset.mem.clkPend = false ∧ Dev.reset.sliceState 255 < 3 ∧ ∀ i ∈ [0, 2367], i / 2 < 1184) ∧
    (let d := Dev.reset.setFld (R.MEM_NCH_STAT 255) F.MEM_NCH_STAT_STATE 4
    3 ≤ d.sliceState 255 ∧ 256 ≤ 271 ∧ (d.scrubBounds 255).1 < (d.scrubBounds 255).2) ∧
    (let d := { Dev.reset with mem := { MemSys.reset with clkPend := true } }
    d.mem.clkPend = true ∧ (List.range 256).all (fun t => decide (3 ≤ d.sliceState t) || d.mem.switched.contains t) = false ∧
      (List.range 256).all (fun t => decide (3 ≤ d.sliceState t) || (List.range 256).contains t) = true) ∧
    (let d := { Dev.reset with mem := { MemSys.reset with evac := [⟨0, 256 * gib, 0⟩] } }
    d.mem.evac = [⟨0, 256 * gib, 0⟩] ∧ d.nextExtentPage 0 0 = none ∧
      ({ d with extents := [⟨0, 4096, 1, 0⟩] } : Dev).nextExtentPage 0 0 = some 0) ∧
    (let d := { Dev.reset with pim := [(15, { PimStack.blank with seqs := [⟨32 * 3 + 31, 1, 0⟩] }),
      (0, { PimStack.blank with seqs := [⟨laneOf (256 * gib), 1, 0⟩] })] }
    (d.pimStack 15).seqs.any (fun e => e.lane = 32 * 3 + 31) = true ∧ (d.pimStack 1).seqs.any (fun e => e.lane = 0) = false ∧
      stackOf (d.scrubAddr 256) = 0 ∧ d.laneBusy (d.scrubAddr 256) = true ∧ d.laneBusy (d.scrubAddr 257) = false) := by
  refine ⟨?_, ?_, ?_, ?_, ?_, ?_⟩ <;> decide +kernel

/-! ### Witnesses: in-stack sequences, pages and samplers -/

/-- A started in-stack command with four rows left on lane 127. -/
def pimCmd (left : Nat) : PimCmd := { pimNew with started := true, lanes := [(127, left)], writes := [(0, List.replicate 64 0)] }

/-- Stack 15 with a command. -/
def onStack (left : Nat) (f : PimStack → PimStack) : Dev :=
  { Dev.reset with pim := [(15, f { PimStack.blank with cmds := [pimCmd left] })] }

/-- A start within the budget, past it and with no rows; the end of a sequence; a command behind a running sequence, one not started, one
stopped, one with rows left, and one whose rows are done and whose granules can and cannot be written. -/
theorem witness_InStackAndPageEvents_sequences :
    (let d := (onStack 4 id).pimRoll 15
    (onStack 4 id).alive = true ∧ d.seqAllowed 15 127 4 = true ∧ d.seqAllowed 15 127 0 = false ∧
      (d.pimStack 15).spent + 4 * d.fld (R.PIM_STK_BUDGET 15) F.PIM_STK_BUDGET_ROWOP_NJ ≤
        d.fld (R.PIM_STK_BUDGET 15) F.PIM_STK_BUDGET_BUDGET_UJ * 1000) ∧
    (let d := (onStack 4 (fun x => { x with spent := 1000000 })).pimRoll 15
    d.seqAllowed 15 127 1 = true ∧ d.fld (R.PIM_STK_BUDGET 15) F.PIM_STK_BUDGET_BUDGET_UJ * 1000 <
      (d.pimStack 15).spent + 1 * d.fld (R.PIM_STK_BUDGET 15) F.PIM_STK_BUDGET_ROWOP_NJ) ∧
    (let d := onStack 4 (fun x => { x with seqs := [⟨0, 1, 0⟩] })
    (d.pimStack 15).seqs.any (fun e => e.lane = 0) = true ∧ (d.pimStack 15).seqs.any (fun e => e.lane = 1) = false ∧
      (d.pimStack 15).seqs ≠ []) ∧
    (let d := onStack 0 id
    (d.pimStack 15).seqs = [] ∧ (d.pimStack 15).cmds = [pimCmd 0] ∧ (pimCmd 0).started = true ∧ (pimCmd 0).stopping = false ∧
      (pimCmd 0).lanes.any (fun e => decide (0 < e.2)) = false ∧ (d.pimWrites (pimCmd 0) ((pimCmd 0).writes ++ (pimCmd 0).sums)).2 = none ∧
      (({ d with mem := { MemSys.reset with retired := [0] } } : Dev).pimWrites (pimCmd 0) ((pimCmd 0).writes ++ (pimCmd 0).sums)).2 = some 0) ∧
    ((pimCmd 4).lanes.any (fun e => decide (0 < e.2)) = true ∧ pimNew.started = false ∧
      ({ pimCmd 4 with stopping := true } : PimCmd).stopping = true) := by
  refine ⟨?_, ?_, ?_, ?_, ?_⟩ <;> decide +kernel

/-- The page engine's device with number 0, configured and READY, and job 4 of context 1 open; sequence 2 is of that job. -/
def pageDev (f : Dev → Dev) : Dev :=
  let d := ((kvDev 1 Dev.reset).setFld R.LNK_CFG F.LNK_CFG_SELF 0).setFld R.MGT_PERSONA F.MGT_PERSONA_CFG_STATE 2
  f { d.setFld R.MGT_FW_STAT F.MGT_FW_STAT_STATE 2 with
    boot := { d.boot with stage := 7 }
    jobs := [(4, ⟨1, 0, 0, false, 0⟩)], kvp := { d.kvp with seqs := [(2, { kvSeq 1 with remoteOk := true, job := 4 })] } }

/-- A PAGE_READ of sequence `seq` by device 7. -/
def pageRd (seq : Nat) : BamatPkt := { bpkt 8 5 with srcdev := 7, job := 4, addr := seq }

/-- A PAGE_READ here and on its way; one of no such sequence, one whose map is bad, one held, one served and one that cannot be read. -/
theorem witness_InStackAndPageEvents_reads :
    ((pageDev id).alive = true ∧ (pageRd 2).op = 8 ∧ (pageDev id).bamatWaits (pageRd 2) = false ∧ opVcOk (pageRd 2) = true ∧
      (pageRd 2).dstdev = ((pageDev id).bamatHandled (pageRd 2)).selfDev ∧
      (let p := { bpkt 8 5 with dstdev := 9, hops := 38 }
      p.dstdev ≠ (Dev.reset.bamatHandled p).selfDev ∧ p.hops + 1 < 40)) ∧
    (pageDev id).bamatStatus 4 true = some 3 ∧ (pageDev id).bamatStatus 4 false = none ∧ Dev.reset.bamatStatus 4 false = some 2 ∧
    (let z := { kvSeq 1 with remoteOk := true, job := 4 }
    look 2 (pageDev id).kvp.seqs = some z ∧ ((pageDev id).mapRead 2 z [(0, 0)]).2 = none ∧
      ((pageDev (fun d => d.updKvp (fun k => { k with dir := [] }))).mapRead 2 z [(0, 0)]).2 = some (stInvalid, invalidTable 0x0603) ∧
      (look ((pageDev id).mapId z 0 0) (pageDev id).kvp.dir).map DirEntry.busy = some false ∧
      ((pageDev id).memCheckRead { ctx := 1 } 0x300000 z.used).2 = none ∧
      ((badMem 0x300000 (pageDev id)).memCheckRead { ctx := 1 } 0x300000 z.used).2 = some 0x300000) := by
  refine ⟨?_, ?_, ?_, ?_, ?_⟩ <;> decide +kernel

/-- A page's data that fits a FETCH, that does not fit its shape and that nothing awaits; a PUSH that opens and one that goes on; a copy
of two, of one with an entry in hand, and one that does not run. -/
theorem witness_InStackAndPageEvents_data :
    (let r : KvRead := ⟨3, 0, 0, 0, [], none⟩
    let f : KvFetch := ⟨.fetch, 5, 0, 1, 2, 7, 0, 4, 1, [r], []⟩
    let p := { bpkt 9 5 with srcdev := 7, job := 4, tag := 3, total := (kvSeq 1).shape }
    let d := pageDev (fun d => d.updKvp (fun k => { k with fetches := [f] }))
    p.arg / 256 = 0 ∧
      d.kvp.fetches.find? (fun f => f.kind = .fetch && f.peer = p.srcdev && f.job = p.job && f.todo.any (fun r => r.tag = p.tag)) = some f ∧
      d.shapeAgrees f p = true ∧ d.shapeAgrees f { p with cnt := 1 } = false ∧ f.todo.find? (fun r => r.tag = p.tag) = some r) ∧
    (let p := { bpkt 9 5 with srcdev := 7, job := 4, tag := 2, arg := 256 }
    let r : KvRead := ⟨0, 0, 0, 0, [], none⟩
    let f : KvFetch := ⟨.pushIn, 5, 0, 1, 2, 7, 0, 4, 1, [r], []⟩
    p.arg / 256 ≠ 0 ∧ (pageDev id).kvp.fetches.any (fun f => f.kind = .pushIn && f.peer = p.srcdev && f.seq = p.tag) = false ∧
      (bits p.addr 22 15 = p.total && bits p.addr 38 23 = 0 && p.addr % 2 ^ 15 = 0) = true ∧
      (pageDev (fun d => d.updKvp (fun k => { k with fetches := [f] }))).kvp.fetches.find?
        (fun f => f.kind = .pushIn && f.peer = p.srcdev && f.seq = p.tag) = some f ∧
      f.todo.find? (fun r => r.layer = bits p.addr 22 15 && r.page = bits p.addr 38 23) = some r) ∧
    (let c : KvCopy := ⟨2, 0, 0, 3, 4⟩
    let d := pageDev (fun d => d.updKvp (fun k => { k with copies := [c, ⟨2, 1, 2, 5, 6⟩] }))
    d.kvp.copies.find? (fun c => c.seq = 2 && c.layer = 0 && c.page = 0) = some c ∧ (d.finishCopy c).kvp.copies ≠ [] ∧
      d.kvp.copies.find? (fun c => c.seq = 3 && c.layer = 0 && c.page = 0) = none) ∧
    (let c : KvCopy := ⟨2, 0, 0, 3, 4⟩
    let d := pageDev (fun d => d.updKvp (fun k => { k with copies := [c], running := some ⟨5, 0, 1, [(2, 1, 0x220000)], none, []⟩ }))
    (d.finishCopy c).kvp.copies = [] ∧
      (d.finishCopy c).kvp.running.bind (fun a => a.entries.head?.map (fun e => (e, a.entries.length))) = some ((2, 1, 0x220000), 1)) := by
  refine ⟨?_, ?_, ?_, ?_⟩ <;> decide +kernel

/-- A SAMPLE or GAMBIT of one sequence and one stream of four logits; a sequence's entry names one draft token in GAMBIT. -/
def smpJob (gambit : Bool) : SmpJob :=
  { body := bytesWith 48 [(1, 1), (6, 1), (26, 0x10)]
    table := bytesWith (if gambit then 48 else 32) [(34, if gambit then 1 else 0), (42, if gambit then 0x20 else 0)] ++
      bytesWith 16 [(0, 4), (4, 4), (6, 1)]
    gambit := gambit }

/-- The descriptor of `smpJob` at the head of a sampler. -/
def smpCmd (gambit : Bool) (row : Nat) (kept : List (List RowPick)) : SampleCmd :=
  { gambit := gambit, q := 5, n := 0, ctx := 1, row := row, lrow := 0, kept := kept, nonfinite := false, since := 0, stopping := false }

/-- Its slot, with the message of its row or without. -/
def slotWith (there : Bool) : Slot :=
  { sid := 7, pipe := 1, ctx := 1, job := 2, prods := 1, msgs := if there then [(0, List.replicate 16 0)] else [], lastMsg := 0,
    timeout := 1000, ended := false }

/-- Sampler 15 at the command. -/
def onSampler (gambit there : Bool) (row : Nat) (kept : List (List RowPick)) : Dev :=
  { Dev.reset with
    now := 1000
    queues := [(5, queueOf { descOf (if gambit then 17 else 16) (smpJob gambit).body with table := (smpJob gambit).table })]
    extents := [⟨0x100000, 0x200000, 1, 1⟩]
    smp := [(15, { slots := [(0, slotWith there)], cmds := [smpCmd gambit row kept] })] }

/-- One row's choice: token 2 alone. -/
def onePick : RowPick := ⟨[(2, 0x3F800000)], false⟩

/-- A sampler without a command; a command that is over, one with a message of the wrong size, one whose row has not come, a SAMPLE whose
row can be written and one whose output is retired, and a GAMBIT's first row and its second with a draft that cannot be read. -/
theorem witness_SamplerEvents_rows :
    (Dev.reset.alive = true ∧ Dev.reset.smpRunning 15 = none) ∧
    (let d := onSampler false true 0 []
    let c := smpCmd false 0 []
    let j := smpJob false
    d.alive = true ∧ d.smpRunning 15 = some (c, j) ∧ d.wrongMessage 15 j = none ∧ d.rowReady 15 j = true ∧ c.row < j.batch ∧
      c.kept.length < j.rowsOf c.row ∧ (d.sampleAll 15 c j (List.range j.nstream)).2 = none ∧
      (({ d with mem := { MemSys.reset with retired := [0x100] } } : Dev).sampleAll 15 c j (List.range j.nstream)).2 = some 0x100000) ∧
    (let d := onSampler false true 0 []
    let d := { d with smp := [(15, { slots := [(0, { slotWith true with msgs := [(0, [])] })], cmds := [smpCmd false 0 []] })] }
    d.wrongMessage 15 (smpJob false) = some (0, 0)) ∧
    ((onSampler false false 0 []).wrongMessage 15 (smpJob false) = none ∧ (onSampler false false 0 []).rowReady 15 (smpJob false) = false) ∧
    ((onSampler false true 1 []).smpRunning 15 = some (smpCmd false 1 [], smpJob false) ∧ (smpJob false).batch ≤ 1) ∧
    (let d := onSampler true true 0 []
    let c := smpCmd true 0 []
    let j := smpJob true
    d.smpRunning 15 = some (c, j) ∧ d.wrongMessage 15 j = none ∧ d.rowReady 15 j = true ∧ c.row < j.batch ∧
      c.kept.length < j.rowsOf c.row ∧ (d.gambitRow 15 c j (List.range j.nstream)).2.isRight = true) ∧
    (let c := smpCmd true 0 [[onePick]]
    let d := badMem 0x200000 (onSampler true true 0 [[onePick]])
    let j := smpJob true
    d.smpRunning 15 = some (c, j) ∧ d.rowReady 15 j = true ∧ c.row < j.batch ∧ c.kept.length < j.rowsOf c.row ∧
      (d.gambitRow 15 c j (List.range j.nstream)).2 = .inl 0x200000) := by
  refine ⟨?_, ?_, ?_, ?_, ?_, ?_, ?_⟩ <;> decide +kernel

/-- The record of a decision, and whether it can be written. -/
def decided (d : Dev) (c : SampleCmd) (j : SmpJob) : Dev × Option Nat :=
  let read := d.seqRecs c.ctx j c.row ((List.range (j.ndraft c.row)).map (· + 1))
  read.1.memWriteRun { ctx := c.ctx } (j.out + c.row * j.outSize) (read.2.elim (fun _ => []) (fun recs =>
    let run := gambitRun (natAt (j.entry c.row) 12 4 % 2 ^ 31 = 0) (BitVec.ofNat 64 (natAt (j.entry c.row) 0 8))
      (natAt (j.entry c.row) 8 4) 0 c.kept recs
    gambitRecord j.nstream (natAt (j.entry c.row) 8 4) c.kept run.1 run.2))

/-- Logits late and not late; a decision past the last sequence, of a SAMPLE and with rows missing; one whose draft cannot be read, whose
record cannot be written, and whose record, with histories and rollback or without, can. -/
theorem witness_SamplerEvents_decisions :
    (let d := onSampler false false 0 []
    let c := smpCmd false 0 []
    d.smpRunning 15 = some (c, smpJob false) ∧ 0 < (smpJob false).nstream ∧ c.row < (smpJob false).batch ∧
      c.kept.length < (smpJob false).rowsOf c.row ∧
      (look 0 (d.sampler 15).slots).elim (decide (c.since + 100000000 ≤ d.now))
        (fun x => !x.complete && decide (max c.since x.lastMsg + x.timeout ≤ d.now)) = true ∧
      (look 15 (d.sampler 15).slots).elim (decide (c.since + 100000000 ≤ d.now))
        (fun x => !x.complete && decide (max c.since x.lastMsg + x.timeout ≤ d.now)) = false) ∧
    (let d := onSampler true true 1 []
    d.smpRunning 15 = some (smpCmd true 1 [], smpJob true) ∧ (smpJob true).batch ≤ 1) ∧
    (let kept := [[onePick], [onePick]]
    let d := onSampler true true 0 kept
    let c := smpCmd true 0 kept
    let j := smpJob true
    d.smpRunning 15 = some (c, j) ∧ c.row < j.batch ∧ j.rowsOf c.row ≤ c.kept.length ∧
      (d.seqRecs c.ctx j c.row ((List.range (j.ndraft c.row)).map (· + 1))).2.isRight = true ∧
      ((badMem 0x200000 d).seqRecs c.ctx j c.row ((List.range (j.ndraft c.row)).map (· + 1))).2 = .inl 0x200000 ∧
      (decided d c j).2 = none ∧ (decided { d with mem := { MemSys.reset with retired := [0x100] } } c j).2 = some 0x100000 ∧
      j.histEn = false ∧ j.rollback = false) ∧
    (let j := { smpJob true with body := bytesWith 48 [(1, 1), (3, 6), (6, 1), (26, 0x10)] }
    j.histEn = true ∧ j.rollback = true ∧ ((onSampler true true 0 []).setHistories 1 j 0 [(0, 2)]).2 = none ∧
      (({ onSampler true true 0 [] with mem := { MemSys.reset with retired := [0] } } : Dev).setHistories 1 j 0 [(0, 2)]).2 = some 0) := by
  refine ⟨?_, ?_, ?_, ?_⟩ <;> decide +kernel

/-! ### Witnesses: updates, audits and collectives -/

/-- A tensor of 4,096 elements in FP32 places. -/
def tensor1 : List Byte := bytesWith 64 [(0x01, 0x10), (0x0A, 0x10), (0x12, 0x20), (0x2A, 0x30), (0x32, 0x40), (0x3A, 1)]

/-- An update with unit 0 of the tensor to do at engine 15, for STEP `step`. -/
def updCmd1 (step : Nat) : UpdCmd :=
  { audit := false, q := 5, n := 0, ctx := 1, table := tensor1, prog := [], block := false, params := [], flag := 0, step := step,
    todo := [(15, 0, 0)], nonfinite := false, status := 0, result := 0 }

/-- A unit that shows STEP 0 already, and one to be brought to STEP 1. -/
theorem witness_UpdatesAndAudits_units : ∀ step ∈ [0, 1],
    let c := updCmd1 step
    let s := { Dev.reset with upd := { Upd.reset with cmds := [c] } }
    let x := tensorOf c.table 0
    let d := s.updCmd c (fun y => { y with todo := y.todo.erase (15, 0, 0) })
    let e := (d.memCheckRead { ctx := c.ctx } (x.recordAt 0) 32).1
    s.alive = true ∧ engineWork 15 0 s.upd.cmds = some (0, c, (15, 0, 0)) ∧
      (d.memCheckRead { ctx := c.ctx } (x.recordAt 0) 32).2 = none ∧ e.memNat (x.recordAt 0) 4 = 0 ∧
      (e.chunksFail c x ((0 - x.units.1) * unitSize) 0 (chunksOf (x.unitElems 0))).2 = none := by
  decide +kernel

/-- An engine without a unit; the unit whose record, and whose state, cannot be read; writes of nothing and of a record, and the record
on a retired page. -/
theorem witness_UpdatesAndAudits_failures :
    (Dev.reset.alive = true ∧ engineWork 15 0 Dev.reset.upd.cmds = none) ∧
    (let c := updCmd1 1
    let x := tensorOf c.table 0
    ((badMem (x.recordAt 0) Dev.reset).memCheckRead { ctx := c.ctx } (x.recordAt 0) 32).2.isSome = true ∧
      ((badMem 0x200000 Dev.reset).chunksFail c x 0 0 (chunksOf (x.unitElems 0))).2.isSome = true ∧
      (Dev.reset.updateChunks 15 c x 0 []).2 = none ∧ (Dev.reset.writeUnitRecord 1 x 0 1).2 = none ∧
      (({ Dev.reset with mem := { MemSys.reset with retired := [x.recordAt 0 / 4096] } } : Dev).writeUnitRecord 1 x 0 1).2.isSome = true ∧
      (({ Dev.reset with mem := { MemSys.reset with retired := [0x100] } } : Dev).updateChunks 15 c x 0 [(0, 1)]).2.isSome = true) := by
  refine ⟨?_, ?_⟩ <;> decide +kernel

/-- An audit of job 4 between devices 0 and 7. -/
def audit1 : Audit :=
  { q := 5, n := 0, ctx := 1, table := tensor1, peers := [0, 7], rep := 0, step := 1, report := 0, job := 4, start := 0, hashes := [],
    seen := [], done := [], refetch := [], entries := 0, failed := false, told := true }

theorem witness_UpdatesAndAudits_audits :
    (let d := { Dev.reset with now := 10 ^ 12, upd := { Upd.reset with audit := some audit1 } }
    d.alive = true ∧ d.upd.audit = some audit1 ∧ audit1.job = 4 ∧ audit1.job ≠ 4095 ∧ audit1.peers.findIdx? (fun p => p = 7) = some 1 ∧
      audit1.peers.findIdx? (fun p => p = 9) = none ∧
      audit1.start + d.fld R.UPD_CFG F.UPD_CFG_AUDIT_TIMEOUT * 1000000 ≤ d.now) ∧
    (let d := { Dev.reset with upd := { Upd.reset with audit := some audit1 } }
    ¬ (audit1.start + d.fld R.UPD_CFG F.UPD_CFG_AUDIT_TIMEOUT * 1000000 ≤ d.now)) ∧
    Dev.reset.upd.audit = none := by
  decide +kernel

/-- An accumulate behind an earlier one of its order; one in a quiet period, one in a purge, one in a share, reducible or not; a plain
accumulate that is allowed and one that is not. -/
theorem witness_ContributionPackets :
    (let p := { pkt 5 256 with job := 4, addr := 0x4000000000 }
    let quiet := { inColl 0 (coll1 1 0 0) with quiet := [(4, 1, false)] }
    quiet.alive = true ∧ quiet.meshMay (accIs p) = true ∧ (quiet.meshTaken (accIs p)).quietNow p.job = true ∧
      (let d := { inColl 0 (coll1 1 0 0) with noc := { Noc.reset with purging := [(4, false)] } }.meshTaken (accIs p)
      d.quietNow p.job = false ∧ d.purgingNow p.job = true) ∧
      (let d := (inColl 0 (coll1 1 0 0)).meshTaken (accIs p)
      d.quietNow p.job = false ∧ d.purgingNow p.job = false) ∧
      (inColl 0 (coll1 1 0 0)).collAt p.job p.addr = some (3, coll1 1 0 0) ∧
      (let first := { p with payload := [1] }
      ({ Dev.reset with noc := { Noc.reset with flight := [⟨first, 256, none⟩, ⟨p, 256, none⟩] } } : Dev).meshMay (accIs p) = false)) ∧
    (let p := { pkt 5 256 with job := 4, addr := 0x4000000000, len := 1, payload := [0, 0, 0x80, 0x3F] }
    let s := { Dev.reset with jobs := [(4, ⟨1, 1, 0, false, 0⟩)], extents := [⟨0x4000000000, 0x100000, 1, 1⟩] }
    let d := s.meshTaken (accIs p)
    s.meshMay (accIs p) = true ∧ d.quietNow p.job = false ∧ d.purgingNow p.job = false ∧ s.collAt p.job p.addr = none ∧ d.plainOk p = true) ∧
    (let p := pkt 5 255
    let d := Dev.reset.meshTaken (accIs p)
    Dev.reset.meshMay (accIs p) = true ∧ d.quietNow p.job = false ∧ d.purgingNow p.job = false ∧ Dev.reset.collAt p.job p.addr = none ∧
      d.plainOk p = false) := by
  refine ⟨?_, ?_, ?_⟩ <;> decide +kernel

/-- No collective; the deadline D1, half a millisecond times 4 after T_m, due and not due; D2 due and not due. -/
theorem witness_CollectiveEvents_deadlines :
    (Dev.reset.alive = true ∧ Dev.reset.coll 3 = none) ∧
    (let x := { coll1 1 0 0 with tm := some 0 }
    (inColl 2000000 x).alive = true ∧ (inColl 2000000 x).coll 3 = some x ∧ x.owning = true ∧ x.d2 = none ∧ 0 + x.desc.dline ≤ 2000000 ∧
      ¬ (0 + x.desc.dline ≤ (inColl 0 x).now)) ∧
    (let x := { coll1 1 0 0 with d2 := some 5 }
    (inColl 5 x).coll 3 = some x ∧ x.owning = true ∧ 5 ≤ (inColl 5 x).now ∧ (inColl 4 x).now < 5) := by
  decide +kernel

/-- A mesh that carries packet `p` while every link of router 0 to 15 to the north or the east has failed. -/
def barring (p : NocPkt) (d : Dev) : Dev :=
  let dead := (List.range 16).flatMap (fun n => [(n, 0), (n, 1)])
  { d with noc := { d.noc with flight := [⟨p, targetRouter p, none⟩], failed := dead } }

/-- A check packet that may pass, one behind an earlier, one in a quiet period, one of an excluded contributor and one that is kept; a
summary awaited, of another level and not awaited; a block to land and one not. -/
theorem witness_CollectiveEvents_messages :
    (let x := coll1 1 0 0
    let mine := fun (m : MeshPkt) => m.pkt.dst = 322 && m.pkt.job = x.job && m.pkt.tag = 1 + 4096 + x.desc.step % 4 * 16384
    let d := inColl 0 x
    let p := { pkt 5 322 with job := 4, tag := 1 + 4096 + x.desc.step % 4 * 16384 }
    d.alive = true ∧ d.coll 3 = some x ∧ d.meshMay mine = true ∧ (d.meshTaken mine).quietNow x.job = false ∧
      (({ d with quiet := [(4, 1, false)] } : Dev).meshTaken mine).quietNow x.job = true ∧
      (barring p d).meshMay mine = false ∧
      (x.contrib 1).excluded = false ∧ x.goneDevs.contains (x.desc.sourceDev 1 false) = false ∧
      ({ x with goneDevs := [x.desc.sourceDev 1 false] } : Collective).goneDevs.contains (x.desc.sourceDev 1 false) = true) ∧
    (let x := coll1 1 0 0
    x.gone.contains 1 = false ∧ 1 < x.desc.nmemb ∧ x.desc.reduces = true ∧ x.statusDone = false ∧ ¬ (4095 < x.desc.nmemb) ∧
      x.desc.level ≠ 9 ∧ x.red = true) ∧
    (let x := { coll1 2 0 0 with gather := [(1, 0)] }
    (inColl 0 x).coll 3 = some x ∧ x.gather.contains (1, 0) = true ∧ x.refetch = [] ∧ x.gather.contains (1, 1) = false) := by
  refine ⟨?_, ?_, ?_⟩ <;> decide +kernel

/-- A request to a backup, one whose source cannot be read, one from no member and one without a backup here; a quiet period over and not. -/
theorem witness_CollectiveEvents_requests :
    (let x := coll1 1 0 32
    let d := (inColl 0 x).noticeTaken x.job 3 (fun p => p.srcdev = 7 && p.addr = x.desc.step && p.arg / 256 = 0)
    (inColl 0 x).alive = true ∧ x.check = false ∧ x.desc.members.find? (fun m => x.desc.primary m = 7) = some 1 ∧
      x.desc.members.find? (fun m => x.desc.primary m = 9) = none ∧
      d.col.open_.find? (fun e => e.2.job = 4 && e.2.desc.isBackup && e.2.desc.step = x.desc.step && e.2.desc.self = 0) = some (3, x) ∧
      d.col.open_.find? (fun e => e.2.job = 4 && e.2.desc.isBackup && e.2.desc.step = x.desc.step && e.2.desc.self = 5) = none ∧
      (d.memCheckRead { ctx := x.ctx } x.desc.src x.desc.srcLen).2 = none ∧
      ((badMem x.desc.src d).memCheckRead { ctx := x.ctx } x.desc.src x.desc.srcLen).2.isSome = true) ∧
    (let d := { inColl 5 (coll1 1 0 0) with quiet := [(4, 5, true), (5, 6, true)] }
    look 4 d.quiet = some (5, true) ∧ 5 ≤ d.now ∧ look 5 d.quiet = some (6, true) ∧ d.now < 6) := by
  refine ⟨?_, ?_⟩ <;> decide +kernel

/-- A time-out before its time, with a member silent, with all heard, and of a share whose end ends the collective. -/
theorem witness_CollectiveEvents_timeout :
    (let x := { coll1 1 1 0 with finished := true, sums := [(1, ⟨0, [], []⟩)] }
    let d := inColl 1000000000 x
    d.alive = true ∧ d.coll 3 = some x ∧ x.start + x.desc.timeout ≤ d.now ∧ x.statusDone = false ∧ x.desc.reduces = true ∧
      x.owning = false ∧ x.silent ≠ [] ∧ ¬ (x.start + x.desc.timeout ≤ (inColl 999999999 x).now) ∧
      ({ x with sums := [(0, ⟨0, [], []⟩), (1, ⟨0, [], []⟩)] } : Collective).silent = []) ∧
    (let x := coll1 1 0 0
    let d := inColl 1000000000 x
    (x.owning && x.tm.isNone) = true ∧
      (((x.incomplete.foldl (fun d c => d.exclude 3 c) d).shareCheck 3).coll 3).isSome = true) := by
  refine ⟨?_, ?_⟩ <;> decide +kernel

/-! ### Witnesses: links and remote operations -/

/-- The device with the fields of a port's status set: state, mode, need, width and lanes. -/
def onPort (k : Nat) (es : List (Nat × Field × Nat)) : Dev :=
  (es ++ [(R.LNK_PORT_STAT k, F.LNK_PORT_STAT_NEED, 1)]).foldl (fun (d : Dev) (e : Nat × Field × Nat) => d.setFld e.1 e.2.1 e.2.2)
    { Dev.reset with now := 5000 }

/-- A Bamat port that is UP at full width. -/
def portUp (k mode : Nat) : Dev :=
  onPort k [(R.LNK_PORT_STAT k, F.LNK_PORT_STAT_MODE, mode), (R.LNK_PORT_STAT k, F.LNK_PORT_STAT_STATE, 2),
    (R.LNK_PORT_STAT k, F.LNK_PORT_STAT_WIDTH, 8), (R.LNK_PORT_STAT k, F.LNK_PORT_STAT_LANES, 255)]

/-- An attempt that is due, with eight, three and no good lanes, the third failure, and one that is not due; identifications at a trained
port that match, that do not, and with no version in common. -/
theorem witness_PortsAndFlits_training :
    (let d := onPort 31 [(R.LNK_PORT_STAT 31, F.LNK_PORT_STAT_MODE, 1), (R.LNK_PORT_STAT 31, F.LNK_PORT_STAT_STATE, 1)]
    d.alive = true ∧ d.attemptDue 31 = true ∧ d.attemptDue 30 = false ∧ trainLanes (d.portMode 31) 0xFF = (0xFF, true) ∧
      trainLanes (d.portMode 31) 0x07 = (0x07, false) ∧ d.portState 31 ≠ 4 ∧ d.portState 30 ≠ 1) ∧
    (let d := onPort 0 [(R.LNK_PORT_STAT 0, F.LNK_PORT_STAT_MODE, 1), (R.LNK_PORT_STAT 0, F.LNK_PORT_STAT_STATE, 1),
      (R.LNK_PORT_STAT 0, F.LNK_PORT_STAT_WIDTH, 8), (R.LNK_CFG, F.LNK_CFG_VERS, 2)]
    d.portState 0 = 1 ∧ 0 < d.portWidth 0 ∧ d.portNeed 0 ≠ 0 ∧ d.commonVersion 6 = some 1 ∧ d.commonVersion 4 = none ∧
      tePeer (d.portEntry 0) = 0 ∧ tePeerPort (d.portEntry 0) = 0 ∧ topoId d.lnk.topo = 0) := by
  decide +kernel

/-- A usable Bamat port with a DATA flit that is next, an IDLE one, one beyond its sequence and a bad one; a port that is not one. -/
theorem witness_PortsAndFlits_flits :
    (let d := portUp 31 1
    d.alive = true ∧ d.portMode 31 = 1 ∧ d.portUsable 31 = true ∧ d.portUsable 30 = false) ∧
    (let f := dataFlit 1 0 0 false []
    flitGood f = true ∧ bits f.link.toNat 1 0 = 1 ∧ (bits f.link.toNat 18 5 + 2 ^ 14 - ((portUp 31 1).portSt 31).rxSeq) % 2 ^ 14 = 0 ∧
      flitGood { f with crc := 0 } = false) ∧
    (let f := dataFlit 1 5 0 false []
    flitGood f = true ∧ (bits f.link.toNat 18 5 + 2 ^ 14 - ((portUp 31 1).portSt 31).rxSeq) % 2 ^ 14 = 5) ∧
    (let f := idleFlit 0 false none
    flitGood f = true ∧ bits f.link.toNat 1 0 = 0 ∧ bits (linkWord 2 0 0 0 false).toNat 1 0 = 2) := by
  refine ⟨?_, ?_, ?_, ?_⟩ <;> decide +kernel

/-- Ethernet ports; a flit unacknowledged for 2 us and for less; a lane lost at a port with eight lanes, at one with four, at an Ethernet
port and at one that is not up. -/
theorem witness_PortsAndFlits_frames :
    ((portUp 0 2).portMode 0 = 2 ∧ (portUp 1 3).portMode 1 = 3 ∧ (portUp 1 1).portMode 1 = 1) ∧
    (let f : Flit := ⟨0, [], 0⟩
    let d := { portUp 3 1 with lnk := { Lnk.reset with ports := [(3, { PortSt.fresh with retry := [(f, 0)] })] } }
    (d.portSt 3).retry ≠ [] ∧ (d.portSt 3).ackAt + 2000 ≤ d.now ∧ (d.portSt 4).retry = [] ∧
      ({ d with now := 1999 } : Dev).now < (d.portSt 3).ackAt + 2000) ∧
    (let d := portUp 31 1
    let e := (d.satFld (R.LNK_PORT_ERR 31) F.LNK_PORT_ERR_LANE_DROPS 1).setFld (R.LNK_PORT_STAT 31) F.LNK_PORT_STAT_LANES
      (d.fld (R.LNK_PORT_STAT 31) F.LNK_PORT_STAT_LANES - 2 ^ 7)
    d.portState 31 = 2 ∧ (d.fld (R.LNK_PORT_STAT 31) F.LNK_PORT_STAT_LANES).testBit 7 = true ∧ 4 ≤ e.portWidth 31 - 1 ∧
      e.portMode 31 = 1 ∧ (d.setFld (R.LNK_PORT_STAT 31) F.LNK_PORT_STAT_WIDTH 4).portWidth 31 - 1 < 4 ∧ d.portState 30 ≠ 2 ∧
      d.portState 30 ≠ 3) := by
  refine ⟨?_, ?_, ?_⟩ <;> decide +kernel

/-- Device 0, active and ready, with job 4 of context 1, which owns a mebibyte from 0x100000. -/
def remoteDev : Dev :=
  { (Dev.reset.setFld R.LNK_CFG F.LNK_CFG_SELF 0).setFld R.MGT_PERSONA F.MGT_PERSONA_CFG_STATE 2 |>.setFld R.MGT_FW_STAT
      F.MGT_FW_STAT_STATE 2 with
    boot := { Boot.reset with stage := 7 }
    jobs := [(4, ⟨1, 1, 0, false, 0⟩)]
    extents := [⟨0x100000, 0x100000, 1, 1⟩] }

/-- A WRITE and a READ inside the context, and outside it; a WRITE to the collective endpoint; a READ of a granule that cannot be read and
one while the device is not READY; an object that may be signalled and one that may not; every other operation at its device. -/
theorem witness_RemoteOperationsAndTempo_operations :
    (let p := { bpkt 1 6 with job := 4, addr := 0x1FFFF8, payload := List.replicate 8 1 }
    let d := remoteDev.bamatHandled p
    remoteDev.alive = true ∧ p.dstdev = remoteDev.selfDev ∧ remoteDev.bamatWaits p = false ∧ opVcOk p = true ∧ p.dstep ≠ 322 ∧
      p.dstep ≠ 324 ∧ d.jobCtx 4 = 1 ∧ d.bamatStatus p.job (!d.owns 1 p.addr p.payload.length) = none ∧
      d.bamatStatus p.job (!d.owns 1 0x1FFFF9 p.payload.length) = some 3 ∧ d.bamatStatus 4 false = none ∧ d.bamatStatus 5 false = some 2) ∧
    (let p := { bpkt 2 0 with job := 4, addr := 0x100000, arg := 1024 }
    let d := remoteDev.bamatHandled p
    opVcOk p = true ∧ (decide (p.arg < 8) || decide (1024 < p.arg) || !d.owns 1 p.addr p.arg) = false ∧
      (d.memCheckRead { ctx := 1 } p.addr p.arg).2 = none ∧ ((badMem 0x100000 d).memCheckRead { ctx := 1 } p.addr p.arg).2.isSome = true ∧
      ({ d with boot := { d.boot with stage := 6 } } : Dev).bamatStatus 4 false = some 8) ∧
    (let d := { remoteDev.setReg (R.SYN_OBJ 9) (BitVec.ofNat 64 (2 ^ 32 + 2 ^ 42 + 4 * 2 ^ 44)) with syncJobs := [9] }
    d.agentMay (.port 0 4) 9 .signal = true ∧ d.agentMay (.port 0 4) 9 .sreset = true ∧ d.agentMay (.port 0 4) 8 .signal = false) ∧
    (∀ p ∈ [{ bpkt 3 0 with dstep := 322 }, bpkt 4 0, bpkt 6 0, bpkt 7 0, { bpkt 11 0 with dstep := 255 },
      { bpkt 10 7 with arg := 5 }], p.dstdev = remoteDev.selfDev ∧ opVcOk p = true ∧ remoteDev.bamatWaits p = false) := by
  refine ⟨?_, ?_, ?_, ?_⟩ <;> decide +kernel

/-- A notice that changes a segment and one that does not; a port to the parent, one that is none and one that is not up. -/
theorem witness_RemoteOperationsAndTempo_tempo :
    (Dev.reset.segBroken 4 7 = false ∧ Dev.reset.alive = true) ∧
    (let d := (portUp 0 1).setFld R.LNK_TEMPO_STAT F.LNK_TEMPO_STAT_PARENT 0
    let e := (d.sendTime 0).updPort 0 (fun p => { p with delay := 5, offset := -5 })
    d.alive = true ∧ d.portUsable 0 = true ∧ d.portMode 0 = 1 ∧ d.portUsable 1 = false ∧ e.ownMaster = false ∧
      e.fld R.LNK_TEMPO_STAT F.LNK_TEMPO_STAT_PARENT = 0 ∧ e.fld R.LNK_TEMPO_STAT F.LNK_TEMPO_STAT_PARENT ≠ 31) := by
  decide +kernel

/-! ### Witnesses: the host -/

/-- The host's link up, with function 63 there and its admin queue enabled. -/
def withVfs : Dev :=
  { Dev.reset.setFld (R.HIF_ADMQ_CFG 63) F.HIF_ADMQ_CFG_ENABLE 1 with host := { HostSide.reset with linkUp := true, bme := [63, 0], vfs := 63 } }

/-- A doorbell page with a queue and one without, of a function that is there, that is not, and behind a link that is down; whole writes
and others; admin queues on and off; a TAIL and a HEAD that keep the ring legal and that do not. -/
theorem witness_Doorbells :
    (let d := { withVfs with queues := [(5, { queueOf (descOf 1 []) with fn := 63, loc := 3 })] }
    d.alive = true ∧ d.host.linkUp = true ∧ d.fnExists 63 = true ∧ d.fnExists 64 = false ∧ Dev.reset.host.linkUp = false ∧
      (d.hostPosts 63 [(0x1000, [1])]).pageQueue 63 3 = some 5 ∧ d.pageQueue 63 (0x3008 / 4096) = some 5 ∧ d.pageQueue 63 2 = none ∧
      0x3000 % 4096 = 0 ∧ 0x3008 % 4096 = 8 ∧ (0x3010 % 4096 ≠ 0 ∧ 0x3010 % 4096 ≠ 8)) ∧
    ((0xFFFFFFFF : Word).toNat < 2 ^ 32 ∧ ¬ (0x100000000 : Word).toNat < 2 ^ 32) ∧
    ((withVfs.hostPosts 63 []).adminOn 63 = true ∧ withVfs.adminOn 63 = true ∧ withVfs.adminOn 62 = false) ∧
    (let x := queueOf (descOf 1 [])
    (queued 1 []).dev.queue 5 = some x ∧ tailOk x 2 = true ∧ tailOk x 18 = false ∧ headOk x 0 = true ∧ headOk x 1 = false) := by
  refine ⟨?_, ?_, ?_, ?_⟩ <;> decide +kernel

/-- A link up and one down that may come up; a link at 64 GT/s and x8, and a narrow one; a mastering function and one that is not; an
admin queue on and off with a size kept and set; a function that is not there; heartbeats late and over. -/
theorem witness_HostLinkAndHeartbeat :
    (withVfs.alive = true ∧ withVfs.host.linkUp = true ∧ withVfs.host.bme.contains 63 = true ∧ withVfs.host.bme.contains 62 = false) ∧
    (Dev.reset.host.linkUp = false ∧ Dev.reset.pins.dark = false ∧ (3 ≤ 3 ∧ 3 ≤ 6 ∧ ¬ (3 = 6 ∧ 16 = 8)) ∧ ¬ ¬ (6 = 6 ∧ 8 = 8) ∧ 7 < 8 ∧
      (8 < 12 ∧ 12 ≠ 16)) ∧
    (withVfs.adminOn 63 = true ∧ (0x108 : Word).toNat.testBit 8 = true ∧ (8 : Word).toNat.testBit 8 = false ∧ withVfs.adminOn 62 = false ∧
      ({ withVfs with host := { withVfs.host with vfs := 5 } } : Dev).fnExists 63 = false ∧ withVfs.fnExists 63 = true) ∧
    (let d := { withVfs.setFld (R.HIF_FN_STAT 63) F.HIF_FN_STAT_HB_ARMED 1 with now := 1000000000 }
    d.fnExists 63 = true ∧ d.hbArmed 63 = true ∧ (d.fn 63).hbLate = false ∧ (d.fn 63).hbLast + 1000000000 ≤ d.now) := by
  refine ⟨?_, ?_, ?_, ?_⟩ <;> decide +kernel

/-- A queue that may fetch with a host that answers and with one that does not, and one that may not; a running COPY from the host and a
NOP; a work and an admin descriptor past their time, and one before it. -/
theorem witness_FetchAndTimeout :
    (∀ up ∈ [true, false],
      let x := { queueOf (descOf 1 []) with tail := 2, sq := 0x2000 }
      let d := { Dev.reset with queues := [(5, x)], host := { HostSide.reset with linkUp := up, bme := [0] } }
      d.alive = true ∧ d.queue 5 = some x ∧ x.mayFetch = true ∧ d.queue 4 = none ∧
        (d.hostRead x.fn (x.sq + x.fetch % 2 ^ x.log2 * 64) 64).isSome = up) ∧
    (queueOf (descOf 1 [])).mayFetch = false ∧
    ((copying 0 true id).desc 5 0 = some (copyDesc 0 true) ∧ (copyDesc 0 true).typ = 12 ∧ (copyDesc 0 true).phase = .running ∧
      ((copyDesc 0 true).body 0x18 1).testBit 0 = true ∧ (copying 0 true id).desc 5 1 = none ∧ (started 1 []).typ ≠ 12) ∧
    (∀ q ∈ [5, 4159],
      let y := { started 1 [] with raw := [1, 0, 0, 0, 0, 0, 0, 0, 1] }
      let d := { Dev.reset with now := 1000, queues := [(q, queueOf y)] }
      isAdmin q = decide (q = 4159) ∧ d.desc q 0 = some y ∧ y.phase = .running ∧ y.expired = false ∧ y.timeoutUs ≠ 0 ∧
        y.start + y.timeoutUs * 1000 ≤ d.now ∧ ¬ (y.start + y.timeoutUs * 1000 ≤ ({ d with now := 999 } : Dev).now)) := by
  refine ⟨?_, ?_, ?_, ?_⟩ <;> decide +kernel

/-- The PF's queue 5 and context 1 of the last VF, and resigns of them, of what is not there, and of a link that is down. -/
theorem witness_ResignsAndResets :
    let d := { withVfs with queues := [(5, queueOf (descOf 1 []))], ctxs := [(1, ⟨.active, 63, 1, 0, 0, 0, 0, 0, 0, 0, 0⟩)] }
    d.alive = true ∧ d.host.linkUp = true ∧ d.fnExists 0 = true ∧ d.fnExists 63 = true ∧ d.resignQueueOf 0 5 = some 5 ∧
      d.resignQueueOf 0 4 = none ∧ d.resignQueueOf 63 5 = none ∧ (look 1 d.ctxs).any (fun c => c.fn = 63) = true ∧
      Dev.reset.host.linkUp = false := by
  decide +kernel

/-- BAR0 places of the PF and of a VF: outside its BAR0, whole, half and misplaced, at an admin doorbell; each register of a function's
page; a mailbox doorbell; a register, a place without one, and a value that is refused. -/
theorem witness_RegisterAccess :
    (withVfs.alive = true ∧ withVfs.host.linkUp = true ∧ withVfs.fnExists 0 = true ∧ withVfs.fnExists 63 = true) ∧
    (bar0Place 63 0x100000 = none ∧ bar0Place 0 0x3FFFFF8 = some 0x3FFFFF8 ∧ bar0Place 63 0xFFC = some 0x4FFFC ∧ 0x4FFFC % 8 ≠ 0 ∧
      0x4FFFC % 4 = 0 ∧ bar0Place 63 1 = some 0x4F001 ∧ 0x4F001 % 4 ≠ 0) ∧
    (∀ r ∈ [0x08, 0x20, 0x28, 0x30, 0x38, 0x40, 0x10], bar0Place 63 r = some (0x4F000 + r) ∧ (0x10000 ≤ 0x4F000 + r ∧ 0x4F000 + r < 0x50000) ∧
      (0x4F000 + r - 0x10000) / 0x1000 = 63 ∧ (0x4F000 + r) % 0x1000 = r ∧ (0x4F000 + r) % 8 = 0) ∧
    (R.HIF_ADMQ_TAIL 63 = 0x4F028 ∧ R.HIF_ADMQ_HEAD 63 = 0x4F030) ∧
    (0x101010 ≤ 0x1010F0 ∧ 0x1010F0 < 0x101110 ∧ 0x1010F0 % 32 = 16) ∧
    (withVfs.refuses R.COL_CFG 0 = false ∧ (regRow R.COL_CFG).isSome = true ∧ regRow 0x3FFFFF8 = none) := by
  refine ⟨?_, ?_, ?_, ?_, ?_, ?_⟩ <;> decide +kernel

/-! ### Witnesses: the firmware's messages -/

/-- A doorbell with the link down, up, at a mailbox that is BUSY and at one that is not, of a whole and of a partial write; a new window
of the URGENT share and a share that is spent; a full trace; a timer that is due. -/
theorem witness_FirmwareEvents :
    (Dev.reset.alive = true ∧ (Dev.reset.hostPosts 0 [(0x1000, [1])]).host.linkUp = false ∧ (withVfs.hostPosts 0 []).host.linkUp = true ∧
      (withVfs.hostPosts 0 []).fld (R.MGT_MB_STAT 7) F.MGT_MB_STAT_STATE ≠ 1 ∧
      ((withVfs.setFld (R.MGT_MB_STAT 7) F.MGT_MB_STAT_STATE 1).hostPosts 0 []).fld (R.MGT_MB_STAT 7) F.MGT_MB_STAT_STATE = 1) ∧
    (let d := { Dev.reset with now := 40000000 }
    d.alive = true ∧ d.fw.urgentWindow < d.now / 40000000) ∧
    (let d := { Dev.reset.setFld R.MGT_FW_STAT F.MGT_FW_STAT_STATE 2 with fw := { Fw.reset with urgentNs := 2560000000 } }
    2560000000 ≤ d.urgentAccount.fw.urgentNs ∧ d.urgentAccount.fld R.MGT_SCHED F.MGT_SCHED_SPENT ≠ 1 ∧ d.urgentAccount.fwRuns = true) ∧
    (let d := ((Dev.reset.setFld R.MGT_FW_STAT F.MGT_FW_STAT_STATE 2).setFld R.MGT_TRACE F.MGT_TRACE_FULL 1).setFld R.MGT_TRACE
      F.MGT_TRACE_ENABLE 1
    d.fld R.MGT_TRACE F.MGT_TRACE_FULL = 1 ∧ d.fld R.MGT_TRACE F.MGT_TRACE_ENABLE = 1 ∧ d.fwRuns = true) ∧
    (let d := { Dev.reset with now := 10, timers := [(3, ⟨true, 100, 10, 1, 10⟩)] }
    (d.timer 3).enable = true ∧ (d.timer 3).next ≤ d.now ∧ 0 < (d.timer 3).period) := by
  refine ⟨?_, ?_, ?_, ?_, ?_⟩ <;> decide +kernel

/-- A mailbox with no such message; requests of every length and opcode of the schedule, at the ends of the ranges and beyond them. -/
theorem witness_ServiceMessages_schedule :
    ((∀ r, Dev.reset.serves 1 r → r.opcode ≠ 0x0402) ∧ (serving id 0x0402 [1]).dev.serves 1 (req 0x0402 [1])) ∧
    (∀ body ∈ ([[9, 0], [0xE9, 3]] : List (List Byte)), (req 0x0050 body).body.length = 2 ∧
      (decide ((req 0x0050 body).fld 0 2 < 10) || decide (1000 < (req 0x0050 body).fld 0 2)) = true ∧
      (serving id 0x0050 (body ++ body)).dev.serves 1 (req 0x0050 (body ++ body))) ∧
    (∀ op ∈ [0x0001, 0x0101, 0x0402], (serving id op []).dev.serves 1 (req op [])) ∧
    (∀ body ∈ ([[10, 0], [0xE8, 3]] : List (List Byte)), ∀ op ∈ [0x0050, 0x0302], (serving id op body).dev.serves 1 (req op body) ∧
      body.length = 2 ∧ 10 ≤ (req op body).fld 0 2 ∧ (req op body).fld 0 2 ≤ 1000) ∧
    (∀ e ∈ ([(0x0051, 2, 3), (0x0301, 7, 8)] : List (Nat × Nat × Nat)),
      let body : List Byte := [5, 0, BitVec.ofNat 8 e.2.1]
      let s := serving (fun d => { d with queues := [(5, queueOf (descOf 1 []))] }) e.1 body
      s.dev.serves 1 (req e.1 body) ∧ (req e.1 body).fld 0 2 = 5 ∧ (s.dev.queue 5).isSome = true ∧ (req e.1 body).fld 2 1 < e.2.2) := by
  refine ⟨⟨fun r h => ?_, ?_⟩, ?_, ?_, ?_, ?_⟩
  · have h := h.2.2.2
    have e : (Dev.reset.mbox 1).req = none := by decide +kernel
    rw [e] at h; cases h
  all_goals decide +kernel

/-- TRACE_CFG, TIMER_CFG on and off, GPIO_CFG SET and GET; a resource that the host owns and one that it does not. -/
theorem witness_ServiceMessages_resources :
    (∀ i ∈ [0, 8, 12], Dev.reset.owner i = 2 ∨ (Dev.reset.setFld R.MGT_OWNER F.MGT_OWNER_OWNER 0).owner 0 ≠ 2) ∧
    (let r := req 0x40 (bytesWith 36 [(0, 1), (1, 1), (4, 0x3F)])
    (serving id 0x40 r.body).dev.serves 1 r ∧ r.fld 0 1 < 2 ∧ r.fld 1 1 < 2 ∧ r.fld 2 2 = 0 ∧
      ∀ j < 4, maskReserved (r.fld (4 + 8 * j) 8) = false) ∧
    (∀ on ∈ [0, 1],
      let r := req 0x71 (bytesWith 12 [(0, 3), (1, on), (2, 100), (4, 10)])
      let d := (serving (fun d => d.setFld (R.SYN_OBJ 100) F.SYN_OBJ_ALLOC 1) 0x71 r.body).dev
      d.serves 1 r ∧ r.body.length = 12 ∧ r.fld 0 1 < 4 ∧ r.fld 1 1 < 2 ∧ r.fld 2 2 < 16384 ∧ 10 ≤ r.fld 4 4 ∧ r.fld 4 4 ≤ 60000000 ∧
        d.fld (R.SYN_OBJ (r.fld 2 2)) F.SYN_OBJ_ALLOC = 1) ∧
    (let r := req 0x70 (bytesWith 8 [(0, 1), (1, 7), (2, 2), (3, 3), (4, 0xE8), (5, 3)])
    (serving id 0x70 r.body).dev.serves 1 r ∧ r.fld 0 1 = 1 ∧ r.fld 1 1 < 8 ∧ r.fld 2 1 < 3 ∧ r.fld 3 1 < 4 ∧ r.fld 4 2 ≤ 1000 ∧
      r.fld 6 2 = 0) ∧
    (let r := req 0x70 (bytesWith 8 [(0, 2)])
    (serving id 0x70 r.body).dev.serves 1 r ∧ r.fld 0 1 = 2 ∧ r.fld 2 1 < 3 ∧ r.fld 3 1 < 4 ∧ r.fld 4 2 ≤ 1000 ∧ r.fld 6 2 = 0) := by
  refine ⟨?_, ?_, ?_, ?_, ?_⟩ <;> decide +kernel

/-- A JOB_OPEN on an active device with context 1, one of another length, one of a job that is open, one with a bad field and ones of level
0 and above LEVEL_MAX; a JOB_CLOSE of an idle job and of one that is in use. -/
theorem witness_ServiceMessages_jobs :
    (let body : List Byte := [0xFF, 0x0F, 1, 0, 1, 2, 1, 0]
    let d := (serving (fun d => { d.setFld R.MGT_PERSONA F.MGT_PERSONA_CFG_STATE 2 with ctxs := [(1, ⟨.active, 0, 1, 0, 0, 0, 0, 0, 0, 0, 0⟩)] })
      0x20 body).dev
    let r := req 0x20 body
    d.serves 1 r ∧ r.major ≠ 2 ∧ r.body.length = 8 ∧ d.cfgState = 2 ∧ look (r.fld 0 2) d.jobs = none ∧ r.fld 0 2 < 4096 ∧
      (look (r.fld 2 2) d.ctxs).isSome = true ∧ r.fld 5 1 < 3 ∧ r.fld 6 1 < 2 ∧ r.fld 7 1 = 0 ∧ 1 ≤ r.fld 4 1 ∧
      r.fld 4 1 ≤ d.fld R.COL_CFG F.COL_CFG_LEVEL_MAX ∧ d.fld R.COL_CFG F.COL_CFG_LEVEL_MAX < 9 ∧
      (look (r.fld 0 2) ({ d with jobs := [(4095, ⟨1, 1, 0, false, 0⟩)] } : Dev).jobs).isSome = true ∧
      firstBad [(0, decide (4096 ≤ (req 0x20 [0, 0x10]).fld 0 2))] = some 0 ∧ (req 0x20 []).body.length ≠ 8) ∧
    (let d := (serving (fun d => { d with jobs := [(4, ⟨1, 1, 0, false, 0⟩)] }) 0x21 [4, 0]).dev
    d.serves 1 (req 0x21 [4, 0]) ∧ (look 4 d.jobs).isSome = true ∧ d.jobInUse 4 = false ∧
      ({ d with col := (inColl 0 (coll1 1 0 0)).col } : Dev).jobInUse 4 = true) := by
  decide +kernel

/-- Bodies that fail at each field, one below FREQ in repeatable mode, and one for all clusters. -/
theorem witness_ClusterFreqMax :
    (∀ op ∈ [0x0061, 0x0401], (serving id op [16, 0, 0x20, 3]).dev.serves 1 (req op [16, 0, 0x20, 3]) ∧
      16 ≤ (req op [16, 0, 0x20, 3]).fld 0 1 ∧ (req op [16, 0, 0x20, 3]).fld 0 1 ≠ 0xFF ∧ (req op [16]).body.length ≠ 4) ∧
    (((serving id 0x0061 []).dev.setFld (R.CLU_PWR_STAT 15) F.CLU_PWR_STAT_WAKE 4).cluWake 15 = 4) ∧
    (serving id 0x0061 [15, 1, 0x20, 3]).dev.serves 1 (req 0x0061 [15, 1, 0x20, 3]) ∧
    (let r := req 0x0061 [15, 0, 0x21, 3]
    (serving id 0x0061 r.body).dev.serves 1 r ∧ pointOf (r.fld 2 2) = none) ∧
    (let r := req 0x0061 [0xFF, 0, 0x20, 3]
    let d := (serving (fun d => (d.setFld R.PWR_CFG F.PWR_CFG_MODE 1).setFld R.PWR_CFG F.PWR_CFG_FREQ_MHZ 900) 0x0061 r.body).dev
    d.serves 1 r ∧ d.accepted.mode = 1 ∧ r.fld 2 2 < d.accepted.freq) ∧
    (let r := req 0x0061 [0xFF, 0, 0x20, 3]
    let d := (serving id 0x0061 r.body).dev
    d.serves 1 r ∧ (pointOf (r.fld 2 2)).isSome = true ∧ d.accepted.mode ≠ 1) := by
  refine ⟨?_, ?_, ?_, ?_, ?_, ?_⟩ <;> decide +kernel

/-- POWER_SET in both modes with both flags, and the ZN8 messages; a setting that changes nothing, and bodies that fail. -/
theorem witness_PowerMessages :
    ((req 0x60 []).body.length ≠ 80 ∧ (let r := req 0x60 (bytesWith 80 [(0, 2)]); decide (2 ≤ r.fld 0 1) = true) ∧
      (let d := Dev.reset; d.accepted.mode = 0 ∧ d.accepted.cap = 3000) ∧
      (let r := req 0x0201 [0xAF, 4]; decide (r.fld 0 2 < 1200) = true) ∧ (let r := req 0x0403 [16]; decide (16 ≤ r.fld 0 1) = true)) ∧
    (∀ mode ∈ [0, 1],
      let r := req 0x60 (bytesWith 80 [(0, mode), (1, 3), (2, 0xB8), (3, 0x0B), (4, 0x20), (5, 3), (6, 64)])
      let d := (serving id 0x60 r.body).dev
      d.serves 1 r ∧ r.body.length = 80 ∧ r.fld 0 1 < 2 ∧ r.fld 1 1 < 4 ∧ 1200 ≤ r.fld 2 2 ∧ r.fld 2 2 ≤ 3000 ∧ r.fld 8 8 = 0 ∧
        (pointOf (r.fld 4 2)).isSome = true ∧ d.aboveCeiling (r.fld 4 2) = false ∧ 64 ≤ r.fld 6 2 ∧ r.fld 6 2 ≤ 384) ∧
    (let r := req 0x0201 [0xB0, 4]
    (serving id 0x0201 r.body).dev.serves 1 r ∧ 1200 ≤ r.fld 0 2 ∧ r.fld 0 2 ≤ 3000) ∧
    (serving id 0x0202 []).dev.serves 1 (req 0x0202 []) ∧
    (let r := req 0x0403 [15]
    (serving id 0x0403 r.body).dev.serves 1 r ∧ r.fld 0 1 < 16) := by
  refine ⟨?_, ?_, ?_, ?_, ?_⟩ <;> decide +kernel

/-- A nonce; a challenge, and one after three failures; a response without a challenge, with one that has not run out, and one for FULL;
a lock in OBSERVE and in LOCKED. A response that passes needs the owner's signature, which `Config` leaves open. -/
theorem witness_AttestAndUnlock :
    (∀ op ∈ [4, 0x0102], (serving id op (bytesWith 32 [])).dev.serves 1 (req op (bytesWith 32 []))) ∧
    (let r := req 5 [1, 2, 0, 0, 0, 0, 0, 0]
    (serving id 5 r.body).dev.serves 1 r ∧ r.fld 0 1 = 1 ∧ 1 ≤ r.fld 1 1 ∧ r.fld 1 1 ≤ 2 ∧ r.fld 2 6 = 0 ∧
      ¬ 3 ≤ State.reset.trust.failures ∧ 3 ≤ ({ Trust.reset with failures := 3 } : Trust).failures) ∧
    (let r := req 5 (bytesWith 136 [(0, 2), (1, 2)])
    (serving id 5 r.body).dev.serves 1 r ∧ r.body.length = 136 ∧ r.fld 0 1 = 2 ∧ r.fld 1 1 = 2 ∧ r.fld 2 6 = 0 ∧
      respondOk State.reset.trust 0 r = false) ∧
    (let r := req 5 [3, 0, 0, 0, 0, 0, 0, 0]
    (serving id 5 r.body).dev.serves 1 r ∧ r.fld 0 1 = 3 ∧ r.fld 1 7 = 0 ∧ State.reset.trust.debug ≠ 1 ∧
      ({ Trust.reset with debug := 1, highest := 1 } : Trust).debug = 1) := by
  refine ⟨?_, ?_, ?_, ?_⟩ <;> decide +kernel

/-- The device awaits an image, with a request of `op` in mailbox 7. -/
def awaits (op : Nat) (body : List Byte) : Dev :=
  { (hosted id).dev.setFld R.MGT_FW_STAT F.MGT_FW_STAT_STATE 1 with
    boot := { Boot.reset with stage := 4 }, mboxes := [(7, { Mailbox.blank with req := some (req op body) })] }

/-- The self test at boot and a later one; loads of 256 bytes, of an impossible length, of a body of another length, of a list out of
line and of an image that cannot be read; one with the firmware running; an image that does not verify, its header being no image's
(that one verifies, `Config` leaves open). -/
theorem witness_StartUp_load :
    (Dev.reset.alive = true ∧ Dev.reset.boot.stage < 3 ∧ 3 ≤ (awaits 2 []).boot.stage) ∧
    (∀ op ∈ [2, 0x0103],
      let r := req op (bytesWith 12 [(9, 1)])
      let d := awaits op r.body
      d.alive = true ∧ d.boot.stage = 4 ∧ d.fwState = 1 ∧ (d.mbox 7).req = some r ∧ r.opcode = op ∧ r.body.length = 12 ∧
        256 ≤ r.fld 8 4 ∧ r.fld 8 4 ≤ 1835264 ∧ (d.hostRead 0 (r.fld 0 8) (r.fld 8 4)).isSome = true ∧
        ({ d with host := { d.host with linkUp := false } } : Dev).hostRead 0 (r.fld 0 8) (r.fld 8 4) = none ∧
        imageOk 256 (List.replicate 256 0) [] = false) ∧
    ((req 2 (bytesWith 12 [])).fld 8 4 < 256 ∧ (req 2 []).body.length ≠ 12 ∧ (req 2 []).body.length ≠ 24 ∧
      (let r := req 2 (bytesWith 24 [(16, 1)]); r.body.length = 24 ∧ r.fld 0x10 8 % 64 ≠ 0) ∧
      (let r := req 2 (bytesWith 24 [(16, 64)]); r.body.length = 24 ∧ r.fld 0x10 8 % 64 = 0)) ∧
    (let d := (serving id 2 []).dev
    d.fwRuns = true ∧ ¬ d.fwState = 1 ∧ (d.mbox 1).req = some (req 2 []) ∧ (d.mbox 2).req = none ∧ Dev.reset.fwRuns = false) := by
  refine ⟨?_, ?_, ?_, ?_⟩ <;> decide +kernel

/-- A boot that is late; a restart whose code has the digest of its header, one whose code has not, and the fourth in the hour; a
configuration to take up again. -/
theorem witness_StartUp_restart :
    (let d := { Dev.reset with now := 4000000000, boot := { Boot.reset with stage := 5, merged := true } }
    d.boot.readyLate = false ∧ d.boot.merged = true ∧ d.boot.tReady = 0 ∧ d.boot.stage ≠ 7 ∧ d.boot.tLoad + 4000000000 ≤ d.now) ∧
    (let d := { Dev.reset.setFld R.MGT_FW_STAT F.MGT_FW_STAT_STATE 2 with
      fw := { Fw.reset with header := List.replicate 0x60 0 ++ sm3 [1], restarts := [0] } }
    d.fwRuns = true ∧ sm3 [1] = bytesAt d.fw.header 0x60 32 ∧ sm3 [2] ≠ bytesAt d.fw.header 0x60 32 ∧
      (d.now :: d.fw.restarts.filter (fun t => decide (d.now < t + 3600000000000))).length < 3 ∧
      3 ≤ (d.now :: [0, 0, 0].filter (fun t => decide (d.now < t + 3600000000000))).length) ∧
    (let d := { Dev.reset.setFld R.MGT_PERSONA F.MGT_PERSONA_CFG_STATE 1 with fw := { Fw.reset with configNew := [1] } }
    ¬ (d.cfgState ≠ 1 ∧ d.cfgState ≠ 3) ∧ d.fw.configNew ≠ [] ∧ Dev.reset.cfgState ≠ 1 ∧ Dev.reset.cfgState ≠ 3) ∧
    (Dev.reset.fwRuns = false ∧ Dev.reset.fwState ≠ 3) := by
  refine ⟨?_, ?_, ?_, ?_⟩ <;> decide +kernel

/-- A first configuration as PREFILL, one read back, a field found changed, a DUMP of the owners. -/
theorem witness_ConfigureAndDump :
    (let r := req 0x10 (bytesWith 624 [(0, 1)])
    let d := (serving (fun d => { d with boot := { Boot.reset with stage := 5 } }) 0x10 r.body).dev
    d.serves 1 r ∧ r.body.length = configLen r.major r.minor ∧ configFieldBad r.body r.major r.minor (!d.fw.configured) = none ∧
      cfgFlag r.body 4 = false ∧ d.boot.stage ≠ 8 ∧ d.stopState = 0 ∧ d.ctxs = [] ∧ d.jobs = [] ∧ d.cfgState = 0) ∧
    (let d := (serving (fun d => { d with fw := { d.fw with config := [1] } }) 0x11 []).dev
    d.serves 1 (req 0x11 []) ∧ d.fw.config ≠ []) ∧
    (let d := (serving id 1 []).dev
    d.serves 1 (req 1 []) ∧ firmwareFields R.COL_CFG = [F.COL_CFG_CHECK_DEF] ∧
      fieldGet (d.reg R.COL_CFG ^^^ F.COL_CFG_CHECK_DEF.mask) F.COL_CFG_CHECK_DEF ≠ d.fld R.COL_CFG F.COL_CFG_CHECK_DEF) ∧
    (let r := req 0x30 (bytesWith 28 [(0, 11), (8, 1), (0x11, 0x10), (0x18, 16)])
    let d := (serving (fun d => { d with host := { HostSide.reset with linkUp := true, bme := [0] } }) 0x30 r.body).dev
    d.serves 1 r ∧ r.body.length = 28 ∧ (d.dumpView 0 (r.fld 0 1)).isSome = true ∧ r.fld 1 3 = 0 ∧ r.fld 0xC 4 = 0 ∧ r.fld 0x10 8 % 64 = 0 ∧
      ((d.dumpView 0 (r.fld 0 1)).bind (fun v => d.hostWrite 0 (r.fld 0x10 8)
        ((List.range (v.take (r.fld 4 4) (r.fld 8 4) (r.fld 0x18 4))).flatMap (fun i => v.entry (r.fld 4 4 + i))))).isSome = true) := by
  refine ⟨?_, ?_, ?_, ?_⟩ <;> decide +kernel

/-! ### Witnesses: power, heat and the connectors -/

/-- The twelfth converter phase with 12, 11, 8 and 7 left, and once failed; a phase of the last regulator, failed or not. -/
theorem witness_PhaseFailures :
    (∀ n ∈ [12, 11, 8, 7], let d := Dev.reset.setFld R.PWR_CONV F.PWR_CONV_COUNT n
      d.alive = true ∧ (d.fld R.PWR_CONV F.PWR_CONV_GOOD).testBit 11 = true ∧ d.fld R.PWR_CONV F.PWR_CONV_COUNT - 1 = n - 1) ∧
    ((Dev.reset.setFld R.PWR_CONV F.PWR_CONV_GOOD 0).fld R.PWR_CONV F.PWR_CONV_GOOD).testBit 11 = false ∧
    (Dev.reset.fld (R.CLU_IVR 15) F.CLU_IVR_FAILED).testBit 31 = false ∧
    ((Dev.reset.setFld (R.CLU_IVR 15) F.CLU_IVR_FAILED (2 ^ 31)).fld (R.CLU_IVR 15) F.CLU_IVR_FAILED).testBit 31 = true := by
  decide +kernel

/-- A cluster with power and one without; one whose age grows; a token that has returned while a cluster waits, with none that waits, one
that has not returned, and a wake that is barred. -/
theorem witness_ClusterEvents :
    (let d := (Dev.reset.setFld (R.CLU_PWR_STAT 15) F.CLU_PWR_STAT_WAKE 3).setFld (R.CLU_PWR_STAT 15) F.CLU_PWR_STAT_F_APPLIED 921
    d.alive = true ∧ d.powered 15 = true ∧ 0 < d.fld (R.CLU_PWR_STAT 15) F.CLU_PWR_STAT_F_APPLIED ∧ Dev.reset.powered 15 = false ∧
      Dev.reset.fld (R.CLU_PWR_STAT 15) F.CLU_PWR_STAT_F_APPLIED = 0) ∧
    (let d := (Dev.reset.setFld R.MGT_FW_STAT F.MGT_FW_STAT_STATE 2).setFld (R.CLU_PWR_CFG 0) F.CLU_PWR_CFG_AGE_MV 3
    let e := d.stressAccount 0
    e.fwRuns = true ∧ e.fld (R.CLU_PWR_CFG 0) F.CLU_PWR_CFG_AGE_MV <
      if e.pwr.stressRestored then min 25 (e.fld (R.CLU_STRESS 0) F.CLU_STRESS_EFF_HOURS / 175000) else 25) ∧
    (let d := { Dev.reset.setFld (R.CLU_PWR_STAT 14) F.CLU_PWR_STAT_WAKE 1 with now := 12000, pwr := { Pwr.reset with tokens := [(3, 0)] } }
    d.tokenThere 3 = true ∧ d.wakeBarred = false ∧ allClusters.find? (fun k => quadrant k = 3 && d.cluWake k = 1) = some 14 ∧
      allClusters.find? (fun k => quadrant k = 0 && d.cluWake k = 1) = none ∧ ({ d with now := 11999 } : Dev).tokenThere 3 = false ∧
      ({ d with thm := { Thm.reset with tripFound := true, spots := [(.far 0, { (d.spot (.far 0)) with level := 1 })] } } : Dev).wakeBarred =
        true) := by
  refine ⟨?_, ?_, ?_⟩ <;> decide +kernel

/-- Samples below and above the peak; windows that are over and that are not, with and without a waiting setting; a millisecond with
windows and without. -/
theorem witness_PowerSamplesAndWindows :
    (Dev.reset.alive = true ∧ 36000000 < 6000 * 6001 ∧ ¬ 36000000 < 6000 * 6000 ∧ Dev.reset.pwr.guard = false) ∧
    (∀ kind ∈ [0, 1], Dev.reset.windowOver kind 0 = false ∧ ({ Dev.reset with now := 1000000 } : Dev).windowOver kind 0 = true) ∧
    ((Dev.reset.windowOpens 0 0).fld R.PWR_CAP F.PWR_CAP_EFF_W ≠ 0 ∧ (Dev.reset.windowOpens 0 0).pwr.pendingSet = none) ∧
    (({ Dev.reset with pwr := { Pwr.reset with pendingSet := some ⟨0, 800, 256, 1200⟩ } } : Dev).windowOpens 0 0).pwr.pendingSet =
      some ⟨0, 800, 256, 1200⟩ ∧
    ({ Pwr.reset with fCount := 100 } : Pwr).fCount ≠ 0 := by
  decide +kernel

/-- Every kind of spot at its last, due and not due; the leak input owned by its reset owner and by another; a coolant window that is
over, one that is not, and one with samples. -/
theorem witness_SamplesAndCoolant :
    (∀ p ∈ [Spot.tile 255, Spot.near 255 3, Spot.far 15, Spot.edge 63], spotExists p = true ∧ Dev.reset.sampleDue p = true ∧
      (Dev.reset.updSpot p (fun x => { x with last := some 0 })).sampleDue p = false) ∧
    (let d := Dev.reset.setFld R.MGT_OWNER F.MGT_OWNER_OWNER 1
    d.alive = true ∧ d.owner 0 = 1 ∧ (Dev.reset.setFld R.MGT_OWNER F.MGT_OWNER_OWNER 2).owner 0 ≠ 1) ∧
    (Dev.reset.windowOver 2 0 = false ∧ ({ Dev.reset with now := 10 ^ 10 } : Dev).windowOver 2 0 = true) ∧
    (let x := { Thm.reset with flowN := 10, flowSum := 20000, inletN := 10, inletSum := 3000 }
    x.flowN ≠ 0 ∧ x.inletN ≠ 0) := by
  refine ⟨?_, ?_, ?_, ?_⟩ <;> decide +kernel

/-- A millisecond that is over and one that is not; a cluster that is kept warm and one that is not; no castling, tiles of one at rest, at
work in time and too long; a stop whose resign is over, one whose resign is not, and none. -/
theorem witness_WarmthCastlingAndStop :
    (let d := Dev.reset.setFld R.MGT_FW_STAT F.MGT_FW_STAT_STATE 2
    d.alive = true ∧ d.fwRuns = true ∧ d.keptWarm 15 = false ∧ d.windowOver 3 15 = false ∧
      ({ d with now := 1000000 } : Dev).windowOver 3 15 = true ∧ Dev.reset.fwRuns = false) ∧
    (let d := (clusterTiles 15).foldl (fun (d : Dev) t => d.setFld (R.TIL_STATE t) F.TIL_STATE_STATE 1)
      { Dev.reset.setFld (R.CLU_PWR_STAT 15) F.CLU_PWR_STAT_WAKE 3 with
        pwr := { Pwr.reset with clusters := [(15, { ClusterPwr.blank with everBound := true })] } }
    d.keptWarm 15 = true) ∧
    (let d := { Dev.reset with thm := { Thm.reset with castle := some ⟨0, 255, 0⟩ } }
    d.thm.castle = some ⟨0, 255, 0⟩ ∧ d.castleStill ⟨0, 255, 0⟩ = true ∧ Dev.reset.thm.castle = none) ∧
    (let d := { Dev.reset with now := 4000, tiles := [(0, { Tile.blank with seq := .run, slot := 1 })] }
    d.castleStill ⟨0, 255, 0⟩ = false ∧ 0 + 4000 ≤ d.now ∧ ({ d with now := 3999 } : Dev).now < 0 + 4000) ∧
    (let d := { Dev.reset.setFld R.THM_STAT F.THM_STAT_STOP 1 with resigns := [⟨0, 4, 0, [], 0, 0⟩] }
    d.stopState = 1 ∧ (∀ r ∈ d.resigns, r.scope = 4 → d.resignOver r = true) ∧ Dev.reset.stopState ≠ 1) := by
  refine ⟨?_, ?_, ?_, ?_, ?_⟩ <;> decide +kernel

/-- Pins at which each reset and the input change, hold, and let go; a module without its auxiliary supply. -/
theorem witness_ResetsAndSupplies :
    (Pins.reset.auxOn = true ∧ Pins.reset.perst ≠ false ∧ Pins.reset.modReset ≠ false ∧ Pins.reset.inputGood = true ∧
      ({ Pins.reset with auxOn := false } : Pins).auxOn = false) ∧
    (let p := { Pins.reset with inputGood := false }
    p.auxOn = true ∧ p.inputGood = false ∧ (p.perst && p.modReset && p.inputGood) = false) ∧
    (36999 < 37000 ∧ 62000 < 62001 ∧ 37000 ≤ 37000 ∧ 62000 ≤ 62000) ∧
    (let s := with1 (fun d => { d with pins := { Pins.reset with perst := false } })
    s.dev.inReset = true ∧ Pins.reset.perst = true ∧ Pins.reset.modReset = true ∧ Pins.reset.inputGood = true ∧
      State.reset.dev.inReset = false) ∧
    State.reset.dev.alive = true := by
  decide +kernel

/-- A supplied module and one that is not; an input pin whose level changes and one that stands; supplies out of range and in it; a pin of
the tempo pulse; a device that does not work; debug states that accept and that do not. -/
theorem witness_PinsAndSideband :
    (Dev.reset.alive = true ∧ Dev.reset.pins.auxOn = true ∧ (Dev.reset.gpio 7).level ≠ true ∧ (Dev.reset.gpio 7).level = false ∧
      ({ Pins.reset with auxOn := false } : Pins).auxOn = false) ∧
    (let d := { Dev.reset with pins := ({ Pins.reset with vin := 60001 } : Pins).showPwrGood }
    d.alive = true ∧ (60001 < 40000 ∨ 60000 < 60001) ∧ ¬ (40000 < 40000 ∨ 60000 < 40000)) ∧
    (Dev.reset.setFld R.MGT_OWNER F.MGT_OWNER_OWNER 7).owner 0 = 7 ∧
    (Dev.reset.setFld R.MGT_FW_STAT F.MGT_FW_STAT_STATE 2).fwRuns = true ∧
    ({ Dev.reset with pins := { Pins.reset with dark := true } } : Dev).alive = false ∧
    2 ≤ ({ Trust.reset with debug := 2, highest := 2 } : Trust).debug ∧ ¬ 1 ≤ Trust.reset.debug := by
  decide +kernel

/-! ### Witnesses: single rules -/

/-- A row in MXFP4 whose second block's scale is 0xFF; groups on either side. -/
theorem witness_ScaleByteFFIsNan :
    (let o := { opd1 false with fmt := 6, hasB := true }
    o.blocks = true ∧ 33 < (List.replicate 64 0).length ∧ ([0, 0xFF] : List Nat)[33 / 32]? = some 0xFF) ∧
    (1 < 64 / 32 ∧ ([0, 0xFF] : List Nat)[1]? = some 0xFF) := by
  decide +kernel

theorem witness_BindingSetsRegisters : ([1, 2, 3, 4, 5] : List Nat).length = 5 := rfl

theorem witness_CollectiveTag : (coll1 1 0 0).desc.self < 4096 ∧ ([7] : List Nat) ≠ [] := by decide +kernel

theorem witness_MeasurementsLeaveWork :
    (∃ t, exec (.droopBoost 15) State.reset = .next t) ∧ (∃ t, exec (.powerSample 4800 8000) State.reset = .next t) := ⟨⟨_, rfl⟩, _, rfl⟩

end Sys2Proof.Tests
end

section
/-! Number formats: what a scale byte of 0xFF makes of the block under it (R40). -/

namespace Sys2Proof.Machine

/-! ### Block scales of 0xFF (R40) -/

@[simp] theorem blockExp_FF : blockExp 0xFF = none := rfl

theorem blockExp_getD_of_FF {scales : List Nat} {g : Nat} (hs : scales[g]? = some 0xFF) :
    blockExp (scales.getD g 0) = none := by
  rw [List.getD_eq_getElem?_getD, hs, Option.getD_some, blockExp_FF]

@[simp] theorem Fp.nan_mul (y : Fp) : Fp.nan.mul y = .nan := rfl

@[simp] theorem blockDecode_FF (fmt code : Nat) : blockDecode fmt code 0xFF = .nan := by
  simp only [blockDecode, blockExp_FF]

/-- A row is the terms of its operand's format, then multiplied by the tensor scale if it has one. -/
theorem rowValues_eq_termValues (o : Operand) (codes scales : List Nat) :
    rowValues o codes scales =
      if o.hasT then (termValues o.fmt o.blocks codes scales).map (fun v => v.mul (ofF32 o.tscale))
      else termValues o.fmt o.blocks codes scales := rfl

/-- The value at a place of a scaled run is its code decoded under the scale byte of the block of 32 it lies in. -/
theorem termValues_blocks_getElem? (fmt : Nat) (codes scales : List Nat) (i : Nat) :
    (termValues fmt true codes scales)[i]? =
      codes[i]?.map (fun c => blockDecode fmt c (scales.getD (i / 32) 0)) := by
  simp only [termValues, List.getElem?_zipWith, if_true]
  cases h : codes[i]? with
  | none => cases (List.range codes.length)[i]? <;> rfl
  | some c =>
    obtain ⟨hi, -⟩ := List.getElem?_eq_some_iff.mp h
    rw [List.getElem?_range hi]; rfl

theorem termValues_of_scale_FF {codes scales : List Nat} {i : Nat} (fmt : Nat) (hi : i < codes.length)
    (hs : scales[i / 32]? = some 0xFF) : (termValues fmt true codes scales)[i]? = some .nan := by
  simp [termValues_blocks_getElem?, hi, hs]

/-- The tensor scale keeps the NaN that the block scale made: NaN times anything is NaN. -/
theorem rowValues_of_scale_FF {o : Operand} {codes scales : List Nat} {i : Nat} (hb : o.blocks = true)
    (hi : i < codes.length) (hs : scales[i / 32]? = some 0xFF) : (rowValues o codes scales)[i]? = some .nan := by
  have ht := termValues_of_scale_FF o.fmt hi hs
  rw [rowValues_eq_termValues, hb]
  split
  · simp [ht]
  · exact ht

/-- A row group of integer products is NaN when the activations' scale byte for it is 0xFF. -/
theorem groupTerms_of_activation_scale_FF {sa : List Nat} {k g : Nat} (fa fw : Nat) (bw : Bool) (ca cw sw : List Nat)
    (hg : g < k / 32) (hs : sa[g]? = some 0xFF) : (groupTerms fa fw true bw ca cw sa sw k)[g]? = some .nan := by
  simp only [groupTerms, List.getElem?_map, List.getElem?_range hg, Option.map_some, if_true, blockExp_getD_of_FF hs]

/-- A row group of integer products is NaN when the weights' scale byte for it is 0xFF, whatever the activations' is. -/
theorem groupTerms_of_weight_scale_FF {sw : List Nat} {k g : Nat} (fa fw : Nat) (ba : Bool) (ca cw sa : List Nat)
    (hg : g < k / 32) (hs : sw[g]? = some 0xFF) : (groupTerms fa fw ba true ca cw sa sw k)[g]? = some .nan := by
  simp only [groupTerms, List.getElem?_map, List.getElem?_range hg, Option.map_some, if_true, blockExp_getD_of_FF hs]
  cases (if ba = true then blockExp (sa.getD g 0) else some 0) <;> rfl

/-- Settles O57: a block scale of 0xFF has no exponent, so an element under it decodes to NaN; a load's tensor scale keeps
the NaN, and an integer row group takes it from either side's scale. -/
theorem scaleByteFFIsNan : Obligations.ScaleByteFFIsNan :=
  ⟨fun _ _ _ _ => rowValues_of_scale_FF,
    fun fmt _ _ _ => termValues_of_scale_FF fmt,
    fun fa fw bw ca cw _ sw _ _ => groupTerms_of_activation_scale_FF fa fw bw ca cw sw,
    fun fa fw ba ca cw sa _ _ _ => groupTerms_of_weight_scale_FF fa fw ba ca cw sa,
    blockDecode_FF⟩

end Sys2Proof.Machine
end

section
/-! Binding: the registers and the program counter a stage's tile starts with (R78). -/

namespace Sys2Proof.Machine

/-! ### What a write into SRAM leaves of a tile -/

@[simp] theorem Tile.sramPut_pc (x : Tile) (a : Nat) (bs : List Byte) : (x.sramPut a bs).pc = x.pc := rfl

@[simp] theorem Tile.sramPut_g (x : Tile) (a : Nat) (bs : List Byte) : (x.sramPut a bs).g = x.g := rfl

@[simp] theorem Tile.foldl_sramPut_pc (x : Tile) (runs : List (Nat × List Byte)) :
    (runs.foldl (fun z e => z.sramPut e.1 e.2) x).pc = x.pc := by
  induction runs generalizing x with
  | nil => rfl
  | cons e r ih => rw [List.foldl_cons, ih, Tile.sramPut_pc]

@[simp] theorem Tile.foldl_sramPut_g (x : Tile) (runs : List (Nat × List Byte)) :
    (runs.foldl (fun z e => z.sramPut e.1 e.2) x).g = x.g := by
  induction runs generalizing x with
  | nil => rfl
  | cons e r ih => rw [List.foldl_cons, ih, Tile.sramPut_g]

/-! ### The register file at binding (R78) -/

/-- The G registers a stage's argument words give: G0, the words from G1 on, then 26 more registers of 0. -/
def bindingRegs (args : List Nat) : List Word :=
  (0 : Word) :: (args.map (BitVec.ofNat 64)) ++ List.replicate 26 0

@[simp] theorem boundTile_g (x : Tile) (pid ctx index entry : Nat) (c : List Byte) (args : List Nat)
    (handles : List (Nat × Nat × Nat)) (sids : List (Nat × Bool × Nat)) :
    (boundTile x pid ctx index entry c args handles sids).g = bindingRegs args := by
  rw [boundTile, Tile.foldl_sramPut_g]; rfl

@[simp] theorem boundTile_pc (x : Tile) (pid ctx index entry : Nat) (c : List Byte) (args : List Nat)
    (handles : List (Nat × Nat × Nat)) (sids : List (Nat × Bool × Nat)) :
    (boundTile x pid ctx index entry c args handles sids).pc = entry := by
  rw [boundTile, Tile.foldl_sramPut_pc]

@[simp] theorem bindingRegs_length (args : List Nat) : (bindingRegs args).length = args.length + 27 := by
  rw [bindingRegs, List.length_append, List.length_cons, List.length_map, List.length_replicate]

theorem bindingRegs_getD_zero (args : List Nat) : (bindingRegs args).getD 0 0 = 0 := rfl

theorem bindingRegs_getElem?_succ (args : List Nat) (k : Nat) :
    (bindingRegs args)[k + 1]? = (args.map (BitVec.ofNat 64) ++ List.replicate 26 0)[k]? := rfl

theorem bindingRegs_getD_succ_of_lt {args : List Nat} {k : Nat} (hk : k < args.length) :
    (bindingRegs args).getD (k + 1) 0 = BitVec.ofNat 64 (args.getD k 0) := by
  rw [List.getD_eq_getElem?_getD, bindingRegs_getElem?_succ, List.getElem?_append_left (by rwa [List.length_map]),
    List.getElem?_map, List.getD_eq_getElem?_getD, List.getElem?_eq_getElem hk, Option.map_some, Option.getD_some,
    Option.getD_some]

theorem bindingRegs_getD_succ_of_le {args : List Nat} {k : Nat} (hk : args.length ≤ k) :
    (bindingRegs args).getD (k + 1) 0 = 0 := by
  rw [List.getD_eq_getElem?_getD, bindingRegs_getElem?_succ, List.getElem?_append_right (by rwa [List.length_map]),
    List.getElem?_replicate]
  split
  · exact Option.getD_some
  · exact Option.getD_none

/-- Settles O58: the container's DATA goes into SRAM alone, so PC stays ENTRY and the registers stay those of the argument
words; a register is G0, one of the five the words fill, or one of the zeros after them. -/
theorem bindingSetsRegisters : Obligations.BindingSetsRegisters := by
  intro x pid ctx index entry c args handles sids hlen
  refine ⟨boundTile_pc .., by rw [boundTile_g, bindingRegs_length, hlen], fun i _ => ?_⟩
  rw [boundTile_g]
  cases i with
  | zero => rw [if_neg (by omega), bindingRegs_getD_zero]
  | succ k =>
    by_cases hk : k < 5
    · rw [if_pos (by omega), bindingRegs_getD_succ_of_lt (by omega), Nat.add_sub_cancel]
    · rw [if_neg (by omega), bindingRegs_getD_succ_of_le (by omega)]

end Sys2Proof.Machine
end

section
/-! Collective packets: the fields of their TAG (R249), and the head of the check packets (R258; log entry 23 for the wire
form). -/

namespace Sys2Proof.Machine

theorem b2n_lt_two (b : Bool) : b2n b < 2 := by cases b <;> decide

/-! ### The fields of a TAG (R249) -/

/-- CONTRIB: the member's own number, or 0 under RED. -/
def CollDesc.contribField (x : CollDesc) (red : Bool) : Nat := if red then 0 else x.self

theorem CollDesc.tag_eq (x : CollDesc) (red chk bkp : Bool) :
    x.tag red chk bkp = x.contribField red + 4096 * b2n chk + 8192 * b2n bkp + x.step % 4 * 16384 := rfl

theorem CollDesc.contribField_lt {x : CollDesc} (hself : x.self < 4096) (red : Bool) : x.contribField red < 4096 := by
  cases red
  · exact hself
  · exact Nat.zero_lt_succ _

/-- Each field fits the bits it is given, so none carries into the next. -/
theorem CollDesc.tag_fields {x : CollDesc} (hself : x.self < 4096) (red chk bkp : Bool) :
    let tag := x.tag red chk bkp
    tag < 65536 ∧ tag % 4096 = x.contribField red ∧ tag / 4096 % 2 = b2n chk ∧ tag / 8192 % 2 = b2n bkp ∧
      tag / 16384 = x.step % 4 := by
  have hcontrib := CollDesc.contribField_lt hself red
  have hchk := b2n_lt_two chk
  have hbkp := b2n_lt_two bkp
  rw [CollDesc.tag_eq]
  refine ⟨?_, ?_, ?_, ?_, ?_⟩ <;> omega

/-! ### The packets that carry it -/

@[simp] theorem Dev.accPacket_tag (d : Dev) (x : CollDesc) (red bkp : Bool) (j r : Nat) :
    (d.accPacket x red bkp j r).tag = x.tag red false bkp := rfl

/-- The check packet of the first 256 of some samples. -/
def Dev.checkPacket (d : Dev) (x : CollDesc) (bkp : Bool) (j : Nat) (es : List Nat) : BamatPkt :=
  { BamatPkt.blank with
    op := 5, vc := x.vc, job := x.job, tag := x.tag false true bkp, dstdev := x.primary j, srcdev := d.selfDev, dstep := 322,
    srcep := 322, addr := es.headD 0, payload := (es.take 256).flatMap (fun e => leBytes 4 (d.srcElem x e).toNat) }

theorem Dev.checkPackets_succ_of_ne_nil (d : Dev) (x : CollDesc) (bkp : Bool) (j k : Nat) {es : List Nat} (hes : es ≠ []) :
    d.checkPackets x bkp j (k + 1) es = d.checkPacket x bkp j es :: d.checkPackets x bkp j k (es.drop 256) := by
  rw [Dev.checkPackets, List.isEmpty_eq_false_iff.mpr hes]; rfl

/-- Settles O59: CONTRIB, CHK, BKP and STEP mod 4 stand side by side in the TAG; a range's packet carries it with CHK 0, and
while samples are left the next check packet carries it with CHK 1. -/
theorem collectiveTag : Obligations.CollectiveTag :=
  ⟨fun _ red chk bkp hself => CollDesc.tag_fields hself red chk bkp, Dev.accPacket_tag,
    fun d x bkp j k _ => d.checkPackets_succ_of_ne_nil x bkp j k⟩

end Sys2Proof.Machine
end

section
/-! The rows of the table: every command answers through one of the shared rows over the device, but for sixteen that have a row of
their own (the fuses and the debug unlock, resets, supplies and pins). -/

namespace Sys2Proof.Machine

theorem execRefresh_over (bank : BankId) (s : State) : OverDev s (execRefresh bank s) := by
  cases bank with
  | near t layer => exact onUnits_over _ s _
  | far n pc bg b => exact onUnits_over _ s _

theorem execSensorSample_over (spot : Spot) (raw : List (Option Int)) (granules : List Nat) (s : State) :
    OverDev s (execSensorSample spot raw granules s) := by
  unfold execSensorSample
  split
  · exact onDev_over s _
  · exact .inl ⟨_, _, rfl⟩

/-- The commands that answer through no shared row over the device: those that act on the fuses, the debug unlock or the test
port, and those that act on a device that does not work (log entry 9). -/
inductive OwnRow : Instr → Prop
  | svnCommit (mb : Nat) : OwnRow (.svnCommit mb)
  | challenge (mb : Nat) : OwnRow (.challenge mb)
  | respond (mb : Nat) : OwnRow (.respond mb)
  | lock (mb : Nat) : OwnRow (.lock mb)
  | testAccessPort (ir : Nat) : OwnRow (.testAccessPort ir)
  | perstN (level : Bool) : OwnRow (.perstN level)
  | modResetN (level : Bool) : OwnRow (.modResetN level)
  | inputGood : OwnRow .inputGood
  | inputLockout (mV : Nat) : OwnRow (.inputLockout mV)
  | auxiliaryPowerOn : OwnRow .auxiliaryPowerOn
  | vinRange (mV : Nat) : OwnRow (.vinRange mV)
  | auxRange (mV : Nat) : OwnRow (.auxRange mV)
  | strapChanged (slot : Nat) : OwnRow (.strapChanged slot)
  | gpioEdge (g : Nat) (level : Bool) : OwnRow (.gpioEdge g level)
  | i3cAddressed (addr : Nat) : OwnRow (.i3cAddressed addr)
  | i3cRequest (req : I3cReq) : OwnRow (.i3cRequest req)

/-- What every other command answers: one of the shared rows over the device. -/
theorem exec_over {c : Instr} (s : State) (hc : ¬ OwnRow c) : OverDev s (exec c s) := by
  cases c with
  | registerWrite | rcRead | malformedRead => unfold exec; exact barRow_over ..
  | devConfig | devConfigGet | versionGet | jobOpen | jobClose | dump | traceCfg | schedCfg | queueClass | powerSet |
    clusterFreqMax | gpioSet | gpioGet | timerCfg | z8Info | z8CapSet | z8PowerGet | z8PrioSet | z8AgingSet | z8ClkSet |
    z8Gate | z8CluStatus => unfold exec; exact mbRow_over ..
  | loadw | loadwt | issue | issuel | drainv | drains | vopCvt | vopMaxred | vopSumred | vopSplat | ldv | ldg | ldc |
    mcopyIn | mcopyOut | latfill | stv | stg | sendv | recvv | send | recv | gaddi | gadd | gshl | loop | br | bne | ginfo |
    signal | wait | sreset | halt => unfold exec; exact tileRow_over ..
  | rampStep | throttleBubble | syncPacket | syncTimeout | streamTimeout | pipeline | pipeBound | pipeDone | epHoldExpiry |
    memRead | ceWriteback | refreshBoundary | scrub | pimCmdDone | sample | sampleRow | gambit | gambitDecision | update |
    updateUnit | audit | trainingAttempt | ident | flitReceive | resendTimeout | tempoExchange | ethFrame | flrVf |
    bmeCleared | hifAdmqCfg | heartbeatLate | heartbeatTimeout | descriptorFetch | copy | copyDone | descriptorTimeout |
    resignDone | timerExpiry | convPhaseFailed | ageStep | droopBoost | clockStretch | shuntClamp | slopeTokenReturn |
    keepWarm | mailboxDoorbell | completionTimeout | tempoPps => unfold exec; exact onUnit_over ..
  | vopAdd | vopSub | vopMul | vopFma | vopMin | vopMax | vopAbs | vopNeg | vopCmp | vopSel | vopSqrt | vopRcp | vopRsqrt |
    vopExp2 | vopLog2 | vopDiv | vopExp | vopLog | vopTanh | vopSigmoid | vopSilu | vopGelu | vopSubmax | vopScaleinv |
    vopMov => unfold exec; exact vectorRow_over ..
  | stream | credit | epArrival | flitCrcFail | memWrite | sequenceStart | sequenceEnd | smpTimeout | laneDropped |
    noticeRing | ivrPhaseFailed => unfold exec; exact onUnits_over ..
  | packetInject | purgeDone | clkFallback | evacPageCopy | pimBudgetWindow | copyOnWrite | ownerHashes | noticeAuditDone |
    auditTimeout | collectiveAcc | plainAccumulate | checkPacket | deadlineD1 | deadlineD2 | collTimeout | localSummary |
    noticeDone | noticeBackupReq | noticeAbandon | allGatherBlock | quietPeriodEnd | hotReset | linkDown | linkUp | flrPf |
    vfEnableCleared | watchdogRestart | readback | urgentWindow | urgentSpent | traceFull | powerSample | cappingWindow |
    freqWindow | flowSample | coolantWindow | leak | stopDone | castled | castleAbandoned | bistDone | pllLockLoss |
    readyLate => unfold exec; exact onDev_over ..
  | pimAdd | pimMul | pimMad | pimRelu | pimGelu | pimSilu | pimClamp | pool => unfold exec; exact pimRow_over ..
  | seqOpen | seqClose | poolAdd | append | fork | truncate | fetch | push => unfold exec; exact kvRow_over ..
  | pageRead | pageData | bamatWrite | bamatRead | bamatRdata | bamatAck | bamatSignal | bamatSreset | refuse =>
    unfold exec; exact bamatRow_over ..
  | konaocAdd | konaocSub | konaocMul | konaocFma | konaocDiv | konaocSqrt | konaocRsqrt | konaocMin | konaocMax | konaocAbs |
    konaocNeg | konaocSign | konaocCmplt | konaocSel | konaocMov | konaocBsum | konaocBmax | konaocPhase =>
    unfold exec; exact konaocRow_over ..
  | reduceScatter | allGather | allReduce | broadcast | allToAll => unfold exec; exact collRow_over ..
  | mirrorAdd | mirrorDel | proxyAdd | proxyDel => unfold exec; exact linkMapRow_over ..
  | sqTail | cqHead | hifAdmqTail | hifAdmqHead | hifHeartbeat | resignQueue | resignContext | resignFunction |
    resignDevice => unfold exec; exact fnRow_over ..
  | nop | ctxCreate | ctxDestroy | queueCreate | queueDestroy | queueAdopt | memAlloc | memFree | syncAlloc | syncFree =>
    unfold exec; exact effectRow_over ..
  | syncOpSignal | syncOpWait | syncOpSreset => unfold exec; exact syncOpRow_over ..
  | fwLoad | z8FwLoad => unfold exec; exact loadRow_over ..
  | attest | z8Attest => unfold exec; exact attestRow_over ..
  | refresh bank => exact execRefresh_over bank s
  | sensorSample spot raw granules => exact execSensorSample_over spot raw granules s
  | svnCommit | challenge | respond | lock | testAccessPort | perstN | modResetN | inputGood | inputLockout | auxiliaryPowerOn |
    vinRange | auxRange | strapChanged | gpioEdge | i3cAddressed | i3cRequest => exact absurd (by constructor) hc

end Sys2Proof.Machine
end

section
/-! The fused counter: what SVN_COMMIT makes of it, and that no other command and no idle step moves it (R327). -/

namespace Sys2Proof.Machine

/-! ### Commands that leave the fused counter -/

/-- A next state, if this is one, holds the fused counter of `s`. -/
def KeepsFused (s : State) (o : Out) : Prop := ∀ t, o = .next t → t.trust.svn = s.trust.svn

theorem KeepsFused.next {s t : State} (h : t.trust.svn = s.trust.svn) : KeepsFused s (.next t) := by
  rintro _ ⟨⟩; exact h

theorem KeepsFused.fault (s : State) (e : Fault) : KeepsFused s (.fault e) := fun _ h => nomatch h

theorem KeepsFused.ite {s : State} {p : Prop} [Decidable p] {a b : Out} (ha : KeepsFused s a) (hb : KeepsFused s b) :
    KeepsFused s (if p then a else b) := by
  split
  · exact ha
  · exact hb

theorem OverDev.keepsFused {s : State} {o : Out} (h : OverDev s o) : KeepsFused s o :=
  fun _ e => congrArg Trust.svn (h.trust e)

@[simp] theorem Trust.relock_svn (t : Trust) : t.relock.svn = t.svn := rfl

/-- A reset relocks the debug unlock; the fuses stay. -/
@[simp] theorem resetPins_svn (s : State) (p : Pins) : (resetPins s p).trust.svn = s.trust.svn := by
  unfold resetPins
  dsimp only
  split
  · exact Trust.relock_svn _
  · split <;> rfl

@[simp] theorem State.idle_trust (s : State) : s.idle.trust = s.trust := by
  unfold State.idle
  split <;> rfl

/-- A row over the fuses and the debug unlock answers a fault, the same state, or what its function makes of a message. -/
theorem trustRow_cases (mb : Nat) (pick : MbReq → Bool) (s : State) (f : Trust → Dev → MbReq → Trust × Dev) :
    trustRow mb pick s f = .fault (.noSuchUnit "mailbox" mb) ∨ trustRow mb pick s f = .next s ∨
      ∃ r, trustRow mb pick s f = .next { s with trust := (f s.trust s.dev r).1, dev := (f s.trust s.dev r).2 } := by
  unfold trustRow
  split
  · split
    · exact .inr (.inl rfl)
    · exact .inr (.inr ⟨_, rfl⟩)
  · exact .inl rfl

theorem trustRow_keepsFused {mb : Nat} {pick : MbReq → Bool} {s : State} {f : Trust → Dev → MbReq → Trust × Dev}
    (hf : ∀ t d r, (f t d r).1.svn = t.svn) : KeepsFused s (trustRow mb pick s f) := by
  obtain h | h | ⟨r, h⟩ := trustRow_cases mb pick s f <;> rw [h]
  · exact .fault s _
  · exact .next rfl
  · exact .next (hf s.trust s.dev r)

theorem execChallenge_keepsFused (mb : Nat) (s : State) : KeepsFused s (execChallenge mb s) :=
  trustRow_keepsFused fun t d r => by
    dsimp only
    split
    · rfl
    split
    · rfl
    split <;> rfl

theorem execRespond_keepsFused (mb : Nat) (s : State) : KeepsFused s (execRespond mb s) :=
  trustRow_keepsFused fun t d r => by
    dsimp only
    split
    · rfl
    split
    · rfl
    split
    · rfl
    split <;> rfl

theorem execLock_keepsFused (mb : Nat) (s : State) : KeepsFused s (execLock mb s) :=
  trustRow_keepsFused fun t d r => by
    split
    · rfl
    split
    · rfl
    split <;> rfl

theorem execTestAccessPort_keepsFused (ir : Nat) (s : State) : KeepsFused s (execTestAccessPort ir s) := by
  unfold execTestAccessPort
  refine .ite ?_ (.next rfl)
  split <;> exact .next rfl

/-- Nothing but SVN_COMMIT moves the fused counter. -/
theorem exec_keepsFused {c : Instr} (s : State) (hc : ∀ mb, c ≠ .svnCommit mb) : KeepsFused s (exec c s) := by
  by_cases hown : OwnRow c
  · cases hown with
    | svnCommit mb => exact absurd rfl (hc mb)
    | challenge mb => exact execChallenge_keepsFused mb s
    | respond mb => exact execRespond_keepsFused mb s
    | lock mb => exact execLock_keepsFused mb s
    | testAccessPort ir => exact execTestAccessPort_keepsFused ir s
    | perstN | modResetN => exact .ite (.next rfl) (.next (resetPins_svn s _))
    | inputGood => exact .ite (.next rfl) (.next (resetPins_svn s _))
    | inputLockout => exact .ite (.next (resetPins_svn s _)) (.next rfl)
    | auxiliaryPowerOn => exact .next (Trust.relock_svn _)
    | vinRange | auxRange | i3cRequest => exact .ite (.next rfl) (.next rfl)
    | strapChanged | gpioEdge => exact .ite (.fault s _) (.ite (.next rfl) (.ite (.next rfl) (.next rfl)))
    | i3cAddressed => exact .ite (.fault s _) (.ite (.next rfl) (.next rfl))
  · exact (exec_over s hown).keepsFused

/-! ### SVN_COMMIT -/

/-- The fused counter stays, or rises to at most 64 (R327). -/
def Trust.FusedStep (t u : Trust) : Prop := u.svn = t.svn ∨ t.svn < u.svn ∧ u.svn ≤ 64

theorem Trust.FusedStep.bounds {t u : Trust} (h : t.FusedStep u) (ht : t.svn ≤ 64) : t.svn ≤ u.svn ∧ u.svn ≤ 64 := by
  unfold Trust.FusedStep at h
  omega

/-- What SVN_COMMIT makes of the fuses and the device for a message in service (R327). The answer to a body that is not empty is
log entry 89's; the OK where the counter does not rise is the model's choice. -/
def svnCommitted (mb : Nat) (t : Trust) (d : Dev) (r : MbReq) : Trust × Dev :=
  if r.body.length ≠ 0 then (t, d.answerLen mb r)
  else if t.svn < d.fw.svn ∧ d.fw.svn ≤ 64 then
    ({ t with svn := d.fw.svn }, (d.raise { code := 0x0F12, args := [d.fw.svn] }).mbAnswer mb r stOk [])
  else (t, d.mbAnswer mb r stOk [])

theorem svnCommitted_of_body_ne {t : Trust} {d : Dev} {mb : Nat} {r : MbReq} (h : r.body.length ≠ 0) :
    svnCommitted mb t d r = (t, d.answerLen mb r) := if_pos h

theorem svnCommitted_of_raises {t : Trust} {d : Dev} {mb : Nat} {r : MbReq} (hb : r.body.length = 0)
    (h : t.svn < d.fw.svn ∧ d.fw.svn ≤ 64) : svnCommitted mb t d r =
      ({ t with svn := d.fw.svn }, (d.raise { code := 0x0F12, args := [d.fw.svn] }).mbAnswer mb r stOk []) :=
  (if_neg (fun hne => hne hb)).trans (if_pos h)

theorem svnCommitted_of_not_raises {t : Trust} {d : Dev} {mb : Nat} {r : MbReq} (hb : r.body.length = 0)
    (h : ¬ (t.svn < d.fw.svn ∧ d.fw.svn ≤ 64)) : svnCommitted mb t d r = (t, d.mbAnswer mb r stOk []) :=
  (if_neg (fun hne => hne hb)).trans (if_neg h)

theorem svnCommitted_fusedStep (mb : Nat) (t : Trust) (d : Dev) (r : MbReq) : t.FusedStep (svnCommitted mb t d r).1 := by
  by_cases hb : r.body.length = 0
  · by_cases h : t.svn < d.fw.svn ∧ d.fw.svn ≤ 64
    · rw [svnCommitted_of_raises hb h]; exact .inr h
    · rw [svnCommitted_of_not_raises hb h]; exact .inl rfl
  · rw [svnCommitted_of_body_ne hb]; exact .inl rfl

/-- SVN_COMMIT is a row over the fuses. -/
theorem execSvnCommit_eq (mb : Nat) (s : State) :
    execSvnCommit mb s = trustRow mb (isOp 3) s (svnCommitted mb) := by
  by_cases hm : mb < 8
  · cases hr : s.dev.fwRequest mb (isOp 3) with
    | none => simp only [execSvnCommit, trustRow, if_pos hm, hr]
    | some r =>
      simp only [execSvnCommit, trustRow, if_pos hm, hr, Bool.and_eq_true, decide_eq_true_eq]
      by_cases hb : r.body.length = 0
      · by_cases h : s.trust.svn < s.dev.fw.svn ∧ s.dev.fw.svn ≤ 64
        · rw [svnCommitted_of_raises hb h, if_neg (fun hne => hne hb), if_pos h]
        · rw [svnCommitted_of_not_raises hb h, if_neg (fun hne => hne hb), if_neg h]
      · rw [svnCommitted_of_body_ne hb, if_pos hb]
  · simp only [execSvnCommit, trustRow, if_neg hm]

theorem execSvnCommit_fusedStep {mb : Nat} {s t : State} (h : execSvnCommit mb s = .next t) : s.trust.FusedStep t.trust := by
  rw [execSvnCommit_eq] at h
  obtain e | e | ⟨r, e⟩ := trustRow_cases mb (isOp 3) s (svnCommitted mb) <;> rw [e] at h <;> cases h
  · exact .inl rfl
  · exact svnCommitted_fusedStep mb s.trust s.dev r

/-- SVN_COMMIT answers as a message with an empty body: OK, with the counter raised where the running image's SVN is above it. -/
theorem svnCommit_answers {s : State} {mb : Nat} (hm : mb < 8) :
    Answers s mb (fun r => r.opcode = 3) 0 (fun _ => [])
      (fun r => if s.trust.svn < s.dev.fw.svn ∧ s.dev.fw.svn ≤ 64
        then { s with
          trust := { s.trust with svn := s.dev.fw.svn }
          dev := (s.dev.raise { code := 0x0F12, args := [s.dev.fw.svn] }).mbAnswer mb r stOk [] }
        else s.withDev (s.dev.mbAnswer mb r stOk []))
      (exec (.svnCommit mb) s) := by
  refine trustRow_answers hm (execSvnCommit_eq mb s) (isOp_iff 3) (fun r hl => svnCommitted_of_body_ne hl)
    (fun r off _ hbad => nomatch hbad) (fun r hl _ => ?_)
  split
  · next h => rw [svnCommitted_of_raises hl h]
  · next h => rw [svnCommitted_of_not_raises hl h]; rfl

/-! ### Every step -/

theorem exec_fusedStep {c : Instr} {s t : State} (h : exec c s = .next t) : s.trust.FusedStep t.trust := by
  by_cases hc : ∃ mb, c = .svnCommit mb
  · obtain ⟨mb, rfl⟩ := hc
    exact execSvnCommit_fusedStep h
  · exact .inl (exec_keepsFused s (fun mb e => hc ⟨mb, e⟩) t h)

/-- A step is an idle one, which touches no fuse, or a command. -/
theorem step_fusedStep {s t : State} (h : step s = .next t) : s.trust.FusedStep t.trust := by
  unfold step at h
  split at h
  · cases h; exact .inl (congrArg Trust.svn s.idle_trust)
  · next c rest _ => exact exec_fusedStep (s := { s with pending := rest }) h

/-- Settles O6: SVN_COMMIT alone moves the fused counter, and only upwards to an SVN of at most 64, so the range and the order hold
along every step. The answer to a body that is not empty is log entry 89's; the OK where nothing rises is the model's choice. -/
theorem fusedCounterNeverFalls : Obligations.FusedCounterNeverFalls := by
  refine ⟨fun s t hok h => ?_, fun c s t hc h => exec_keepsFused s hc t h, fun s mb r hr hop hbody hlt hle => ?_,
    fun s mb hm => svnCommit_answers hm⟩
  · obtain ⟨hrange, -⟩ := hok
    exact (step_fusedStep h).bounds hrange
  · have hm : mb < 8 := hr.left
    obtain ⟨-, hans⟩ := svnCommit_answers (s := s) hm
    obtain ⟨-, -, hgood⟩ := hans r hr hop
    exact (hgood (by rw [hbody]; rfl) rfl).trans (congrArg _ (if_pos ⟨hlt, hle⟩))

end Sys2Proof.Machine
end

section
/-! CLUSTER_FREQ_MAX and Z8_CLK_SET (R336, R369): both rows serve their message in one way, so its cases are settled once. -/

namespace Sys2Proof.Machine

/-- A body of another length than its layout's is answered at LEN. -/
theorem bodyRow_of_length_ne (d : Dev) (mb : Nat) (r : MbReq) {len : Nat} (checks : List (Nat × Bool)) (f : Dev → Dev)
    (hl : r.body.length ≠ len) : d.bodyRow mb r len checks f = d.answerLen mb r := by
  unfold Dev.bodyRow
  rw [if_pos hl]

/-! ### The fields of the body, in order -/

section
variable {d : Dev} {r : MbReq}

theorem freqMaxChecks_fail_cluster (hlo : 16 ≤ r.fld 0 1) (hall : r.fld 0 1 ≠ 0xFF) : firstBad (d.freqMaxChecks r) = some 0 := by
  simp [Dev.freqMaxChecks, hlo, hall]

/-- Past a cluster that exists, the reserved byte and the frequency decide. -/
theorem freqMaxChecks_past_cluster (hc : r.fld 0 1 < 16 ∨ r.fld 0 1 = 0xFF) :
    firstBad (d.freqMaxChecks r) = firstBad [(1, r.fld 1 1 ≠ 0),
      (2, (pointOf (r.fld 2 2)).isNone || (d.accepted.mode = 1 && decide (r.fld 2 2 < d.accepted.freq)))] := by
  have hgood : (decide (16 ≤ r.fld 0 1) && decide (r.fld 0 1 ≠ 0xFF)) = false := by
    rw [Bool.and_eq_false_iff, decide_eq_false_iff_not, decide_eq_false_iff_not]
    omega
  unfold Dev.freqMaxChecks
  rw [hgood, firstBad_good]

theorem freqMaxChecks_fail_reserved (hc : r.fld 0 1 < 16 ∨ r.fld 0 1 = 0xFF) (hr : r.fld 1 1 ≠ 0) :
    firstBad (d.freqMaxChecks r) = some 1 := by
  simp [freqMaxChecks_past_cluster hc, hr]

theorem freqMaxChecks_fail_freq (hc : r.fld 0 1 < 16 ∨ r.fld 0 1 = 0xFF) (hr : r.fld 1 1 = 0)
    (hf : pointOf (r.fld 2 2) = none ∨ d.accepted.mode = 1 ∧ r.fld 2 2 < d.accepted.freq) :
    firstBad (d.freqMaxChecks r) = some 2 := by
  rw [freqMaxChecks_past_cluster hc]
  obtain h | ⟨hm, hlt⟩ := hf
  · simp [hr, h]
  · simp [hr, hm, hlt]

theorem freqMaxChecks_pass (hc : r.fld 0 1 < 16 ∨ r.fld 0 1 = 0xFF) (hr : r.fld 1 1 = 0)
    (hp : (pointOf (r.fld 2 2)).isSome = true) (hm : d.accepted.mode = 1 → d.accepted.freq ≤ r.fld 2 2) :
    firstBad (d.freqMaxChecks r) = none := by
  have hfreq : ((pointOf (r.fld 2 2)).isNone || (decide (d.accepted.mode = 1) && decide (r.fld 2 2 < d.accepted.freq))) = false := by
    simpa [hp] using hm
  rw [freqMaxChecks_past_cluster hc, hfreq]
  simp [hr]

end

/-! ### The message -/

/-- What the device does with a message that sets a cluster's ceiling. -/
def Dev.freqMaxMsg (mb : Nat) (d : Dev) (r : MbReq) : Dev :=
  d.bodyRow mb r 4 (d.freqMaxChecks r) (fun d => d.freqMaxSet mb r (r.fld 0 1) (r.fld 2 2))

theorem exec_clusterFreqMax (mb : Nat) (s : State) :
    exec (.clusterFreqMax mb) s = mbRow mb (isOp 0x0061) s (Dev.freqMaxMsg mb) := rfl

theorem exec_z8ClkSet (mb : Nat) (s : State) :
    exec (.z8ClkSet mb) s = mbRow mb (isOp 0x0401) s (Dev.freqMaxMsg mb) := rfl

/-- A row of one opcode does nothing where the firmware serves no message of that opcode. -/
theorem mbRow_isOp_idle {s : State} {mb op : Nat} (f : Dev → MbReq → Dev) (hm : mb < 8)
    (h : ∀ r, s.dev.serves mb r → r.opcode ≠ op) : mbRow mb (isOp op) s f = .next s :=
  mbRow_idle f hm (fun r hr => decide_eq_false (h r hr))

/-- Both rows serve their message alike. -/
theorem freqMax_rows_serve {s : State} {mb : Nat} {r : MbReq} {e : Dev} (hr : s.dev.serves mb r) (he : s.dev.freqMaxMsg mb r = e) :
    (r.opcode = 0x0061 → exec (.clusterFreqMax mb) s = .next (s.withDev e)) ∧
    (r.opcode = 0x0401 → exec (.z8ClkSet mb) s = .next (s.withDev e)) := by
  subst he
  exact ⟨fun hop => (exec_clusterFreqMax mb s).trans (mbRow_serves _ hr ((isOp_iff _ r).2 hop)),
    fun hop => (exec_z8ClkSet mb s).trans (mbRow_serves _ hr ((isOp_iff _ r).2 hop))⟩

/-- A body with a bad field is INVALID at the first one. -/
theorem freqMaxMsg_of_bad {d : Dev} {r : MbReq} (mb off : Nat) (hl : r.body.length = 4)
    (hbad : firstBad (d.freqMaxChecks r) = some off) : d.freqMaxMsg mb r = d.answerBad mb r off :=
  bodyRow_bad d mb r _ hl hbad

/-- A body whose fields are good sets the ceilings it names. -/
theorem freqMaxMsg_of_good {d : Dev} {r : MbReq} (mb : Nat) (hl : r.body.length = 4)
    (hgood : firstBad (d.freqMaxChecks r) = none) : d.freqMaxMsg mb r = d.freqMaxSet mb r (r.fld 0 1) (r.fld 2 2) :=
  bodyRow_ok d mb r _ hl hgood

/-- BUSY for a fenced cluster named alone; otherwise every cluster named and not fenced takes the ceiling (R369). -/
theorem freqMaxSet_eq (d : Dev) (mb : Nat) (r : MbReq) (cluster mhz : Nat) :
    d.freqMaxSet mb r cluster mhz =
      if cluster ≠ 0xFF ∧ d.cluWake cluster = 4 then d.mbAnswer mb r stBusy []
      else (allClusters.foldl (fun d c => if (cluster = 0xFF || cluster = c) && d.cluWake c ≠ 4 then
        (d.updClu c (fun x => { x with freqMax := mhz })).clampPoint c else d) d).mbAnswer mb r stOk [] := by
  unfold Dev.freqMaxSet
  simp only [Bool.and_eq_true, decide_eq_true_eq]

/-- Settles O45: the body is answered at its first bad field, else it sets the ceilings. The exact length, the reserved byte and the
offsets answered are log entry 89's, the body of Z8_CLK_SET is entry 90's, and the last setting accepted is entry 96's. -/
theorem clusterFreqMax : Obligations.ClusterFreqMax := by
  intro s mb hm
  refine ⟨mbRow_isOp_idle (Dev.freqMaxMsg mb) hm, mbRow_isOp_idle (Dev.freqMaxMsg mb) hm,
    fun r hr => ⟨fun hl => ?length, fun hl hlo hall => ?cluster,
      fun hl hc => ⟨fun hres => ?reserved, fun hres hf => ?freq, fun hres hp hceil => ?accepted⟩⟩⟩
  case length => exact freqMax_rows_serve hr (bodyRow_of_length_ne _ _ _ _ _ hl)
  case cluster => exact freqMax_rows_serve hr (freqMaxMsg_of_bad mb 0 hl (freqMaxChecks_fail_cluster hlo hall))
  case reserved => exact freqMax_rows_serve hr (freqMaxMsg_of_bad mb 1 hl (freqMaxChecks_fail_reserved hc hres))
  case freq => exact freqMax_rows_serve hr (freqMaxMsg_of_bad mb 2 hl (freqMaxChecks_fail_freq hc hres hf))
  case accepted =>
    exact freqMax_rows_serve hr ((freqMaxMsg_of_good mb hl (freqMaxChecks_pass hc hres hp hceil)).trans (freqMaxSet_eq ..))

end Sys2Proof.Machine
end

section
/-! The block as a whole: what a command can answer, what it leaves of the queue, the fuses and a device that does not work, and what
the machine holds at reset. -/

namespace Sys2Proof.Machine

/-- An implication as a disjunction, for the guards of the rows, which are Booleans. -/
theorem imp_iff_neg_or {a b : Prop} : (a → b) ↔ ¬ a ∨ b :=
  ⟨fun h => (Classical.em a).elim (fun ha => .inr (h ha)) .inl, fun h ha => h.elim (absurd ha) id⟩

/-! ### The form of every answer -/

/-- An answer is a fault that names a unit, or a next state that holds the same queue. -/
def KeepsQueue (s : State) (o : Out) : Prop :=
  (∃ k n, o = .fault (.noSuchUnit k n)) ∨ ∃ t, o = .next t ∧ t.pending = s.pending

theorem KeepsQueue.next {s t : State} (h : t.pending = s.pending) : KeepsQueue s (.next t) := .inr ⟨t, rfl, h⟩

theorem KeepsQueue.fault (s : State) (k : String) (n : Nat) : KeepsQueue s (.fault (.noSuchUnit k n)) := .inl ⟨k, n, rfl⟩

theorem KeepsQueue.ite {s : State} {p : Prop} [Decidable p] {a b : Out} (ha : KeepsQueue s a) (hb : KeepsQueue s b) :
    KeepsQueue s (if p then a else b) := by
  split
  · exact ha
  · exact hb

theorem OverDev.keepsQueue {s : State} {o : Out} (h : OverDev s o) : KeepsQueue s o :=
  h.imp id (fun ⟨_, e⟩ => ⟨_, e, rfl⟩)

theorem trustRow_keepsQueue (mb : Nat) (pick : MbReq → Bool) (s : State) (f : Trust → Dev → MbReq → Trust × Dev) :
    KeepsQueue s (trustRow mb pick s f) := by
  obtain h | h | ⟨r, h⟩ := trustRow_cases mb pick s f <;> rw [h]
  · exact .fault s _ _
  · exact .next rfl
  · exact .next rfl

theorem execSvnCommit_keepsQueue (mb : Nat) (s : State) : KeepsQueue s (execSvnCommit mb s) := by
  rw [execSvnCommit_eq]
  exact trustRow_keepsQueue ..

theorem execChallenge_keepsQueue (mb : Nat) (s : State) : KeepsQueue s (execChallenge mb s) := trustRow_keepsQueue ..

theorem execRespond_keepsQueue (mb : Nat) (s : State) : KeepsQueue s (execRespond mb s) := trustRow_keepsQueue ..

theorem execLock_keepsQueue (mb : Nat) (s : State) : KeepsQueue s (execLock mb s) := trustRow_keepsQueue ..

@[simp] theorem resetPins_pending (s : State) (p : Pins) : (resetPins s p).pending = s.pending := by
  unfold resetPins
  dsimp only
  split
  · rfl
  · split <;> rfl

theorem execTestAccessPort_keepsQueue (ir : Nat) (s : State) : KeepsQueue s (execTestAccessPort ir s) := by
  unfold execTestAccessPort
  refine .ite ?_ (.next rfl)
  split <;> exact .next rfl

/-- Every command answers a fault that names a unit, or a next state behind which the same commands wait. -/
theorem exec_keepsQueue (c : Instr) (s : State) : KeepsQueue s (exec c s) := by
  by_cases hown : OwnRow c
  · cases hown with
    | svnCommit mb => exact execSvnCommit_keepsQueue mb s
    | challenge mb => exact execChallenge_keepsQueue mb s
    | respond mb => exact execRespond_keepsQueue mb s
    | lock mb => exact execLock_keepsQueue mb s
    | testAccessPort ir => exact execTestAccessPort_keepsQueue ir s
    | perstN | modResetN | inputGood => exact .ite (.next rfl) (.next (resetPins_pending s _))
    | inputLockout => exact .ite (.next (resetPins_pending s _)) (.next rfl)
    | auxiliaryPowerOn => exact .next rfl
    | vinRange | auxRange | i3cRequest => exact .ite (.next rfl) (.next rfl)
    | strapChanged | gpioEdge => exact .ite (.fault s _ _) (.ite (.next rfl) (.ite (.next rfl) (.next rfl)))
    | i3cAddressed => exact .ite (.fault s _ _) (.ite (.next rfl) (.next rfl))
  · exact (exec_over s hown).keepsQueue

/-! ### Operands in range -/

/-- An answer is a next state. -/
abbrev Goes (o : Out) : Prop := ∃ t, o = .next t

theorem onDev_goes (s : State) (f : Dev → Dev) : Goes (onDev s f) := ⟨_, onDev_eq s f⟩

theorem onUnit_goes {kind : String} {limit n : Nat} (s : State) (f : Dev → Dev) (h : n < limit) : Goes (onUnit kind limit n s f) := by
  unfold onUnit
  rw [if_pos h]
  exact onDev_goes s f

theorem onUnits_goes {us : List (String × Nat × Nat)} (s : State) (f : Dev → Dev) (h : badUnit us = none) : Goes (onUnits us s f) := by
  unfold onUnits
  rw [h]
  exact onDev_goes s f

theorem trustRow_goes {mb : Nat} (pick : MbReq → Bool) (s : State) (f : Trust → Dev → MbReq → Trust × Dev) (h : mb < 8) :
    Goes (trustRow mb pick s f) := by
  unfold trustRow
  rw [if_pos h]
  split <;> exact ⟨_, rfl⟩

theorem Goes.ite {p : Prop} [Decidable p] {a b : Out} (ha : Goes a) (hb : Goes b) : Goes (if p then a else b) := by
  split
  · exact ha
  · exact hb

theorem execRefresh_goes {bank : BankId} (s : State) (h : bankWf bank = true) : Goes (execRefresh bank s) := by
  cases bank with
  | near t layer => exact onUnits_goes s _ (by simp_all [bankWf, below, badUnit])
  | far n pc bg b => exact onUnits_goes s _ (by simp_all [bankWf, below, badUnit])

/-- The spots of a well-formed command are those that the device has. -/
theorem spotExists_of_spotWf {spot : Spot} (h : spotWf spot = true) : spotExists spot = true := by
  cases spot <;> exact h

theorem execSensorSample_goes {spot : Spot} (raw : List (Option Int)) (granules : List Nat) (s : State) (h : spotWf spot = true) :
    Goes (execSensorSample spot raw granules s) := by
  unfold execSensorSample
  rw [if_pos (spotExists_of_spotWf h)]
  exact onDev_goes s _

theorem execTestAccessPort_goes (ir : Nat) (s : State) : Goes (execTestAccessPort ir s) := by
  unfold execTestAccessPort
  refine .ite ?_ ⟨_, rfl⟩
  split <;> exact ⟨_, rfl⟩

theorem bamatRow_goes (p : BamatPkt) (op : Nat) (s : State) (f : Dev → Dev) : Goes (bamatRow p op s f) := onDev_goes s _

theorem lt_of_below {limit n : Nat} (h : below limit n = true) : n < limit := of_decide_eq_true h

theorem memWriteUnits_of_wf {addr : Nat} {data : List Byte} {who : Consumer} (h : wf (.memWrite addr data who) = true) :
    badUnit [("granule", memSize, addr), ("last byte", memSize + 1, addr + data.length)] = none := by
  simp only [wf, Bool.and_eq_true] at h
  obtain ⟨⟨ha, hl⟩, -⟩ := h
  have ha' : addr < memSize := lt_of_below ha
  have hl' : addr + data.length < memSize + 1 := Nat.lt_succ_of_le (of_decide_eq_true hl)
  simp only [badUnit, if_pos ha', if_pos hl']

theorem execMemRead_goes {addr : Nat} {who : Consumer} {err retry : List (Nat × Byte)} (s : State)
    (h : wf (.memRead addr who err retry) = true) : Goes (execMemRead addr who err retry s) := by
  simp only [wf, Bool.and_eq_true] at h
  obtain ⟨⟨⟨ha, -⟩, -⟩, -⟩ := h
  exact onUnit_goes s _ (lt_of_below ha)

theorem execSvnCommit_goes {mb : Nat} (s : State) (h : mb < 8) : Goes (execSvnCommit mb s) := by
  rw [execSvnCommit_eq]
  exact trustRow_goes _ s _ h

/-- The rows of the pins stop at a unit that the device does not have, before anything else. -/
theorem Goes.ite_neg {p : Prop} [Decidable p] {a b : Out} (hp : ¬ p) (hb : Goes b) : Goes (if p then a else b) := by
  rw [if_neg hp]
  exact hb

/-- A command whose operands name units of the device answers a next state. -/
theorem exec_goes {c : Instr} (s : State) (h : wf c = true) : Goes (exec c s) := by
  cases c with
  | registerWrite | rcRead | malformedRead | devConfig | devConfigGet | loadw | loadwt | issue | issuel | drainv | drains |
    rampStep | throttleBubble | vopAdd | vopSub | vopMul | vopFma | vopMin | vopMax | vopAbs | vopNeg | vopCmp | vopSel |
    vopCvt | vopSqrt | vopRcp | vopRsqrt | vopExp2 | vopLog2 | vopDiv | vopExp | vopLog | vopTanh | vopSigmoid | vopSilu |
    vopGelu | vopSubmax | vopScaleinv | vopMaxred | vopSumred | vopMov | vopSplat | ldv | ldg | ldc | mcopyIn | mcopyOut |
    latfill | stv | stg | sendv | recvv | send | recv | gaddi | gadd | gshl | loop | br | bne | ginfo | signal | wait |
    sreset | halt | syncPacket | syncTimeout | streamTimeout | pipeline | pipeBound | pipeDone | epHoldExpiry |
    refreshBoundary | scrub | pimAdd | pimMul | pimMad | pimRelu | pimGelu | pimSilu | pimClamp | pool | pimCmdDone | seqOpen
    | seqClose | poolAdd | append | fork | truncate | fetch | push | sample | sampleRow | gambit | gambitDecision | update |
    updateUnit | audit | reduceScatter | allGather | allReduce | broadcast | allToAll | trainingAttempt | ident | flitReceive
    | resendTimeout | tempoExchange | ethFrame | mirrorAdd | mirrorDel | proxyAdd | proxyDel | flrVf | bmeCleared | sqTail |
    cqHead | hifAdmqTail | hifAdmqHead | hifAdmqCfg | hifHeartbeat | heartbeatLate | heartbeatTimeout | descriptorFetch | nop
    | ctxCreate | ctxDestroy | queueCreate | queueDestroy | queueAdopt | memAlloc | memFree | syncAlloc | syncFree |
    syncOpSignal | syncOpWait | syncOpSreset | copy | copyDone | descriptorTimeout | resignQueue | resignContext |
    resignFunction | resignDevice | resignDone | versionGet | fwLoad | attest | jobOpen | jobClose | dump | traceCfg |
    schedCfg | queueClass | powerSet | clusterFreqMax | gpioSet | gpioGet | timerCfg | timerExpiry | z8Info | z8Attest |
    z8FwLoad | z8CapSet | z8PowerGet | z8PrioSet | z8AgingSet | z8ClkSet | z8Gate | z8CluStatus | convPhaseFailed | ageStep |
    droopBoost | clockStretch | shuntClamp | slopeTokenReturn | keepWarm | mailboxDoorbell | completionTimeout | tempoPps =>
    unfold exec; exact onUnit_goes s _ (by simp_all [wf, below])
  | stream | credit | epArrival | flitCrcFail | sequenceStart | sequenceEnd | smpTimeout | konaocAdd | konaocSub | konaocMul
    | konaocFma | konaocDiv | konaocSqrt | konaocRsqrt | konaocMin | konaocMax | konaocAbs | konaocNeg | konaocSign |
    konaocCmplt | konaocSel | konaocMov | konaocBsum | konaocBmax | konaocPhase | laneDropped | noticeRing | ivrPhaseFailed
    =>
    unfold exec; exact onUnits_goes s _ (by simp_all [wf, below, badUnit])
  | memRead => exact execMemRead_goes s h
  | ceWriteback => exact onUnit_goes s _ (lt_of_below h)
  | memWrite => exact onUnits_goes s _ (memWriteUnits_of_wf h)
  | packetInject | purgeDone | clkFallback | evacPageCopy | pimBudgetWindow | copyOnWrite | ownerHashes | noticeAuditDone |
    auditTimeout | collectiveAcc | plainAccumulate | checkPacket | deadlineD1 | deadlineD2 | collTimeout | localSummary |
    noticeDone | noticeBackupReq | noticeAbandon | allGatherBlock | quietPeriodEnd | hotReset | linkDown | linkUp | flrPf |
    vfEnableCleared | watchdogRestart | readback | urgentWindow | urgentSpent | traceFull | powerSample | cappingWindow |
    freqWindow | flowSample | coolantWindow | leak | stopDone | castled | castleAbandoned | bistDone | pllLockLoss |
    readyLate =>
    unfold exec; exact onDev_goes s _
  | pageRead | pageData | bamatWrite | bamatRead | bamatRdata | bamatAck | bamatSignal | bamatSreset | refuse =>
    unfold exec; exact bamatRow_goes ..
  | refresh bank => exact execRefresh_goes s h
  | sensorSample spot raw granules => exact execSensorSample_goes raw granules s (by simp_all [wf])
  | svnCommit mb => exact execSvnCommit_goes s (lt_of_below h)
  | challenge | respond | lock => unfold exec; exact trustRow_goes _ s _ (lt_of_below h)
  | testAccessPort ir => exact execTestAccessPort_goes ir s
  | perstN | modResetN | inputGood | inputLockout | vinRange | auxRange | i3cRequest => exact .ite ⟨_, rfl⟩ ⟨_, rfl⟩
  | auxiliaryPowerOn => exact ⟨_, rfl⟩
  | strapChanged | gpioEdge => exact .ite_neg (Nat.not_le_of_lt (lt_of_below h)) (.ite ⟨_, rfl⟩ (.ite ⟨_, rfl⟩ ⟨_, rfl⟩))
  | i3cAddressed => exact .ite_neg (Nat.not_le_of_lt (lt_of_below h)) (.ite ⟨_, rfl⟩ ⟨_, rfl⟩)

/-- Settles O8: the units of a well-formed command exist, so its row finds no fault to answer; the form of every answer settles the
rest. -/
theorem commandsComplete : Obligations.CommandsComplete := by
  refine ⟨fun c s h => exec_goes s h, fun c s r h => ?_, fun c s t h => ?_⟩
  · obtain ⟨k, n, e⟩ | ⟨t, e, -⟩ := exec_keepsQueue c s <;> rw [e] at h <;> cases h
  · obtain ⟨k, n, e⟩ | ⟨u, e, hu⟩ := exec_keepsQueue c s <;> rw [e] at h <;> cases h
    exact hu

/-! ### The fuses and the debug unlock -/

/-- A next state, if this is one, holds the fuses and the debug unlock of `s`. -/
def KeepsTrust (s : State) (o : Out) : Prop := ∀ t, o = .next t → t.trust = s.trust

theorem KeepsTrust.next {s t : State} (h : t.trust = s.trust) : KeepsTrust s (.next t) := by
  rintro _ ⟨⟩; exact h

theorem KeepsTrust.fault (s : State) (e : Fault) : KeepsTrust s (.fault e) := fun _ h => nomatch h

theorem KeepsTrust.ite {s : State} {p : Prop} [Decidable p] {a b : Out} (ha : KeepsTrust s a) (hb : KeepsTrust s b) :
    KeepsTrust s (if p then a else b) := by
  split
  · exact ha
  · exact hb

/-- Settles O7: beside the ten named, a command answers through a shared row over the device, or is one of the six pins and
supplies whose rows change the device alone. -/
theorem onlyTrustCommandsReachTrust : Obligations.OnlyTrustCommandsReachTrust := by
  intro c s t hmsg htap hrst hgood hlock haux h
  refine (?_ : KeepsTrust s (exec c s)) t h
  by_cases hown : OwnRow c
  · cases hown with
    | svnCommit mb => exact absurd rfl (hmsg mb).1
    | challenge mb => exact absurd rfl (hmsg mb).2.1
    | respond mb => exact absurd rfl (hmsg mb).2.2.1
    | lock mb => exact absurd rfl (hmsg mb).2.2.2
    | testAccessPort ir => exact absurd rfl (htap ir)
    | perstN l => exact absurd rfl (hrst l).1
    | modResetN l => exact absurd rfl (hrst l).2
    | inputGood => exact absurd rfl hgood
    | inputLockout v => exact absurd rfl (hlock v)
    | auxiliaryPowerOn => exact absurd rfl haux
    | vinRange | auxRange | i3cRequest => exact .ite (.next rfl) (.next rfl)
    | strapChanged | gpioEdge => exact .ite (.fault s _) (.ite (.next rfl) (.ite (.next rfl) (.next rfl)))
    | i3cAddressed => exact .ite (.fault s _) (.ite (.next rfl) (.next rfl))
  · exact fun _ e => (exec_over s hown).trust e

/-- A next state, if this is one, keeps the fuses and the debug unlock in their ranges. -/
def KeepsTrustOk (s : State) (o : Out) : Prop := ∀ t, o = .next t → s.trust.ok → t.trust.ok

theorem KeepsTrustOk.next {s t : State} (h : s.trust.ok → t.trust.ok) : KeepsTrustOk s (.next t) := by
  rintro _ ⟨⟩; exact h

theorem KeepsTrustOk.fault (s : State) (e : Fault) : KeepsTrustOk s (.fault e) := fun _ h => nomatch h

theorem KeepsTrustOk.ite {s : State} {p : Prop} [Decidable p] {a b : Out} (ha : KeepsTrustOk s a) (hb : KeepsTrustOk s b) :
    KeepsTrustOk s (if p then a else b) := by
  split
  · exact ha
  · exact hb

theorem KeepsTrust.keepsTrustOk {s : State} {o : Out} (h : KeepsTrust s o) : KeepsTrustOk s o := fun t e hok => h t e ▸ hok

theorem trustRow_keepsTrustOk {mb : Nat} {pick : MbReq → Bool} {s : State} {f : Trust → Dev → MbReq → Trust × Dev}
    (hf : ∀ t d r, Trust.ok t → (f t d r).1.ok) : KeepsTrustOk s (trustRow mb pick s f) := by
  obtain h | h | ⟨r, h⟩ := trustRow_cases mb pick s f <;> rw [h]
  · exact .fault s _
  · exact .next id
  · exact .next (hf s.trust s.dev r)

/-- A reset locks the debug unlock and leaves the fuses. -/
theorem Trust.relock_ok {t : Trust} (h : t.ok) : t.relock.ok := ⟨h.1, Nat.le_refl 0, Nat.zero_le 2⟩

theorem resetPins_trustOk {s : State} (p : Pins) (h : s.trust.ok) : (resetPins s p).trust.ok := by
  unfold resetPins
  dsimp only
  split
  · exact Trust.relock_ok h
  · split <;> exact h

theorem svnCommitted_trustOk (mb : Nat) (t : Trust) (d : Dev) (r : MbReq) (h : t.ok) : (svnCommitted mb t d r).1.ok := by
  unfold svnCommitted
  split
  · exact h
  split
  · next hr => exact ⟨hr.2, h.2⟩
  · exact h

theorem execSvnCommit_keepsTrustOk (mb : Nat) (s : State) : KeepsTrustOk s (execSvnCommit mb s) := by
  rw [execSvnCommit_eq]
  exact trustRow_keepsTrustOk (svnCommitted_trustOk mb)

theorem execChallenge_keepsTrustOk (mb : Nat) (s : State) : KeepsTrustOk s (execChallenge mb s) :=
  trustRow_keepsTrustOk fun t d r h => by
    dsimp only
    split
    · exact h
    split
    · exact h
    split <;> exact h

/-- The scope that RESPOND has checked is 1 or 2, so the state it unlocks is FULL at most (R413). -/
theorem scope_le_of_firstBad {scope : Nat} {l : List (Nat × Bool)}
    (h : firstBad ((1, decide (scope < 1) || decide (2 < scope)) :: l) = none) : scope ≤ 2 := by
  refine Nat.le_of_not_lt fun hs => ?_
  simp [firstBad, hs] at h

theorem execRespond_keepsTrustOk (mb : Nat) (s : State) : KeepsTrustOk s (execRespond mb s) :=
  trustRow_keepsTrustOk fun t d r h => by
    obtain ⟨hsvn, hdebug, hhigh⟩ := h
    dsimp only
    split
    · exact ⟨hsvn, hdebug, hhigh⟩
    split
    · exact ⟨hsvn, hdebug, hhigh⟩
    next hgood =>
    have hscope : r.fld 1 1 ≤ 2 := scope_le_of_firstBad hgood
    split
    · exact ⟨hsvn, hdebug, hhigh⟩
    split
    · exact ⟨hsvn, hdebug, hhigh⟩
    · exact ⟨hsvn, Nat.le_max_right _ _, by simp only; omega⟩

theorem execLock_keepsTrustOk (mb : Nat) (s : State) : KeepsTrustOk s (execLock mb s) :=
  trustRow_keepsTrustOk fun t d r h => by
    obtain ⟨hsvn, hdebug, hhigh⟩ := h
    split
    · exact ⟨hsvn, hdebug, hhigh⟩
    split
    · exact ⟨hsvn, hdebug, hhigh⟩
    split
    · exact ⟨hsvn, Nat.zero_le _, hhigh⟩
    · exact ⟨hsvn, hdebug, hhigh⟩

theorem execTestAccessPort_keepsTrustOk (ir : Nat) (s : State) : KeepsTrustOk s (execTestAccessPort ir s) := by
  unfold execTestAccessPort
  split
  · split <;> exact .next id
  · exact .next id

/-- Every command keeps the ranges: the ten that reach the fuses and the unlock are settled one by one, the others leave both. -/
theorem exec_keepsTrustOk (c : Instr) (s : State) : KeepsTrustOk s (exec c s) := by
  by_cases hown : OwnRow c
  · cases hown with
    | svnCommit mb => exact execSvnCommit_keepsTrustOk mb s
    | challenge mb => exact execChallenge_keepsTrustOk mb s
    | respond mb => exact execRespond_keepsTrustOk mb s
    | lock mb => exact execLock_keepsTrustOk mb s
    | testAccessPort ir => exact execTestAccessPort_keepsTrustOk ir s
    | perstN | modResetN => exact .ite (.next id) (.next (resetPins_trustOk _))
    | inputGood => exact .ite (.next id) (.next (resetPins_trustOk _))
    | inputLockout => exact .ite (.next (resetPins_trustOk _)) (.next id)
    | auxiliaryPowerOn => exact .next Trust.relock_ok
    | vinRange | auxRange | i3cRequest => exact .ite (.next id) (.next id)
    | strapChanged | gpioEdge => exact .ite (.fault s _) (.ite (.next id) (.ite (.next id) (.next id)))
    | i3cAddressed => exact .ite (.fault s _) (.ite (.next id) (.next id))
  · have h : KeepsTrust s (exec c s) := fun _ e => (exec_over s hown).trust e
    exact h.keepsTrustOk

/-- Settles O5: a step is an idle one, which touches neither fuses nor unlock, or a command. -/
theorem everyStepKeepsTrustOk : Obligations.EveryStepKeepsTrustOk := by
  intro s t hok h
  unfold step at h
  split at h
  · cases h; exact s.idle_trust ▸ hok
  · next c rest _ => exact exec_keepsTrustOk c { s with pending := rest } t h hok

/-! ### A device that does not work -/

/-- The firmware of a device that does not work serves no message, so a row over the unlock does nothing. -/
theorem trustRow_dead {mb : Nat} {pick : MbReq → Bool} {s t : State} {f : Trust → Dev → MbReq → Trust × Dev}
    (hd : s.dev.alive = false) (h : trustRow mb pick s f = .next t) : t = s := by
  have hn : s.dev.fwRequest mb pick = none := by simp [Dev.fwRequest, hd]
  unfold trustRow at h
  rw [hn] at h
  split at h <;> cases h
  rfl

theorem execSvnCommit_dead {mb : Nat} {s t : State} (hd : s.dev.alive = false) (h : execSvnCommit mb s = .next t) : t = s :=
  trustRow_dead hd (execSvnCommit_eq mb s ▸ h)

theorem execTestAccessPort_dead {ir : Nat} {s t : State} (hd : s.dev.alive = false) (h : execTestAccessPort ir s = .next t) :
    t = s := by
  simp only [execTestAccessPort, hd, Bool.false_and, Bool.false_eq_true, if_false] at h
  cases h; rfl

/-- Settles O9: the shared rows over the device leave one that does not work; so do the unlock's rows and the test access port.
That such a command is accepted and does nothing is the model's choice (log entries 7 and 9). -/
theorem deadDeviceDoesNothing : Obligations.DeadDeviceDoesNothing := by
  intro c s t hd hrst hgood hsup haux hnum hgpio hreq h
  by_cases hown : OwnRow c
  · cases hown with
    | svnCommit mb => exact execSvnCommit_dead hd h
    | challenge | respond | lock => unfold exec at h; exact trustRow_dead hd h
    | testAccessPort ir => exact execTestAccessPort_dead hd h
    | perstN l => exact absurd rfl (hrst l).1
    | modResetN l => exact absurd rfl (hrst l).2
    | inputGood => exact absurd rfl hgood
    | inputLockout v => exact absurd rfl (hsup v).1
    | vinRange v => exact absurd rfl (hsup v).2.1
    | auxRange v => exact absurd rfl (hsup v).2.2
    | auxiliaryPowerOn => exact absurd rfl haux
    | strapChanged n => exact absurd rfl (hnum n).1
    | i3cAddressed n => exact absurd rfl (hnum n).2
    | gpioEdge g l => exact absurd rfl (hgpio g l)
    | i3cRequest r => exact absurd rfl (hreq r)
  · exact (exec_over s hown).dead hd h

/-! ### Steps and reset -/

/-- Settles O1: `step` takes the front of the queue. -/
theorem stepRunsFrontCommand : Obligations.StepRunsFrontCommand := fun _ _ => rfl

/-- Settles O3: no register is listed and no memory written at reset, so each reads what an unlisted one does. That unwritten memory
reads 0 is log entry 4's choice. -/
theorem resetState : Obligations.ResetState :=
  ⟨rfl, rfl, rfl, by decide, by decide, by decide, rfl, by decide, rfl, rfl, rfl, fun _ => rfl, fun _ => rfl,
    reset_memories_wf.1, reset_memories_wf.2.2⟩

/-- Settles O4: everything in the fuses and the unlock is 0 at reset. -/
theorem trustOkAtReset : Obligations.TrustOkAtReset := ⟨Nat.zero_le 64, Nat.le_refl 0, Nat.zero_le 2⟩

end Sys2Proof.Machine
end

section
/-! What a measurement leaves of the work: the quantities of power and cooling live in registers, the log and the power data alone
(R352, R356, R359, R392). -/

namespace Sys2Proof.Machine

/-- Two devices that hold the same work: tiles, queues, contexts, memory, sync waits, packets and the host's memory. -/
structure Dev.SameWork (e d : Dev) : Prop where
  tiles : e.tiles = d.tiles
  queues : e.queues = d.queues
  ctxs : e.ctxs = d.ctxs
  mem : e.mem = d.mem
  waits : e.waits = d.waits
  noc : e.noc = d.noc
  hostMem : e.host.mem = d.host.mem

theorem Dev.SameWork.refl (d : Dev) : d.SameWork d := ⟨rfl, rfl, rfl, rfl, rfl, rfl, rfl⟩

theorem Dev.SameWork.trans {a b c : Dev} (h : b.SameWork a) (k : c.SameWork b) : c.SameWork a :=
  ⟨k.tiles.trans h.tiles, k.queues.trans h.queues, k.ctxs.trans h.ctxs, k.mem.trans h.mem, k.waits.trans h.waits,
    k.noc.trans h.noc, k.hostMem.trans h.hostMem⟩

theorem Dev.SameWork.ite {d a b : Dev} {p : Prop} [Decidable p] (ha : a.SameWork d) (hb : b.SameWork d) :
    (if p then a else b).SameWork d := by
  split
  · exact ha
  · exact hb

/-- What is told reaches no work. -/
theorem Dev.toldFrom.sameWork {e d : Dev} (h : e.toldFrom d) : e.SameWork d := by
  rw [h]
  exact ⟨rfl, rfl, rfl, rfl, rfl, rfl, rfl⟩

theorem Dev.SameWork.setFld {d e : Dev} (h : e.SameWork d) (o : Nat) (f : Field) (v : Nat) : (e.setFld o f v).SameWork d :=
  h.trans (Dev.setFld_told e o f v).sameWork

theorem Dev.SameWork.satFld {d e : Dev} (h : e.SameWork d) (o : Nat) (f : Field) (n : Nat) : (e.satFld o f n).SameWork d :=
  h.trans (Dev.satFld_told e o f n).sameWork

theorem Dev.SameWork.raisePwr {d e : Dev} (h : e.SameWork d) (code unit : Nat) (own : List Nat) :
    (e.raisePwr code unit own).SameWork d :=
  h.trans (Dev.raisePwr_told e code unit own).sameWork

theorem Dev.updClu_sameWork (d : Dev) (c : Nat) (f : ClusterPwr → ClusterPwr) : (d.updClu c f).SameWork d :=
  ⟨rfl, rfl, rfl, rfl, rfl, rfl, rfl⟩

theorem Dev.windowOpens_sameWork (d : Dev) (kind unit : Nat) : (d.windowOpens kind unit).SameWork d :=
  ⟨rfl, rfl, rfl, rfl, rfl, rfl, rfl⟩

theorem Dev.stressAccount_sameWork (d : Dev) (c : Nat) : (d.stressAccount c).SameWork d :=
  (d.updClu_sameWork c _).setFld _ _ _

theorem Dev.warmNone_sameWork (d : Dev) (c : Nat) : (d.warmNone c).SameWork d :=
  (((Dev.SameWork.refl d).setFld _ _ _).setFld _ _ _).setFld _ _ _

theorem Dev.warmIssues_sameWork (d : Dev) (c : Nat) : (d.warmIssues c).SameWork d := by
  unfold Dev.warmIssues
  refine (Dev.fold_told _ (fun d t => ?_) _ d).sameWork
  split
  · rfl
  · exact Dev.wrapFld_told ..

/-- A next state, if this is one, holds the work, the fuses and the debug unlock of `s`. -/
def KeepsWork (s : State) (o : Out) : Prop := ∀ t, o = .next t → t.dev.SameWork s.dev ∧ t.trust = s.trust

theorem onDev_keepsWork {s : State} {f : Dev → Dev} (h : ∀ d, (f d).SameWork d) : KeepsWork s (onDev s f) := by
  unfold onDev
  split
  · rintro t ⟨⟩; exact ⟨h s.dev, rfl⟩
  · rintro t ⟨⟩; exact ⟨.refl s.dev, rfl⟩

theorem onUnit_keepsWork {kind : String} {limit n : Nat} {s : State} {f : Dev → Dev} (h : ∀ d, (f d).SameWork d) :
    KeepsWork s (onUnit kind limit n s f) := by
  unfold onUnit
  split
  · exact onDev_keepsWork h
  · intro t e; cases e

theorem execDroopBoost_keepsWork (c : Nat) (s : State) : KeepsWork s (execDroopBoost c s) :=
  onUnit_keepsWork fun d => .ite ((Dev.SameWork.refl d).satFld _ _ _) (.refl d)

theorem execShuntClamp_keepsWork (c : Nat) (s : State) : KeepsWork s (execShuntClamp c s) :=
  onUnit_keepsWork fun d => .ite ((Dev.SameWork.refl d).satFld _ _ _) (.refl d)

theorem execClockStretch_keepsWork (c : Nat) (s : State) : KeepsWork s (execClockStretch c s) :=
  onUnit_keepsWork fun d => by
    have counted := (d.updClu_sameWork c (fun x => { x with
      stretchWindow := d.now / 1000000
      stretchCount := if (d.clu c).stretchWindow = d.now / 1000000 then (d.clu c).stretchCount + 1 else 1 })).satFld
        (R.CLU_DROOP c) F.CLU_DROOP_STRETCHES 1
    exact .ite (.refl d) (.ite (counted.raisePwr _ _ _) counted)

/-- The margin that has risen is shown, and moves the voltage of an ungated cluster. -/
theorem execAgeStep_keepsWork (c : Nat) (s : State) : KeepsWork s (execAgeStep c s) :=
  onUnit_keepsWork fun d => by
    have aged := (d.stressAccount_sameWork c)
    exact .ite ((Dev.SameWork.ite ((aged.setFld _ _ _).setFld _ _ _) (aged.setFld _ _ _)).raisePwr _ _ _) aged

theorem execKeepWarm_keepsWork (c : Nat) (s : State) : KeepsWork s (execKeepWarm c s) :=
  onUnit_keepsWork fun d => by
    have opened := d.windowOpens_sameWork 3 c
    have issued := Dev.SameWork.ite (p := (d.windowOpens 3 c).fld (R.THM_CLU c) F.THM_CLU_KW_DUTY = 0) opened
      (opened.trans (Dev.warmIssues_sameWork _ c))
    exact .ite (.ite issued (.ite (issued.trans (Dev.warmNone_sameWork _ c))
      (((issued.setFld _ _ _).setFld _ _ _).setFld _ _ _))) (.refl d)

/-- A sample counts energy, shows the voltage, and above 3,600 W sets F. -/
theorem execPowerSample_keepsWork (v i : Nat) (s : State) : KeepsWork s (execPowerSample v i s) :=
  onDev_keepsWork fun d => by
    have counted : ∀ (p : Pwr) (w : Word) (n : Nat), ((({ d with pwr := p } : Dev).setReg R.PWR_E_INPUT w).setFld R.PWR_CONV
      F.PWR_CONV_VIN n).SameWork d := fun _ _ _ => ⟨rfl, rfl, rfl, rfl, rfl, rfl, rfl⟩
    have guarded : ∀ (e : Dev) (p : Pwr), e.SameWork d → ({ e with pwr := p } : Dev).SameWork d :=
      fun e p h => h.trans ⟨rfl, rfl, rfl, rfl, rfl, rfl, rfl⟩
    exact .ite ((guarded _ _ ((counted _ _ _).satFld _ _ _)).trans (Dev.setF_told _ _).sameWork) (counted _ _ _)

/-- Settles O60: each of the six rows writes registers, the log and the power data, and none of these is work. -/
theorem measurementsLeaveWork : Obligations.MeasurementsLeaveWork := by
  intro c s t hc h
  obtain ⟨⟨tiles, queues, ctxs, mem, waits, noc, hostMem⟩, trust⟩ : t.dev.SameWork s.dev ∧ t.trust = s.trust := by
    obtain ⟨k, rfl | rfl | rfl | rfl | rfl⟩ | ⟨v, i, rfl⟩ := hc
    · exact execDroopBoost_keepsWork k s t h
    · exact execClockStretch_keepsWork k s t h
    · exact execShuntClamp_keepsWork k s t h
    · exact execAgeStep_keepsWork k s t h
    · exact execKeepWarm_keepsWork k s t h
    · exact execPowerSample_keepsWork v i s t h
  exact ⟨tiles, queues, ctxs, mem, waits, noc, hostMem, trust⟩

end Sys2Proof.Machine
end

section
/-! A memory write: the run's own bytes, and nothing else but the hold of the in-stack units (R130, R138, R143, R144, R167). -/

namespace Sys2Proof.Machine

/-- A run inside memory names no unit that the device lacks. -/
theorem memWriteUnits_in {a len : Nat} (ha : a < memSize) (hl : a + len ≤ memSize) :
    badUnit [("granule", memSize, a), ("last byte", memSize + 1, a + len)] = none := by
  simp only [badUnit, if_pos ha, if_pos (Nat.lt_succ_of_le hl)]

/-- What MEM_WRITE does to the device. -/
theorem exec_memWrite {s : State} {a : Nat} {bs : List Byte} (who : Consumer) (hal : s.dev.alive = true) (ha : a < memSize)
    (hl : a + bs.length ≤ memSize) : exec (.memWrite a bs who) s = .next (s.withDev
      (if s.dev.accessOwned who a bs.length = false then s.dev.accessRefused who
      else if s.dev.laneBusy a then s.dev.holdReq a (.write a bs who) else s.dev.serveWrite a bs who)) :=
  onUnits_alive _ (memWriteUnits_in ha hl) hal

/-- Where the stack runs no sequence, no granule of a run is held. -/
theorem Dev.holdRun_of_no_seqs {d : Dev} {a : Nat} (len : Nat) (h : (d.pimStack (stackOf (d.phys a))).seqs = []) :
    d.holdRun a len = d := by
  simp [Dev.holdRun, h]

/-! ### What serving the write answers -/

theorem Dev.serveWrite_nil (d : Dev) (a : Nat) (who : Consumer) : d.serveWrite a [] who = d := rfl

/-- Counting the hold changes neither contexts nor tiles, so a consumer makes the same access. -/
@[simp] theorem Dev.holdRun_accessOf (d : Dev) (a len : Nat) (who : Consumer) :
    (d.holdRun a len).accessOf who = d.accessOf who := by
  rw [d.holdRun_frame a len]
  cases who <;> rfl

section
variable {d g : Dev} {a : Nat} {bs : List Byte} (who : Consumer) (hb : bs ≠ [])
include hb

/-- Where no special granule of the run fails, all of it is written. -/
theorem Dev.serveWrite_of_written (h : (d.holdRun a bs.length).writeGranules ((d.holdRun a bs.length).accessOf who) a bs.length
    ((d.holdRun a bs.length).writeSpecial a (a + bs.length)) = (g, none)) : d.serveWrite a bs who = g.poke a bs := by
  rw [Dev.holdRun_accessOf] at h
  simp only [Dev.serveWrite, Dev.memWriteRun, List.isEmpty_eq_false_iff.2 hb, Bool.false_eq_true, if_false, h]

/-- Where one fails, what lies before it is written and the consumer ends there. -/
theorem Dev.serveWrite_of_failed {f : Nat} (h : (d.holdRun a bs.length).writeGranules ((d.holdRun a bs.length).accessOf who) a
    bs.length ((d.holdRun a bs.length).writeSpecial a (a + bs.length)) = (g, some f)) :
    d.serveWrite a bs who = (g.poke a (bs.take (f - a))).consumerFails who f := by
  rw [Dev.holdRun_accessOf] at h
  simp only [Dev.serveWrite, Dev.memWriteRun, List.isEmpty_eq_false_iff.2 hb, Bool.false_eq_true, if_false, h]

/-- Where no granule of the run is special, its bytes are stored. -/
theorem Dev.serveWrite_clean (h : (d.holdRun a bs.length).writeSpecial a (a + bs.length) = []) :
    d.serveWrite a bs who = (d.holdRun a bs.length).poke a bs := by
  simp only [Dev.serveWrite, Dev.memWriteRun_clean (List.isEmpty_eq_false_iff.2 hb) h]

end

/-! ### A clean run -/

theorem Dev.holdRun_poke_cells (d : Dev) (a len : Nat) (bs : List Byte) :
    ((d.holdRun a len).poke a bs).mem.cells = writeCells d.mem.cells a bs := by
  rw [d.holdRun_frame a len]
  rfl

/-- What a clean run changes: its cells, and the registers and units that count the hold. -/
theorem Dev.holdRun_poke_frame (d : Dev) (a len : Nat) (bs : List Byte) : (d.holdRun a len).poke a bs =
    { d with
      mem := { d.mem with cells := ((d.holdRun a len).poke a bs).mem.cells }
      regs := ((d.holdRun a len).poke a bs).regs
      pim := ((d.holdRun a len).poke a bs).pim } := by
  rw [d.holdRun_frame a len]
  rfl

/-- Settles O29: a run that meets nothing special is the cells' own write; the granules that need more are met in address order, and
the first that cannot be written ends the consumer. -/
theorem memoryWriteStoresItsBytes : Obligations.MemoryWriteStoresItsBytes := by
  intro s a bs who hal ha hl
  have run := exec_memWrite (s := s) who hal ha hl
  refine ⟨fun ho => by rw [run, if_pos ho], fun ho hb => by rw [run, if_neg (by simp [ho]), if_pos hb], fun ho hb => ?_⟩
  rw [if_neg (by simp [ho]), if_neg (by simp [hb])] at run
  dsimp only
  rw [run]
  refine ⟨fun he => by subst he; rfl, fun he clean => ⟨_, rfl, ?_⟩,
    fun g he h => by rw [Dev.serveWrite_of_written who he h], fun g f he h => by rw [Dev.serveWrite_of_failed who he h]⟩
  rw [Dev.serveWrite_clean who he clean]
  have cells := s.dev.holdRun_poke_cells a bs.length bs
  refine ⟨fun hwf => ?_, fun i hi => ?_, fun x hx => ?_, ?_, fun hn => ?_⟩
  · exact cells ▸ writeCells_wf bs hwf
  · exact cells ▸ writeCells_same bs _ hi
  · exact cells ▸ writeCells_other bs _ (by omega)
  · exact congrArg s.withDev (s.dev.holdRun_poke_frame a bs.length bs)
  · rw [Dev.holdRun_of_no_seqs _ hn]; exact ⟨rfl, rfl⟩

end Sys2Proof.Machine
end

section
/-! Commands that name a unit the device does not have (log entry 2): the unit a command names first, and the fault where it lies
beyond the device. -/

namespace Sys2Proof.Machine

/-- The unit that a command's row looks for first: its kind, how many the device has, and the number named. -/
def firstUnit : Instr → Option (String × Nat × Nat)
  | .registerWrite n _ _ _ | .rcRead n _ _ | .malformedRead n _ _ | .flrVf n | .bmeCleared n | .sqTail n _ _ _ _ | .cqHead n _ _ _
  | .hifAdmqTail n _ _ _ | .hifAdmqHead n _ _ | .hifAdmqCfg n _ _ | .hifHeartbeat n _ _ | .heartbeatLate n | .heartbeatTimeout n
  | .resignQueue n _ | .resignContext n _ | .resignFunction n _ | .resignDevice n | .resignDone n => some ("function", 64, n)
  | .devConfig n | .devConfigGet n | .versionGet n | .fwLoad n | .svnCommit n | .attest n | .challenge n | .respond n | .lock n
  | .jobOpen n | .jobClose n | .dump n | .traceCfg n | .schedCfg n | .queueClass n | .powerSet n | .clusterFreqMax n | .gpioSet n
  | .gpioGet n | .timerCfg n | .z8Info n | .z8Attest n | .z8FwLoad n | .z8CapSet n | .z8PowerGet n | .z8PrioSet n | .z8AgingSet n
  | .z8ClkSet n | .z8Gate n | .z8CluStatus n | .mailboxDoorbell n _ _ _ => some ("mailbox", 8, n)
  | .loadw n _ | .loadwt n _ | .issue n _ | .issuel n | .drainv n | .drains n | .rampStep n _ | .vopAdd n | .vopSub n | .vopMul n
  | .vopFma n | .vopMin n | .vopMax n | .vopAbs n | .vopNeg n | .vopCmp n | .vopSel n | .vopCvt n | .vopSqrt n | .vopRcp n
  | .vopRsqrt n | .vopExp2 n | .vopLog2 n | .vopDiv n | .vopExp n | .vopLog n | .vopTanh n | .vopSigmoid n | .vopSilu n
  | .vopGelu n | .vopSubmax n | .vopScaleinv n | .vopMaxred n | .vopSumred n | .vopMov n | .vopSplat n | .ldv n _ | .ldg n _
  | .ldc n | .mcopyIn n | .mcopyOut n _ | .latfill n | .stv n | .stg n | .sendv n | .recvv n | .send n _ | .recv n | .gaddi n
  | .gadd n | .gshl n | .loop n | .br n | .bne n | .ginfo n | .signal n | .wait n | .sreset n | .halt n | .streamTimeout n
  | .refreshBoundary n _ => some ("tile", 256, n)
  | .throttleBubble n | .ivrPhaseFailed n _ | .ageStep n | .droopBoost n | .clockStretch n | .shuntClamp n | .keepWarm n
  => some ("cluster", 16, n)
  | .syncPacket _ _ n _ => some ("sync object", 16384, n)
  | .syncTimeout n _ => some ("sync object", 16384, n)
  | .stream n _ _ | .credit n _ _ => some ("stream", 4096, n)
  | .pipeline n | .pimAdd n | .pimMul n | .pimMad n | .pimRelu n | .pimGelu n | .pimSilu n | .pimClamp n | .pool n | .seqOpen n
  | .seqClose n | .poolAdd n | .append n | .fork n | .truncate n | .fetch n | .push n | .sample n | .gambit n | .update n
  | .audit n | .reduceScatter n | .allGather n | .allReduce n | .broadcast n | .allToAll n | .mirrorAdd n | .mirrorDel n
  | .proxyAdd n | .proxyDel n | .nop n | .memAlloc n | .memFree n | .syncAlloc n | .syncFree n | .syncOpSignal n | .syncOpWait n
  | .syncOpSreset n | .copy n | .copyDone n _ => some ("queue", 4096, n)
  | .pipeBound n | .pipeDone n => some ("pipeline", 4096, n)
  | .epArrival n _ _ _ | .epHoldExpiry n | .flitCrcFail n _ _ => some ("router", 320, n)
  | .memRead n _ _ _ | .memWrite n _ _ | .ceWriteback n => some ("granule", memSize, n)
  | .scrub n _ _ => some ("controller", 272, n)
  | .sequenceStart n _ _ | .sequenceEnd n _ | .pimCmdDone n => some ("stack", 16, n)
  | .sampleRow n | .smpTimeout n _ | .gambitDecision n => some ("sampler", 16, n)
  | .updateUnit n | .konaocAdd n _ _ _ | .konaocSub n _ _ _ | .konaocMul n _ _ _ | .konaocFma n _ _ _ _ | .konaocDiv n _ _ _
  | .konaocSqrt n _ _ | .konaocRsqrt n _ _ | .konaocMin n _ _ _ | .konaocMax n _ _ _ | .konaocAbs n _ _ | .konaocNeg n _ _
  | .konaocSign n _ _ | .konaocCmplt n _ _ _ | .konaocSel n _ _ _ _ | .konaocMov n _ _ | .konaocBsum n _ _ | .konaocBmax n _ _
  | .konaocPhase n => some ("engine", 16, n)
  | .trainingAttempt n _ | .ident n _ | .laneDropped n _ | .flitReceive n _ | .resendTimeout n | .tempoExchange n _ _
  | .ethFrame n _ _ _ _ => some ("port", 32, n)
  | .noticeRing n _ _ => some ("dimension", 5, n)
  | .descriptorFetch n | .ctxCreate n | .ctxDestroy n | .queueCreate n | .queueDestroy n | .queueAdopt n | .descriptorTimeout n _
  | .completionTimeout n _ => some ("queue", 4160, n)
  | .timerExpiry n => some ("timer", 4, n)
  | .convPhaseFailed n => some ("converter phase", 12, n)
  | .slopeTokenReturn n => some ("quadrant", 4, n)
  | .strapChanged n => some ("slot", 16, n)
  | .gpioEdge n _ | .tempoPps n => some ("GPIO", 8, n)
  | .i3cAddressed n => some ("I3C address", 128, n)
  | _ => none

theorem onUnit_beyond {kind : String} {limit n : Nat} (s : State) (f : Dev → Dev) (h : limit ≤ n) :
    onUnit kind limit n s f = .fault (.noSuchUnit kind n) := if_neg (Nat.not_lt_of_le h)

theorem onUnits_beyond {kind : String} {limit n : Nat} {us : List (String × Nat × Nat)} (s : State) (f : Dev → Dev)
    (h : limit ≤ n) : onUnits ((kind, limit, n) :: us) s f = .fault (.noSuchUnit kind n) := by
  simp only [onUnits, badUnit, if_neg (Nat.not_lt_of_le h)]

theorem trustRow_beyond {mb : Nat} (pick : MbReq → Bool) (s : State) (f : Trust → Dev → MbReq → Trust × Dev) (h : 8 ≤ mb) :
    trustRow mb pick s f = .fault (.noSuchUnit "mailbox" mb) := if_neg (Nat.not_lt_of_le h)

/-- A command stops at the first unit that it names where the device does not have it. -/
theorem exec_beyond {c : Instr} {kind : String} {limit n : Nat} (s : State) (hu : firstUnit c = some (kind, limit, n))
    (h : limit ≤ n) : exec c s = .fault (.noSuchUnit kind n) := by
  cases c with
  | registerWrite | rcRead | malformedRead | devConfig | devConfigGet | loadw | loadwt | issue | issuel | drainv | drains |
    rampStep | throttleBubble | vopAdd | vopSub | vopMul | vopFma | vopMin | vopMax | vopAbs | vopNeg | vopCmp | vopSel | vopCvt |
    vopSqrt | vopRcp | vopRsqrt | vopExp2 | vopLog2 | vopDiv | vopExp | vopLog | vopTanh | vopSigmoid | vopSilu | vopGelu |
    vopSubmax | vopScaleinv | vopMaxred | vopSumred | vopMov | vopSplat | ldv | ldg | ldc | mcopyIn | mcopyOut | latfill | stv |
    stg | sendv | recvv | send | recv | gaddi | gadd | gshl | loop | br | bne | ginfo | signal | wait | sreset | halt | syncPacket
    | syncTimeout | streamTimeout | pipeline | pipeBound | pipeDone | epHoldExpiry | memRead | ceWriteback | refreshBoundary |
    scrub | pimAdd | pimMul | pimMad | pimRelu | pimGelu | pimSilu | pimClamp | pool | pimCmdDone | seqOpen | seqClose | poolAdd |
    append | fork | truncate | fetch | push | sample | sampleRow | gambit | gambitDecision | update | updateUnit | audit |
    reduceScatter | allGather | allReduce | broadcast | allToAll | trainingAttempt | ident | flitReceive | resendTimeout |
    tempoExchange | ethFrame | mirrorAdd | mirrorDel | proxyAdd | proxyDel | flrVf | bmeCleared | sqTail | cqHead | hifAdmqTail |
    hifAdmqHead | hifAdmqCfg | hifHeartbeat | heartbeatLate | heartbeatTimeout | descriptorFetch | nop | ctxCreate | ctxDestroy |
    queueCreate | queueDestroy | queueAdopt | memAlloc | memFree | syncAlloc | syncFree | syncOpSignal | syncOpWait | syncOpSreset
    | copy | copyDone | descriptorTimeout | resignQueue | resignContext | resignFunction | resignDevice | resignDone | versionGet
    | fwLoad | attest | jobOpen | jobClose | dump | traceCfg | schedCfg | queueClass | powerSet | clusterFreqMax | gpioSet |
    gpioGet | timerCfg | timerExpiry | z8Info | z8Attest | z8FwLoad | z8CapSet | z8PowerGet | z8PrioSet | z8AgingSet | z8ClkSet |
    z8Gate | z8CluStatus | convPhaseFailed | ageStep | droopBoost | clockStretch | shuntClamp | slopeTokenReturn | keepWarm |
    mailboxDoorbell | completionTimeout | tempoPps =>
    cases hu; exact onUnit_beyond s _ h
  | stream | credit | epArrival | flitCrcFail | memWrite | sequenceStart | sequenceEnd | smpTimeout | konaocAdd | konaocSub |
    konaocMul | konaocFma | konaocDiv | konaocSqrt | konaocRsqrt | konaocMin | konaocMax | konaocAbs | konaocNeg | konaocSign |
    konaocCmplt | konaocSel | konaocMov | konaocBsum | konaocBmax | konaocPhase | laneDropped | noticeRing | ivrPhaseFailed =>
    cases hu; exact onUnits_beyond s _ h
  | svnCommit mb => cases hu; exact (execSvnCommit_eq _ s).trans (trustRow_beyond _ s _ h)
  | challenge | respond | lock => cases hu; unfold exec; exact trustRow_beyond _ s _ h
  | strapChanged | gpioEdge | i3cAddressed => cases hu; exact if_pos h
  | _ => cases hu

/-- Commands that name the same kind of unit stop alike. -/
theorem exec_all_beyond {kind : String} {limit n : Nat} {cs : List (Nat → Instr)} (s : State)
    (hu : cs.map (fun c => firstUnit (c n)) = List.replicate cs.length (some (kind, limit, n))) (h : limit ≤ n) :
    ∀ c ∈ cs, exec (c n) s = .fault (.noSuchUnit kind n) :=
  fun c hc => exec_beyond s (List.map_eq_replicate_iff.1 hu c hc) h

/-- Settles O10: each command of each list names its unit first, or, of a spot, looks for it itself. That such a command stops is
log entry 2's choice. -/
theorem unitsBeyondTheDeviceStop : Obligations.UnitsBeyondTheDeviceStop := by
  intro s n
  dsimp only
  refine ⟨?tiles, ?queues, ?mailboxes, ?clusters, ?functions, ?adminQueues, ?engines, ?pipelines, ?samplers, ?gpio, ?address, ?phase,
    ?port, ?quadrant, ?router, ?slot, ?stack, ?timer, fun err b => ?upsets, fun a b c w hw => ?accesses,
    fun w bs e b p x y => ?memory, fun m p f ts o x y z fs b => ?links, fun a o v w => ?sync,
    fun spot raw gr h => if_neg (by simp [h])⟩
  case accesses => refine ⟨?_, ?_, ?_, ?_, ?_, ?_, ?_, ?_, ?_, ?_⟩ <;> exact exec_all_beyond s rfl
  case memory => refine ⟨?_, ?_, ?_, ?_⟩ <;> exact exec_all_beyond s rfl
  case links => refine ⟨?_, ?_⟩ <;> exact exec_all_beyond s rfl
  all_goals exact exec_all_beyond s rfl

end Sys2Proof.Machine
end

section
/-! The tiles' sequencer and vector engine (R73 to R75, R79, R83): what moving on keeps, and what each vector operation leaves in VD. -/

namespace Sys2Proof.Machine

/-! ### Moving on (R79) -/

/-- Settles O11: a tile that is not halting moves on by itself. -/
theorem operationChangesOnlyItsTile : Obligations.OperationChangesOnlyItsTile := by
  intro d t g hg
  rw [Dev.opDone_eq hg]
  exact ⟨rfl, fun u hu => Dev.tile_updTile_other d _ hu, fun o => rfl, rfl, rfl⟩

/-- Settles O12: moving on changes the sequencer's fields alone, and G by the writes that waited. -/
theorem advanceKeepsTileData : Obligations.AdvanceKeepsTileData := by
  intro x
  obtain ⟨g, gw, br, pc, slot, seq, he, hg, -⟩ := x.advance_frame
  rw [he]
  exact ⟨rfl, rfl, rfl, rfl, rfl, rfl, rfl, rfl, rfl, rfl, hg⟩

/-! ### Vector operations (R73, R83) -/

/-- A tile row that ends by writing VD leaves the state with that value there. -/
theorem tileRow_gives {s : State} {t code : Nat} {f : Dev → Tile → Nat → Dev} (v : List F32) (h : s.dev.standsAt t 2 code)
    (hf : f s.dev (s.dev.tile t) (s.dev.word t 2) = s.dev.vDone t (s.dev.word t 2) v) :
    tileRow t 2 code s f = .next (s.vectorGives t v) := by
  rw [tileRow_at f h, hf]
  rfl

/-- A lane-wise row leaves in each lane of VD its operation of the lanes of VA, VB and VC. -/
theorem vectorRow_gives {s : State} {t code : Nat} {f : Nat → Nat → Nat → Nat → Nat → Nat} {g : Nat → Nat → Nat → Nat → Nat}
    (hf : f (s.dev.word t 2) = g) (h : s.dev.standsAt t 2 code) :
    vectorRow t code s f = .next (s.vectorGives t (s.dev.lanewise t g)) := by
  subst hf
  exact tileRow_gives _ h rfl

/-- Settles O13: every one of these rows works lane by lane, with one rounding or none. A comparison code above 3 is log entry 46's
choice. -/
theorem vectorExactOperations : Obligations.VectorExactOperations := by
  intro s t
  refine ⟨fun h => ?_, fun h => ?_, fun h => ?_, fun h => ?_, fun h => ?_, fun h => ?_, fun h => ?_, fun h => ?_, fun h => ?_,
    fun h => ?_, fun h => ?_⟩ <;>
  (unfold exec; exact vectorRow_gives rfl h)

/-- The sum over the usable lanes and the zeros that fill the register (R74). -/
theorem execVopSumred_gives {s : State} {t : Nat} (h : s.dev.standsAt t 2 27) :
    let fmt := vFmt (s.dev.word t 2)
    let lanes := (lanesOf fmt ((s.dev.tile t).vreg (vVa (s.dev.word t 2)))).take (usableLanes fmt (s.dev.width t))
    let n := if fmt = 0 then 128 else 256
    execVopSumred t s = .next (s.vectorGives t (ofLanes fmt (List.replicate n (laneRound fmt (ofF32 (treeFold 8
      ((lanes.map (fun c => toF32 (fpDecode fmt c))) ++ List.replicate (n - lanes.length) (0 : F32)))))))) := by
  intro fmt lanes n
  unfold execVopSumred
  exact tileRow_gives _ h (by simp only [List.length_map]; rfl)

/-- Settles O14: the rows through FP32 work lane by lane; the others write VD once. BF16 lanes that go through FP32 are log entry 47's,
the results within a bound log entry 48's. -/
theorem vectorApproximateAndConvert : Obligations.VectorApproximateAndConvert := by
  refine ⟨fun s t => ?lanes, fun s t => ⟨fun h hf => ?_, fun h hf => ?_, fun h => ?_, fun h => ?_, fun h hf => ?_, fun h hf => ?_⟩⟩
  case lanes =>
    refine ⟨fun h => ?_, fun h => ?_, fun h => ?_, fun h => ?_, fun h => ?_, fun h => ?_, fun h => ?_, fun h => ?_, fun h => ?_,
      fun h => ?_, fun h => ?_, fun h => ?_, fun h => ?_, fun h => ?_⟩ <;>
    (unfold exec; exact vectorRow_gives rfl h)
  all_goals unfold exec
  · unfold execVopCvt; exact tileRow_gives _ h (by dsimp only; rw [if_pos hf])
  · unfold execVopCvt; exact tileRow_gives _ h (by dsimp only; rw [if_neg hf])
  · unfold execVopMaxred; exact tileRow_gives _ h rfl
  · exact execVopSumred_gives h
  · unfold execVopSplat; exact tileRow_gives _ h (by dsimp only; rw [if_pos hf])
  · unfold execVopSplat; exact tileRow_gives _ h (by dsimp only; rw [if_neg hf])

end Sys2Proof.Machine
end

section
/-! Loads and stores of the tile (R33, R41, R82 to R86): where they complete, and where they stop the program. -/

namespace Sys2Proof.Machine

/-! ### Where they complete -/

/-- LDV's register: BF16 codes as they are where no scale multiplies them, and rounded to BF16 where one does; any other format as
FP32 values. -/
theorem ldvRow_eq (o : Operand) (codes sc : List Nat) :
    (if o.fmt = 1 && !o.hasT then execLdv.runsOf2 codes
      else if o.fmt = 1 then execLdv.runsOf2 ((rowValues o codes sc).map (fun y => (convert 1 false none y).1))
      else (rowValues o codes sc).map toF32) =
    if o.fmt ≠ 1 then (rowValues o codes sc).map toF32
      else if o.hasT then execLdv.runsOf2 ((rowValues o codes sc).map (fun y => (convert 1 false none y).1))
      else execLdv.runsOf2 codes := by
  by_cases hf : o.fmt = 1 <;> by_cases ht : o.hasT = true <;> simp [hf, ht]

/-- Settles O15: with every check passed and every access answered, each row reaches its last line. The full latent buffer, the order of
an MCOPY, the scales not looked at and LDV's NaNs and rounding are log entries 40, 41, 131, 133 and 134. -/
theorem loadsAndStores : Obligations.LoadsAndStores := by
  intro s t err e e'
  refine ⟨fun bs sc h hf hr hs => ?ldv, fun bs h hf hr => ?ldg, fun h => ?ldc, fun rows h hf hm hp hr hw => ?mcopyIn,
    fun rows h hf hp hm hr hw => ?mcopyOut, fun rows h hf hm hr => ?latfill, fun sc bs flags h hf => ?stv, fun h hf hw => ?stg⟩
  case ldv =>
    change execLdv t err s = _
    unfold execLdv
    rw [tileRow_at _ h]
    simp only [hf, hr, hs, ldvRow_eq]
  case ldg =>
    change execLdg t err s = _
    unfold execLdg
    rw [tileRow_at _ h]
    simp only [hf, hr]
  case ldc => exact tileRow_at _ h
  case mcopyIn =>
    change execMcopyIn t s = _
    unfold execMcopyIn
    rw [tileRow_at _ h]
    simp only [hf, hm, hp, hr, hw, Option.or]
  case mcopyOut =>
    change execMcopyOut t err s = _
    unfold execMcopyOut
    rw [tileRow_at _ h]
    simp only [hf, hm, hp, hr, hw, Option.or]
  case latfill =>
    change execLatfill t s = _
    unfold execLatfill
    rw [tileRow_at _ h]
    simp only [hf, hm, hr, Option.or]
    rfl
  case stv =>
    dsimp only
    intro hrow ho hso hw hsw
    change execStv t s = _
    unfold execStv
    rw [tileRow_at _ h]
    simp only [hf, hrow, ho, hso, hw, hsw]
  case stg =>
    change execStg t s = _
    unfold execStg
    rw [tileRow_at _ h]
    simp only [hf, hw]

/-! ### Where they stop -/

/-- A reserved format code stops an operand under both of its checks. -/
theorem Operand.codeFault_of_reserved {o : Operand} (h : fmtOk o.fmt = false) :
    o.codeFault = some (.fault 0x0141) ∧ o.fault = some (.fault 0x0141) := by
  simp [Operand.fault, Operand.codeFault, h]

theorem Operand.fault_of_tscale {o : Operand} (hf : fmtOk o.fmt = true) (ht : o.hasT = true) (hs : tscaleOk o.tscale = false) :
    o.fault = some (.fault 0x0140) := by
  simp [Operand.fault, Operand.codeFault, hf, ht, hs]

/-- A run that ends beyond tile SRAM is refused. -/
theorem sramIn_of_beyond {a len : Nat} (h : sramSize < a + len) : sramIn a len = false := decide_eq_false (Nat.not_le_of_lt h)

/-- Settles O16: the check that fails is the first thing its row finds. -/
theorem loadsAndStoresStop : Obligations.LoadsAndStoresStop := by
  refine ⟨fun s t err w e => ⟨fun hf => ⟨fun h => ?ldg, fun h => ?mcopyIn, fun h => ?mcopyOut, fun h => ?latfill⟩,
    fun hf h => ?ldv, fun hf h => ?stv, fun hf h => ?stg, fun hf hr h => ?ldgRead, fun hf hr h => ?ldvRead,
    fun hf hw h => ?stgWrite⟩, fun o => Operand.codeFault_of_reserved, fun o => Operand.fault_of_tscale,
    fun d t a len bs => ⟨fun h => ?_, fun h => ?_, fun h => ?_, fun h => ?_⟩⟩
  case ldg => change execLdg t err s = _; unfold execLdg; rw [tileRow_at _ h]; simp only [hf]
  case mcopyIn => change execMcopyIn t s = _; unfold execMcopyIn; rw [tileRow_at _ h]; simp only [hf, Option.or]
  case mcopyOut => change execMcopyOut t err s = _; unfold execMcopyOut; rw [tileRow_at _ h]; simp only [hf, Option.or]
  case latfill => change execLatfill t s = _; unfold execLatfill; rw [tileRow_at _ h]; simp only [hf, Option.or]
  case ldv => change execLdv t err s = _; unfold execLdv; rw [tileRow_at _ h]; simp only [hf]
  case stv => change execStv t s = _; unfold execStv; rw [tileRow_at _ h]; simp only [hf]
  case stg => change execStg t s = _; unfold execStg; rw [tileRow_at _ h]; simp only [hf]
  case ldgRead => change execLdg t err s = _; unfold execLdg; rw [tileRow_at _ h]; simp only [hf, hr]
  case ldvRead => change execLdv t err s = _; unfold execLdv; rw [tileRow_at _ h]; simp only [hf, hr]
  case stgWrite => change execStg t s = _; unfold execStg; rw [tileRow_at _ h]; simp only [hf, hw]
  · simp [Dev.runRead, Dev.sramRead, sramIn_of_beyond h]
  · simp [Dev.runWrite, sramIn_of_beyond h]
  · simp [Dev.runRead, h]
  · simp [Dev.runWrite, h]

end Sys2Proof.Machine
end

section
/-! The array of a tile (R56 to R63, R67, R184): weight loads, issues, drains and a step of the activity ramp, where they complete. -/

namespace Sys2Proof.Machine

/-- A set whose scales can be read is filled. -/
theorem Dev.fillSet_of_scales {d e : Dev} {t i : Nat} {x : Tile} {o : Operand} {straight : Bool} {sc : List (List Nat)}
    (rows : List (List Nat)) (h : d.loadScales t x o straight = (e, .inr sc)) :
    d.fillSet t i x o straight rows = e.opDone t (fun z =>
      { z with loading := some (if straight then 1 else 2, e.now + e.arrayCycles t 64) }.setWset i
        { loaded := true, fmt := o.fmt, tscale := o.scale, bscaled := o.blocks, rows := rows, scales := sc }) := by
  unfold Dev.fillSet
  rw [h]

/-! ### Drains (R60) -/

/-- A list over the first numbers, joined with a function of the same numbers. -/
theorem zipWith_range_map {α β : Type} (m : Nat) (f : Nat → α → β) (g : Nat → α) :
    (List.range m).zipWith f ((List.range m).map g) = (List.range m).map (fun r => f r (g r)) := by
  rw [List.zipWith_map_right, List.zipWith_self]

/-- No entry drained is one that latent read mode made. -/
theorem entries_not_latent {x : Tile} {ent m : Nat} (h : ∀ i, i < m → (x.entry (ent + i)).latent = false) :
    ((List.range m).map (fun i => x.entry (ent + i))).any (fun a => a.latent) = false := by
  simpa [List.any_eq_false] using h

/-- Every write of a list that lies inside SRAM passes the check on it. -/
theorem find?_outside_of_sramIn {l : List (Nat × List Byte)} (h : ∀ p ∈ l, sramIn p.1 p.2.length = true) :
    l.find? (fun e => sramIn e.1 e.2.length = false) = none := by
  simpa [List.find?_eq_none] using h

/-- Settles O17: with the operand legal and its reads answered each row reaches its last line; a ramp step does what its level says.
LOADWT's order, the scales' order, DRAINV's +0, the issue's operands, the drained INT32 and the latent scales are log entries 33, 35,
36, 38, 132, 136 and 140. -/
theorem arrayOperations : Obligations.ArrayOperations := by
  refine ⟨fun s t err e e' => ⟨fun rows sc h hf hb hst => ?loadw, fun bs sc h hf hb => ?loadwt, fun m rows sc h hc ho hr hs => ?issue,
    fun m bias h hc hl => ?issuel, fun h => tileRow_at _ h, fun m h hc hf hlat => ?drains⟩, fun s t ready ht ha => ⟨?rest, ?step⟩⟩
  case loadw =>
    intro addrs ho hr hs
    change execLoadw t err s = _
    unfold execLoadw
    rw [tileRow_at _ h]
    simp only [hf, hb, hst, ne_eq, not_true_eq_false, decide_false, Bool.true_eq_false, Bool.or_self, Bool.false_eq_true, if_false]
    rw [ho]
    dsimp only
    rw [hr]
    exact congrArg (fun f => Host.Outcome.next (s.withDev f)) (Dev.fillSet_of_scales _ hs)
  case loadwt =>
    intro rb hr hs
    change execLoadwt t err s = _
    unfold execLoadwt
    rw [tileRow_at _ h]
    simp only [hf, hb, ne_eq, not_true_eq_false, if_false]
    rw [hr]
    exact congrArg (fun f => Host.Outcome.next (s.withDev f)) (Dev.fillSet_of_scales _ hs)
  case issue =>
    change execIssue t err s = _
    unfold execIssue
    rw [tileRow_at _ h]
    simp only [hc, ho, hr, hs]
  case issuel =>
    intro biased hbad hbias slots
    change execIssuel t s = _
    unfold execIssuel
    rw [tileRow_at _ h]
    simp only [hc, Nat.not_lt_of_le hl, if_false]
    rw [if_neg (by simpa [biased] using hbad), hbias]
  case drains =>
    dsimp only
    simp only [zipWith_range_map]
    intro hin hw
    change execDrains t s = _
    unfold execDrains
    rw [tileRow_at _ h]
    simp only [hc, hf, entries_not_latent hlat, Bool.false_eq_true, if_false, zipWith_range_map, find?_outside_of_sramIn hin, hw]
  case rest =>
    intro hl
    change execRampStep t ready s = _
    unfold execRampStep
    rw [onUnit_alive _ ht ha]
    dsimp only
    rw [if_pos hl]
  case step =>
    intro c owed shadow hl hc
    change execRampStep t ready s = _
    unfold execRampStep
    rw [onUnit_alive _ ht ha]
    dsimp only
    rw [if_neg hl, hc]
    simp only [Bool.and_eq_true, decide_eq_true_eq]
    rfl

end Sys2Proof.Machine
end

section
/-! Streams (R90 to R93): the stream slot of a tile, messages and credits on the way, and a wait past its deadline. -/

namespace Sys2Proof.Machine

/-! ### The stream slot -/

/-- On a port that is joined to a stream, a message leaves where there is credit for it; else the tile waits. -/
theorem Dev.sendMessage_of_stream {d : Dev} {t port sid : Nat} {x : Tile} {st : Stream} (bytes : List Byte)
    (hp : x.portStream port true = some sid) (hs : look sid d.streams = some st) :
    d.sendMessage t port x bytes = if d.canSend st t x.index (lineCount bytes.length) then
      (d.updStream sid (fun y => y.post t x.index bytes)).opDone t id else d.waitPort t port := by
  simp only [Dev.sendMessage, hp, hs]

section
variable {d : Dev} {t port size sid : Nat} {x : Tile} {st : Stream} (take : Dev → List Byte → Dev × Option Stop)
variable (hp : x.portStream port false = some sid) (hs : look sid d.streams = some st)
include hp hs

/-- A receive waits where no message is there. -/
theorem Dev.recvMessage_of_none (hm : x.nextMessage st port = none) : d.recvMessage t port size x take = d.waitPort t port := by
  simp only [Dev.recvMessage, hp, hs, hm]

/-- A message of another size stops the receiver. -/
theorem Dev.recvMessage_of_size {m : Inbox} (hm : x.nextMessage st port = some m) (hl : m.bytes.length ≠ size) :
    d.recvMessage t port size x take = d.tileStop t (.fault 0x0205) := by
  simp only [Dev.recvMessage, hp, hs, hm, if_pos hl]

/-- A message of the size asked for is taken. -/
theorem Dev.recvMessage_of_taken {m : Inbox} {e : Dev} (hm : x.nextMessage st port = some m) (hl : m.bytes.length = size)
    (ht : take d m.bytes = (e, none)) :
    d.recvMessage t port size x take = (e.messageTaken t port sid st m).opDone t id := by
  simp only [Dev.recvMessage, hp, hs, hm, hl, ne_eq, not_true_eq_false, if_false, ht]

end

/-! ### On the way -/

/-- What a returned credit does. -/
theorem execCredit_eq {s : State} {sid prod : Nat} (cons : Nat) {st : Stream} (ha : s.dev.alive = true) (hsid : sid < 4096)
    (hprod : prod < 256) (hst : look sid s.dev.streams = some st) :
    let st' : Stream := { st with
      returning := drop1 (prod, cons) st.returning
      credits := put (prod, cons) (st.credit prod cons + (look (prod, cons) st.returning).getD 0) st.credits }
    execCredit sid prod cons s = .next (s.withDev (if s.dev.streamBarred st cons prod then s.dev
      else if s.dev.jobPurged prod then
        { s.dev with streams := put sid { st with returning := drop1 (prod, cons) st.returning } s.dev.streams }
      else ({ s.dev with streams := put sid st' s.dev.streams } : Dev).sendAgain sid st' prod)) := by
  unfold execCredit
  rw [onUnits_alive _ (by simp [badUnit, hsid, hprod]) ha]
  simp only [hst]
  rfl

/-- What the oldest message of a pair does. -/
theorem execStream_eq {s : State} {sid prod cons : Nat} {st : Stream} {f : Flight} (ha : s.dev.alive = true) (hsid : sid < 4096)
    (hprod : prod < 256) (hcons : cons < 256) (hst : look sid s.dev.streams = some st)
    (hf : st.flight.find? (fun f => f.prod = prod && f.cons = cons) = some f) :
    let d := s.dev.updStream sid (fun st => { st with flight := dropFlight prod cons st.flight })
    let index := (st.prods.findIdx? (fun p => p = prod)).getD 0
    execStream sid prod cons s = .next (s.withDev (if s.dev.streamBarred st prod cons then s.dev
      else if d.jobPurged prod then d
      else st.sampler.elim (d.portTakes st cons index f.bytes) (fun n => d.slotTakes n sid index f.bytes))) := by
  unfold execStream
  rw [onUnits_alive _ (by simp [badUnit, hsid, hprod, hcons]) ha]
  simp only [hst, hf]
  cases st.sampler <;> rfl

theorem execStreamTimeout_due {s : State} {t port deadline : Nat} (ht : t < 256) (ha : s.dev.alive = true)
    (hw : (s.dev.tile t).seq = .waitStream port deadline) (hd : deadline ≤ s.dev.now) :
    execStreamTimeout t s = .next (s.withDev (s.dev.tileStop t (.fault 0x0204) [port])) := by
  unfold execStreamTimeout
  rw [onUnit_alive _ ht ha]
  simp only [hw, if_pos hd]
  rfl

/-- Settles O18: the slot's rows are a send or a receive on a port joined to a stream; on the way a bar comes first, then a purge. -/
theorem streamOperations : Obligations.StreamOperations := by
  refine ⟨fun s t sid err st e => ⟨fun h hp hs => ?sendv, fun m h hp hs hm => ?recvv, fun h hp hs hm => ?recvvWaits,
    fun rows h hf ho hr hp hs => ?send, fun h hf ho hp hs => ⟨fun hm => ?recvWaits, fun m hm hl => ?recvSize,
      fun m hm hl hw => ?recv⟩⟩,
    fun s sid prod cons st ha hsid hprod hcons hst => ⟨fun hb => ?barred, fun hb hp => ?purged, fun hb hp => ?credit,
      fun f hf => ⟨fun hb => ?streamBarred, fun hb => ?stream⟩, fun port deadline => execStreamTimeout_due hcons ha⟩⟩
  case sendv =>
    change execSendv t s = _
    unfold execSendv
    rw [tileRow_at _ h, Dev.sendMessage_of_stream _ hp hs]
  case recvv =>
    change execRecvv t s = _
    unfold execRecvv
    rw [tileRow_at _ h]
    split
    · next hl => rw [Dev.recvMessage_of_taken _ hp hs hm hl rfl]
    · next hl => rw [Dev.recvMessage_of_size _ hp hs hm hl]
  case recvvWaits =>
    change execRecvv t s = _
    unfold execRecvv
    rw [tileRow_at _ h, Dev.recvMessage_of_none _ hp hs hm]
  case send =>
    change execSend t err s = _
    unfold execSend
    rw [tileRow_at _ h]
    simp only [hf, ho, hr, Option.or]
    rw [Dev.sendMessage_of_stream _ hp hs]
  case recvWaits =>
    change execRecv t s = _
    unfold execRecv
    rw [tileRow_at _ h]
    simp only [hf, ho, Option.or]
    rw [Dev.recvMessage_of_none _ hp hs hm]
  case recvSize =>
    change execRecv t s = _
    unfold execRecv
    rw [tileRow_at _ h]
    simp only [hf, ho, Option.or]
    rw [Dev.recvMessage_of_size _ hp hs hm hl]
  case recv =>
    change execRecv t s = _
    unfold execRecv
    rw [tileRow_at _ h]
    simp only [hf, ho, Option.or]
    rw [Dev.recvMessage_of_taken _ hp hs hm hl hw]
  case barred => exact (execCredit_eq cons ha hsid hprod hst).trans (by rw [if_pos hb]; rfl)
  case purged => exact (execCredit_eq cons ha hsid hprod hst).trans (by rw [if_neg (by simp [hb]), if_pos hp])
  case credit => exact (execCredit_eq cons ha hsid hprod hst).trans (by rw [if_neg (by simp [hb]), if_neg (by simp [hp])])
  case streamBarred => exact (execStream_eq ha hsid hprod hcons hst hf).trans (by rw [if_pos hb]; rfl)
  case stream => exact (execStream_eq ha hsid hprod hcons hst hf).trans (by rw [if_neg (by simp [hb])])

end Sys2Proof.Machine
end

section
/-! The sync slot and the sync fabric (R82, R83, R95 to R98): arithmetic, branches and HALT, and signals, waits and resets of objects. -/

namespace Sys2Proof.Machine

/-! ### Arithmetic and branches -/

/-- The count left is zero where it was one. -/
theorem count_left_ne_zero {v : Word} : v - 1 ≠ 0 ↔ v ≠ 1 := by
  refine not_congr ⟨fun h => ?_, fun h => h ▸ BitVec.sub_self v⟩
  rw [← BitVec.sub_add_cancel v 1, h]
  rfl

/-- Settles O19: each row is its operation, and a branch its condition. An item of GINFO that R82 does not list is log entry 49's. -/
theorem controlOperations : Obligations.ControlOperations := by
  intro s t
  refine ⟨fun h => ?gaddi, fun h => ?gadd, fun h => ?gshl, fun h hc => ?loopEnds, fun h hc => ?loop, fun h => ?br, fun h hc => ?bne,
    fun h hc => ?bneFalls, fun h => ?ginfo, fun h => ?halt⟩
  case gaddi => exact tileRow_at _ h
  case gadd => exact tileRow_at _ h
  case gshl => exact tileRow_at _ h
  case loopEnds =>
    change execLoop t s = _
    unfold execLoop
    rw [tileRow_at _ h]
    simp only [hc]
    rfl
  case loop =>
    change execLoop t s = _
    unfold execLoop
    rw [tileRow_at _ h]
    simp only [if_pos (count_left_ne_zero.2 hc)]
    rfl
  case br => exact tileRow_at _ h
  case bne =>
    change execBne t s = _
    unfold execBne
    rw [tileRow_at _ h]
    simp only [if_pos hc]
    rfl
  case bneFalls =>
    change execBne t s = _
    unfold execBne
    rw [tileRow_at _ h]
    simp only [hc, ne_eq, not_true_eq_false, if_false]
    rfl
  case ginfo => exact tileRow_at _ h
  case halt =>
    change execHalt t s = _
    unfold execHalt
    rw [tileRow_at _ h]
    dsimp only
    cases (((s.dev.updTile t (fun z => z.haltOp)).consumerEnds t).tile t).pipe <;> rfl

/-! ### Waits of a tile -/

section
variable {d : Dev} {t w : Nat} {x : Tile}

/-- A WAIT for an object of another context, or for a proxy, refuses the tile. -/
theorem Dev.tileWait_refused (h : d.syncOwned (x.handle (cHnd w)).1 (d.tileCtx t) = false ∨
    (d.proxyOf (x.handle (cHnd w)).1).isSome = true) : d.tileWait t x w = d.tileRefused t := by
  obtain h | h := h <;> simp [Dev.tileWait, h]

variable (ho : d.syncOwned (x.handle (cHnd w)).1 (d.tileCtx t) = true) (hp : d.proxyOf (x.handle (cHnd w)).1 = none)
include ho hp

/-- A WAIT whose value has come completes. -/
theorem Dev.tileWait_met (hv : x.syncArg w ≤ d.syncValue (x.handle (cHnd w)).1) : d.tileWait t x w = d.opDone t id := by
  simp [Dev.tileWait, ho, hp, hv]

/-- Any other waits, and a tile that is halting halts. -/
theorem Dev.tileWait_unmet (hv : d.syncValue (x.handle (cHnd w)).1 < x.syncArg w) : d.tileWait t x w =
    if x.halting then d.haltNow t else
      (d.updTile t (fun z => { z with
        seq := .waitSync (x.handle (cHnd w)).1 (x.syncArg w) (d.now + (x.handle (cHnd w)).2) })).syncWait
          (x.handle (cHnd w)).1 (x.syncArg w) (x.handle (cHnd w)).2 (.tile t) := by
  simp [Dev.tileWait, ho, hp, Nat.not_le_of_lt hv]

end

/-! ### Packets of the fabric -/

/-- What a packet of the fabric does. -/
theorem execSyncPacket_eq {s : State} (a : SyncAgent) (op : SyncOp) {obj : Nat} (v : Nat) (ha : s.dev.alive = true)
    (ho : obj < 16384) : execSyncPacket a op obj v s = .next (s.withDev
      (if s.dev.syncPurged a then s.dev
      else if s.dev.agentMay a obj op = false then
        agentCase a (fun t => if (s.dev.tile t).pipe.isSome then s.dev.tileRefused t else s.dev.syncRefused) s.dev.syncRefused
      else match op with
        | .signal => agentCase a (fun t => s.dev.syncSignal obj v (some t)) (s.dev.syncSignal obj v)
        | .sreset => agentCase a (fun t => s.dev.syncReset obj (some t)) (s.dev.syncReset obj)
        | .wait => agentCase a (fun t => s.dev.tileOp t 5 9
            (fun d x w => if (x.handle (cHnd w)).1 = obj then d.tileWait t x w else d)) s.dev)) := by
  unfold execSyncPacket
  rw [onUnit_alive _ ho ha]
  cases op <;> cases a <;> rfl

/-- What a wait past its deadline does. -/
theorem execSyncTimeout_due {s : State} {obj : Nat} {who : Waiter} {y : SyncWait} (ha : s.dev.alive = true) (ho : obj < 16384)
    (hw : s.dev.waits.find? (fun y => y.obj = obj && y.who = who && decide (y.deadline ≤ s.dev.now)) = some y) :
    let d : Dev := { s.dev with waits := s.dev.waits.filter (fun y => !(y.obj = obj && y.who = who)) }
    let e := (d.countWaiters obj).satFld R.SYN_STAT F.SYN_STAT_TIMEOUTS 1
    execSyncTimeout obj who s = .next (s.withDev (match who with
      | .tile t => e.tileStop t (.fault 0x0201) [obj]
      | .desc q n => (e.raise { e.descEvent 0x0201 q n with
          job := e.syncJob obj
          args := [obj, q, (e.desc q n).elim 0 Desc.cid] }).complete q n stTimeout 0)) := by
  intro d e
  unfold execSyncTimeout
  rw [onUnit_alive _ ho ha]
  simp only [hw]
  cases who with
  | tile t => rfl
  | desc q n =>
    dsimp only
    have hcid : (match e.desc q n with | some x => x.cid | none => 0) = (e.desc q n).elim 0 Desc.cid := by
      cases e.desc q n <;> rfl
    rw [← hcid]
    rfl

/-! ### Objects -/

/-- Below 32 bits the sum is stored, and the waits that it meets are released. -/
theorem Dev.syncAdd_of_lt {d : Dev} {o v : Nat} (tile : Option Nat) (h : d.syncValue o + v % 2 ^ 32 < 2 ^ 32) :
    d.syncAdd o v tile = (d.setFld (R.SYN_OBJ o) F.SYN_OBJ_VALUE (d.syncValue o + v % 2 ^ 32)).releaseWaits o := by
  have hm : min (d.syncValue o + v % 2 ^ 32) (2 ^ 32 - 1) = d.syncValue o + v % 2 ^ 32 := by omega
  simp only [Dev.syncAdd, if_neg (Nat.not_le_of_lt h), hm]

/-- Settles O20: a tile's row checks its object first; a packet's row looks for a purge, then for the agent's right; a wait past its
deadline is taken out and counted; an object that is a proxy sends, any other is written. -/
theorem syncOperations : Obligations.SyncOperations := by
  refine ⟨fun s t => ⟨fun h ho => ?signal, fun h ho => ?signalRefused, fun h ho hp hv => ?waitMet, fun h ho hp hv => ?waits,
      fun h ho => ?waitRefused, fun h => ?sreset⟩,
    fun s a obj v ha ho => ⟨fun op hp => ?purged, fun hp => ⟨fun op hm => ?refused, fun hm => ?packetSignal, fun hm => ?packetReset,
      fun hm => ?packetWait⟩⟩,
    fun s obj who y ha ho hw => ⟨fun t hwho => ?tileTimeout, fun q n hwho => ?descTimeout⟩,
    fun d o v tile => ⟨fun hp hv => ?adds, fun hp => ?clears, fun p hp => ?proxy⟩⟩
  case signal =>
    change execSignal t s = _
    unfold execSignal
    rw [tileRow_at _ h]
    simp only [ho, Bool.true_eq_false, if_false]
  case signalRefused =>
    change execSignal t s = _
    unfold execSignal
    rw [tileRow_at _ h]
    simp only [ho, if_true]
  case waitMet => exact (tileRow_at _ h).trans (congrArg (fun e => Host.Outcome.next (s.withDev e)) (Dev.tileWait_met ho hp hv))
  case waits => exact (tileRow_at _ h).trans (congrArg (fun e => Host.Outcome.next (s.withDev e)) (Dev.tileWait_unmet ho hp hv))
  case waitRefused => exact (tileRow_at _ h).trans (congrArg (fun e => Host.Outcome.next (s.withDev e)) (Dev.tileWait_refused ho))
  case sreset => exact tileRow_at _ h
  case purged => exact (execSyncPacket_eq a op v ha ho).trans (by rw [if_pos hp]; rfl)
  case refused => exact (execSyncPacket_eq a op v ha ho).trans (by rw [if_neg (by simp [hp]), if_pos hm])
  case packetSignal => exact (execSyncPacket_eq a .signal v ha ho).trans (by rw [if_neg (by simp [hp]), if_neg (by simp [hm])])
  case packetReset => exact (execSyncPacket_eq a .sreset v ha ho).trans (by rw [if_neg (by simp [hp]), if_neg (by simp [hm])])
  case packetWait => exact (execSyncPacket_eq a .wait v ha ho).trans (by rw [if_neg (by simp [hp]), if_neg (by simp [hm])])
  case tileTimeout => subst hwho; exact execSyncTimeout_due ha ho hw
  case descTimeout => subst hwho; exact execSyncTimeout_due ha ho hw
  case adds => simp only [Dev.syncSignal, hp, Dev.syncAdd_of_lt tile hv]
  case clears => simp only [Dev.syncReset, hp, Dev.syncZero]
  case proxy => simp only [Dev.syncSignal, Dev.syncReset, hp, and_self]

end Sys2Proof.Machine
end

section
/-! The Konaoc operations (R231 to R233): a row with its operands in range changes its own engine. -/

namespace Sys2Proof.Machine

section
variable {s : State} {n d a b c : Nat} (h : s.dev.alive = true) (hn : n < 16) (hd : d < 32) (hA : a < 32) (hB : b < 32) (hC : c < 32)
include h hn hd hA hB hC

/-- A row with its operands in range changes engine n. -/
theorem konaocRow_of_lt (f : Engine → Engine) : konaocRow n d a b c s f = .next (s.withDev (s.dev.updEngine n f)) :=
  onUnits_alive _ (by simp [badUnit, hn, hd, hA, hB, hC]) h

/-- A lane operation writes register D of every element in hand, unless D is one of F8 to F19 (R232). -/
theorem konaocRow_each (op : Nat) : konaocRow n d a b c s (fun e => e.each op d a b c) =
    .next (s.withDev (s.dev.updEngine n (fun e => if d < 8 ∨ 20 ≤ d then
      { e with files := e.files.map (fun r => setAt r d (kValue op (r.getD a 0) (r.getD b 0) (r.getD c 0))) } else e))) := by
  rw [konaocRow_of_lt h hn hd hA hB hC]
  have hw : kWritable d = true ↔ d < 8 ∨ 20 ≤ d := by simp [kWritable, hd]
  simp only [Engine.each, hw]
  rfl

end

section
variable {s : State} {n d a : Nat} (h : s.dev.alive = true) (hn : n < 16) (hA : a < 32) (f : List F32 → F32)
include h hn hA

/-- A block operation writes the block result that D names. -/
theorem konaocRow_combine (hd : 28 ≤ d) (hd' : d < 32) : konaocRow n d a 0 0 s (fun e => e.combine f d a) =
    .next (s.withDev (s.dev.updEngine n (fun e =>
      { e with results := setAt e.results (d - 28) (f (e.files.map (fun r => r.getD a 0))) }))) := by
  rw [konaocRow_of_lt h hn hd' hA (by decide) (by decide)]
  simp only [Engine.combine, if_pos hd]

/-- A block operation that names no block result leaves the engine. -/
theorem konaocRow_combine_elsewhere (hd : d < 28) : konaocRow n d a 0 0 s (fun e => e.combine f d a) =
    .next (s.withDev (s.dev.updEngine n (fun e => e))) := by
  rw [konaocRow_of_lt h hn (by omega) hA (by decide) (by decide)]
  simp only [Engine.combine, if_neg (Nat.not_le_of_lt hd)]

end

/-- Settles O21: every lane operation is one write of D, every block operation one write of a block result. -/
theorem konaocOperations : Obligations.KonaocOperations := by
  refine ⟨fun s n d a b c h hn hd hA hB hC => ?lanes, fun s n d a h hn hA => ⟨fun hd hd' => ?sum, fun hd hd' => ?max,
    fun hd => ⟨?noSum, ?noMax⟩, ?phase⟩⟩
  case lanes =>
    have h0 : 0 < 32 := by decide
    exact ⟨konaocRow_each h hn hd hA hB h0 1, konaocRow_each h hn hd hA hB h0 2, konaocRow_each h hn hd hA hB h0 3,
      konaocRow_each h hn hd hA hB hC 4, konaocRow_each h hn hd hA hB h0 5, konaocRow_each h hn hd hA h0 h0 6,
      konaocRow_each h hn hd hA h0 h0 7, konaocRow_each h hn hd hA hB h0 8, konaocRow_each h hn hd hA hB h0 9,
      konaocRow_each h hn hd hA h0 h0 10, konaocRow_each h hn hd hA h0 h0 11, konaocRow_each h hn hd hA h0 h0 12,
      konaocRow_each h hn hd hA hB h0 13, konaocRow_each h hn hd hA hB hC 14, konaocRow_each h hn hd hA h0 h0 15⟩
  case sum => exact konaocRow_combine h hn hA blockSum hd hd'
  case max => exact konaocRow_combine h hn hA blockMax hd hd'
  case noSum => exact konaocRow_combine_elsewhere h hn hA blockSum hd
  case noMax => exact konaocRow_combine_elsewhere h hn hA blockMax hd
  case phase => exact konaocRow_of_lt h hn (by decide) (by decide) (by decide) (by decide) Engine.phase

end Sys2Proof.Machine
end

section
/-! Descriptors that act at once (R305, R306): what a row does for a descriptor that starts now, and what a context's end takes away. -/

namespace Sys2Proof.Machine

/-! ### A descriptor that starts now -/

/-- Whether a row takes a descriptor of type `typ` depends on its raw bytes alone. -/
theorem Desc.typ_of_raw {x y : Desc} (h : x.raw = y.raw) : x.typ = y.typ := by rw [Desc.typ, h, Desc.typ]

/-- A field of the body depends on the raw bytes alone. -/
theorem Desc.body_of_raw {x y : Desc} (h : x.raw = y.raw) (off size : Nat) : x.body off size = y.body off size := by
  rw [Desc.body, h, Desc.body]

/-- The row of any type, for a descriptor that starts now. -/
theorem runRow_startsNow {s : State} {e : Dev} {q limit : Nat} {pick : Desc → Bool} {check : Dev → Nat → Desc → Checked} {y : Desc}
    (start : Dev → Nat → Desc → Dev) (hq : q < limit) (h : s.dev.startsNow q check e y) (hp : ∀ x : Desc, x.raw = y.raw → pick x = true) :
    onUnit "queue" limit q s (fun d => d.runHead q pick check start) = .next (s.withDev (start e q y).pass) :=
  (onUnit_alive _ hq h.1).trans (by rw [runHead_startsNow start h hp]; rfl)

/-- A row that takes one operation of a type, for a descriptor that starts now. -/
theorem opRow_startsNow {s : State} {e : Dev} {q typ op : Nat} {rest : Desc → Bool} {check : Dev → Nat → Desc → Checked} {y : Desc}
    (start : Dev → Nat → Desc → Dev) (hq : q < 4096) (h : s.dev.startsNow q check e y) (ht : y.typ = typ) (ho : y.body 0 1 = op) :
    onUnit "queue" 4096 q s (fun d => d.runHead q (fun x => x.typ = typ && (x.body 0 1 = op || rest x)) check start) =
      .next (s.withDev (start e q y).pass) :=
  runRow_startsNow start hq h (fun x hx => by simp [Desc.typ_of_raw hx, Desc.body_of_raw hx, ht, ho])

/-! ### The end of a context -/

/-- What the devices `e` and `d` hold of contexts is the same: the contexts, their extents, their mirrors and proxies. -/
structure Dev.SameContexts (e d : Dev) : Prop where
  ctxs : e.ctxs = d.ctxs
  extents : e.extents = d.extents
  lnk : e.lnk = d.lnk

theorem Dev.toldFrom.sameContexts {e d : Dev} (h : e.toldFrom d) : e.SameContexts d := by
  rw [h]; exact ⟨rfl, rfl, rfl⟩

/-- Leaving orphan mode touches no context. -/
theorem Dev.orphanExit_sameContexts (d : Dev) (f : Nat) : (d.orphanExit f).SameContexts d := by
  unfold Dev.orphanExit
  dsimp only
  split
  · obtain ⟨hc, hx, hl⟩ := (Dev.raise_told (((d.updFn f (fun x => { x with orphan := false, enabledAnew := false })).setFld
      (R.HIF_FN_STAT f) F.HIF_FN_STAT_ORPHAN 0).setFld (R.HIF_FN_STAT f) F.HIF_FN_STAT_REASON 0)
      { code := 0x0B32, fn := f }).sameContexts
    exact ⟨hc, hx, hl⟩
  · exact ⟨rfl, rfl, rfl⟩

/-- Showing what a function holds touches no context. -/
theorem Dev.fnShow_sameContexts (d : Dev) (f : Nat) : (d.fnShow f).SameContexts d := ⟨rfl, rfl, rfl⟩

/-- What a destroyed context leaves of contexts, extents, mirrors and proxies: no entry of its own. -/
theorem Dev.destroyCtx_clears (d : Dev) (c : Nat) :
    look c (d.destroyCtx c).ctxs = none ∧ (∀ x ∈ (d.destroyCtx c).extents, x.ctx ≠ c) ∧
      (∀ x ∈ (d.destroyCtx c).lnk.mirrors, x.2.ctx ≠ c) ∧ (∀ x ∈ (d.destroyCtx c).lnk.proxies, x.2.ctx ≠ c) := by
  simp only [Dev.destroyCtx, (Dev.orphanExit_sameContexts _ _).ctxs, (Dev.orphanExit_sameContexts _ _).extents,
    (Dev.orphanExit_sameContexts _ _).lnk, (Dev.fnShow_sameContexts _ _).ctxs, (Dev.fnShow_sameContexts _ _).extents,
    (Dev.fnShow_sameContexts _ _).lnk]
  refine ⟨look_drop1_same c _, ?_, ?_, ?_⟩
  all_goals
    intro x hx
    simpa using (List.mem_filter.1 hx).2

/-! ### O22 -/

/-- Settles O22 (which number a new context or queue takes is log entry 27's choice): each type's row completes its descriptor with what
the type does. -/
theorem contextAndQueueDescriptors : Obligations.ContextAndQueueDescriptors := by
  refine ⟨fun s q e y check h => ⟨?nop, ?ctxCreate, ?ctxDestroy, ?queueDestroy, ?queueAdopt⟩, ?queueCreate⟩
  case nop =>
    rintro rfl ht hq
    change execNop q s = _
    unfold execNop
    rw [effectRow_startsNow _ hq h ht]
  case ctxCreate =>
    rintro rfl ht hq
    change execCtxCreate q s = _
    unfold execCtxCreate
    rw [effectRow_startsNow _ hq h ht]
  case ctxDestroy =>
    rintro rfl ht hq
    refine ⟨?_, e.destroyCtx_clears (y.body 0 2)⟩
    change execCtxDestroy q s = _
    unfold execCtxDestroy
    rw [effectRow_startsNow _ hq h ht]
  case queueDestroy =>
    rintro k rfl ht hq hk
    change execQueueDestroy q s = _
    unfold execQueueDestroy
    rw [effectRow_startsNow _ hq h ht]
    simp only [hk, Dev.removeQueue]
  case queueAdopt =>
    rintro k z rfl ht hq hk hz
    change execQueueAdopt q s = _
    unfold execQueueAdopt
    rw [effectRow_startsNow _ hq h ht]
    simp only [hk, Dev.adopt, hz]
  case queueCreate =>
    intro s q e y h ht hq
    change execQueueCreate q s = _
    unfold execQueueCreate
    rw [effectRow_startsNow _ hq h ht]

/-! ### SYNC_OP WAIT -/

/-- Changing the entry of a key changes what is looked up there. -/
theorem look_alter_same {κ α : Type} [DecidableEq κ] (k : κ) (f : α → α) (l : List (κ × α)) :
    look k (alter k f l) = (look k l).map f := by
  induction l with
  | nil => rfl
  | cons e r ih =>
    obtain ⟨j, w⟩ := e
    by_cases h : j = k
    · simp [alter, look, h]
    · simp [alter, look, h, ih]

/-- Changing a descriptor keeps the context of its queue. -/
theorem Dev.queueCtx_updDesc (d : Dev) (q n : Nat) (f : Desc → Desc) : (d.updDesc q n f).queueCtx q = d.queueCtx q := by
  simp only [Dev.queueCtx, Dev.updDesc, Dev.updQueue, Dev.queue, look_alter_same]
  cases look q d.queues <;> rfl

/-- A descriptor that is changed and keeps its number is found changed. -/
theorem Dev.desc_updDesc {d : Dev} {q n : Nat} {f : Desc → Desc} {x : Desc} (h : d.desc q n = some x) (hf : ∀ y, (f y).n = y.n) :
    (d.updDesc q n f).desc q n = some (f x) := by
  have hp : ((fun y : Desc => decide (y.n = n)) ∘ fun y => if y.n = n then f y else y) = fun y => decide (y.n = n) := by
    funext y
    by_cases hy : y.n = n <;> simp [hy, hf]
  simp only [Dev.desc, Dev.queue] at h
  simp only [Dev.desc, Dev.updDesc, Dev.updQueue, Dev.queue, look_alter_same]
  cases hz : look q d.queues with
  | none => simp [hz] at h
  | some z =>
    simp only [hz] at h
    have hn : x.n = n := by simpa using List.find?_some h
    simp only [Option.map_some, List.find?_map, hp, h, hn, if_true]

/-- A SYNC_OP WAIT that is dispatched at the head of its queue waits for its object; where its value has come, it completes at once. -/
theorem Dev.runHead_syncOpWait {d : Dev} {q o thr window : Nat} {x : Desc} {pick : Desc → Bool} (start : Dev → Nat → Desc → Dev)
    (hf : d.fwRuns = true) (hx : (d.queue q).bind Queue.headDesc = some x) (hp : x.phase = .dispatched) (ht : x.typ = 11)
    (hpick : pick x = true) (hc : d.syncOpCheck q x = (d, .inr [])) (hw : x.namedWait = some (o, thr, window)) (hpx : d.proxyOf o = none)
    (ho : d.syncOwned o (d.queueCtx q) = true) :
    d.runHead q pick Dev.syncOpCheck start =
      ((d.updDesc q x.n (fun y => { y with table := [] })).updDesc q x.n (fun y => { y with phase := .waiting })).syncWait
        o thr window (.desc q x.n) := by
  have hraw : ({ x with table := [] } : Desc).raw = x.raw := rfl
  have ht' : ({ x with table := [] } : Desc).typ = 11 := (Desc.typ_of_raw hraw).trans ht
  have hw' : ({ x with table := [] } : Desc).namedWait = some (o, thr, window) := by
    rw [← hw]
    simp only [Desc.namedWait, ht', ht]
    rfl
  have hs : (d.updDesc q x.n (fun y => { y with table := [] })).syncNamesBad q { x with table := [] } = none := by
    have hobj : ({ x with table := [] } : Desc).syncObj = none := by simp only [Desc.syncObj, ht']
    have hown : (d.updDesc q x.n (fun y => { y with table := [] })).syncOwned o (d.queueCtx q) = true := ho
    simp [Dev.syncNamesBad, hobj, hw', Dev.queueCtx_updDesc, hown]
  have hpx' : (d.updDesc q x.n (fun y => { y with table := [] })).proxyOf o = none := hpx
  simp only [hp] at hw' ht' hs
  unfold Dev.runHead
  simp only [hx, hpick, hf, hp, hc, hs, hw', hpx', ht', Bool.true_eq_false, decide_false, Bool.or_self, Bool.false_eq_true, if_false,
    Option.isSome_none, ne_eq, not_true_eq_false, Bool.and_false]

/-! ### O23 -/

/-- What a link-map descriptor does, by its operation. -/
theorem linkMapRow_startsNow {s : State} {e : Dev} {q op : Nat} {y : Desc} (hq : q < 4096)
    (h : s.dev.startsNow q Dev.linkMapCheck e y) (ht : y.typ = 21) (ho : y.body 0 1 = op) :
    linkMapRow q op s = .next (s.completes (e.linkMap (e.queueCtx q) y) q y 0) := by
  unfold linkMapRow
  simp only [Bool.or_assoc]
  exact opRow_startsNow _ hq h ht ho

/-- What a sync descriptor that does not wait does. -/
theorem syncOpRow_startsNow {s : State} {e : Dev} {q op : Nat} {y : Desc} (f : Dev → Nat → Nat → Dev) (hq : q < 4096)
    (h : s.dev.startsNow q Dev.syncOpCheck e y) (ht : y.typ = 11) (ho : y.body 0 1 = op) :
    syncOpRow q op s f = .next (s.completes (f e (y.body 2 2 % 2 ^ 14) (y.body 4 4)) q y 0) := by
  unfold syncOpRow
  simp only [Bool.or_assoc]
  exact opRow_startsNow _ hq h ht ho

/-- Settles O23 (which base, object and slot are given out are the choices of log entries 27 and 81): each type's row completes its
descriptor with what the type does; a WAIT alone may wait. -/
theorem memorySyncAndLinkDescriptors : Obligations.MemorySyncAndLinkDescriptors := by
  refine ⟨fun s q e y check h hq => ⟨?memAlloc, ?memFree, ?syncAlloc, ?syncFree⟩, fun s q e y => ⟨fun h hq ht => ⟨fun ho => ?signal,
    fun ho => ?sreset⟩, ?wait, ?links⟩⟩
  case memAlloc =>
    rintro a rfl ht ha
    change execMemAlloc q s = _
    unfold execMemAlloc
    rw [effectRow_startsNow _ hq h ht]
    simp only [ha]
  case memFree =>
    rintro rfl ht
    change execMemFree q s = _
    unfold execMemFree
    rw [effectRow_startsNow _ hq h ht]
  case syncAlloc =>
    rintro a rfl ht ha
    change execSyncAlloc q s = _
    unfold execSyncAlloc
    rw [effectRow_startsNow _ hq h ht]
    simp only [ha]
  case syncFree =>
    rintro rfl ht
    change execSyncFree q s = _
    unfold execSyncFree
    rw [effectRow_startsNow _ hq h ht]
  case signal =>
    change syncOpRow q 1 s (fun d o v => d.syncSignal o v) = _
    rw [syncOpRow_startsNow _ hq h ht ho]
  case sreset =>
    change syncOpRow q 3 s (fun d o _ => d.syncReset o) = _
    rw [syncOpRow_startsNow _ hq h ht ho]
  case wait =>
    intro x o thr window hq ha hf hx hd hp ht hop hc hw hpx ho
    have run : exec (.syncOpWait q) s = .next (s.withDev
        (((s.dev.updDesc q x.n (fun y => { y with table := [] })).updDesc q x.n (fun y => { y with phase := .waiting })).syncWait
          o thr window (.desc q x.n))) := by
      change execSyncOpWait q s = _
      unfold execSyncOpWait syncOpRow
      rw [onUnit_alive _ hq ha, Dev.runHead_syncOpWait _ hf hx hp ht (by simp [ht, hop]) hc hw hpx ho]
      rfl
    refine ⟨fun hv => ?met, fun hv => ?unmet⟩
    case met =>
      have hg := Dev.desc_updDesc (f := fun y => { y with phase := .waiting })
        (Dev.desc_updDesc (f := fun y => { y with table := [] }) hd (fun _ => rfl)) (fun _ => rfl)
      rw [run, Dev.syncWait, if_pos (by exact hv)]
      simp only [Dev.releaseWaiter, hg]
      rw [if_pos (by exact ht)]
    case unmet =>
      rw [run, Dev.syncWait, if_neg (by exact Nat.not_le_of_lt hv)]
  case links =>
    intro h hq ht
    refine ⟨fun ho => ?_, fun ho => ?_, fun ho => ?_, fun ho => ?_⟩
    · change linkMapRow q 1 s = _
      simp only [linkMapRow_startsNow hq h ht ho, Dev.linkMap, ho]
    · change linkMapRow q 2 s = _
      simp only [linkMapRow_startsNow hq h ht ho, Dev.linkMap, ho]
    · change linkMapRow q 3 s = _
      simp only [linkMapRow_startsNow hq h ht ho, Dev.linkMap, ho]
    · change linkMapRow q 4 s = _
      simp only [linkMapRow_startsNow hq h ht ho, Dev.linkMap, ho]

end Sys2Proof.Machine
end

section
/-! Descriptors that an engine carries out (chapter 13's table): what a row hands over for a descriptor that starts now, and COPY_DONE. -/

namespace Sys2Proof.Machine

/-! ### Pipelines -/

/-- Charging URGENT's share touches no pipeline. -/
theorem Dev.urgentAccount_pipes (d : Dev) : d.urgentAccount.pipes = d.pipes := by
  unfold Dev.urgentAccount
  dsimp only
  repeat' split
  all_goals rfl

/-! ### Collectives -/

/-- What an operation of COLL does for a descriptor that starts now. -/
theorem collRow_startsNow {s : State} {e : Dev} {q op : Nat} {y : Desc} (hq : q < 4096) (h : s.dev.startsNow q Dev.collCheck e y)
    (ht : y.typ = 20) (ho : y.body 0 1 = op) : collRow q op s = .next (s.withDev (e.collStart q y).pass) := by
  unfold collRow
  simp only [Bool.or_assoc]
  exact opRow_startsNow _ hq h ht ho

/-! ### Copies -/

/-- What COPY_DONE does of a running copy. -/
theorem execCopyDone_running {s : State} {q n : Nat} {y : Desc} {g : Dev} {st res : Nat} (ha : s.dev.alive = true) (hq : q < 4096)
    (hy : s.dev.desc q n = some y) (ht : y.typ = 12) (hp : y.phase = .running) (hr : s.dev.copyRun q y = (g, st, res)) :
    execCopyDone q n s = .next (s.withDev (g.complete q n st res)) := by
  unfold execCopyDone
  rw [onUnit_alive _ hq ha]
  simp only [hy, ht, hp, hr]
  rfl

/-- Settles O26 (that the lowest free number is taken, and how an update's units are paced, are log entries 27 and 74). -/
theorem engineDescriptors : Obligations.EngineDescriptors := by
  refine ⟨fun s q e y hq => ⟨?pipeline, ?sampler, ?copy, ?update, ?audit, ?coll⟩, fun s q n y ha hq hy => ⟨fun hn => ?noCopy,
    fun ht hp => ⟨?orphaned, ?noAccess, ?moved⟩⟩⟩
  case pipeline =>
    intro h ht
    change execPipeline q s = _
    unfold execPipeline
    rw [runRow_startsNow _ hq h (fun x hx => by simp [Desc.typ_of_raw hx, ht])]
    unfold Dev.pipelineBind
    dsimp only
    rw [Dev.urgentAccount_pipes]
    congr 6
    funext d k
    cases k.2.2 <;> rfl
  case sampler =>
    intro h ht
    refine ⟨fun h16 => ?_, fun h17 => ?_⟩
    · change execSample q s = _
      unfold execSample
      rw [runRow_startsNow _ hq h (fun x hx => by simp [Desc.typ_of_raw hx, h16])]
      rfl
    · change execGambit q s = _
      unfold execGambit
      rw [runRow_startsNow _ hq h (fun x hx => by simp [Desc.typ_of_raw hx, h17])]
      rfl
  case copy =>
    intro h ht
    change execCopy q s = _
    unfold execCopy
    rw [runRow_startsNow _ hq h (fun x hx => by simp [Desc.typ_of_raw hx, ht])]
  case update =>
    intro g ue block prog h ht hg
    dsimp only
    intro hb
    have run : exec (.update q) s = .next (s.withDev (e.updateStart q y).pass) := by
      change execUpdate q s = _
      unfold execUpdate
      rw [runRow_startsNow _ hq h (fun x hx => by simp [Desc.typ_of_raw hx, ht])]
    rw [run]
    unfold Dev.updateStart
    simp only [hg, hb]
    refine ⟨fun hu hf => ?runs, fun hu hf hb => ?skipped, fun a hu => ?ue⟩
    case runs =>
      subst hu
      have hr : (!(decide (y.body 0x20 8 ≠ 0) && decide (g.memNat (y.body 0x20 8) 1 ≠ 0)) || (y.body 0 1).testBit 2) = true := by
        obtain hf | hf := hf
        · rw [hf]; rfl
        · rw [hf, Bool.or_true]
      simp only [hr, if_true]
      rfl
    case skipped =>
      subst hu
      have hr : (!(decide (y.body 0x20 8 ≠ 0) && decide (g.memNat (y.body 0x20 8) 1 ≠ 0)) || (y.body 0 1).testBit 2) = false := by
        rw [hf, hb]
        rfl
      simp only [hr, Bool.false_eq_true, if_false]
      rfl
    case ue =>
      subst hu
      rfl
  case audit =>
    intro h ht
    change execAudit q s = _
    unfold execAudit
    rw [runRow_startsNow _ hq h (fun x hx => by simp [Desc.typ_of_raw hx, ht])]
    rfl
  case coll =>
    intro h ht
    have all : ∀ d : Dev, e.collStart q y = d →
        let t := s.withDev d.pass
        (y.body 0 1 = 1 → exec (.reduceScatter q) s = .next t) ∧ (y.body 0 1 = 2 → exec (.allGather q) s = .next t) ∧
        (y.body 0 1 = 3 → exec (.allReduce q) s = .next t) ∧ (y.body 0 1 = 4 → exec (.broadcast q) s = .next t) ∧
        (y.body 0 1 = 5 → exec (.allToAll q) s = .next t) := by
      rintro d rfl
      exact ⟨fun ho => collRow_startsNow hq h ht ho, fun ho => collRow_startsNow hq h ht ho, fun ho => collRow_startsNow hq h ht ho,
        fun ho => collRow_startsNow hq h ht ho, fun ho => collRow_startsNow hq h ht ho⟩
    refine ⟨fun hap => all _ ?meet, fun hap hn => all _ ?full, fun j hap hn hj => all _ ?opens⟩
    case meet => simp only [Dev.collStart, hap, if_true]
    case full => simp only [Dev.collStart, hap, Bool.true_eq_false, if_false, hn, if_true]
    case opens => simp only [Dev.collStart, hap, Bool.true_eq_false, if_false, Nat.not_le_of_lt hn, hj, Option.getD_some]
  case noCopy =>
    change execCopyDone q n s = _
    unfold execCopyDone
    rw [onUnit_alive _ hq ha]
    simp only [hy]
    rw [if_neg]
    rw [Bool.and_eq_true, decide_eq_true_eq, beq_iff_eq]
    exact fun ⟨ht, hp⟩ => hn.elim (absurd ht) (absurd hp)
  case orphaned => 
    intro hh hs
    exact execCopyDone_running ha hq hy ht hp (by simp only [Dev.copyRun, hh, hs, Bool.and_self, if_true])
  case noAccess => 
    intro hh hs hr
    exact execCopyDone_running ha hq hy ht hp (by 
      simp [Dev.copyRun, hh, hs, hr])
  case moved =>
    intro g k w hh hg
    have hs : ((copySrcHost y || copyDstHost y) && s.dev.suppressed q) = false := by
      cases hb : copySrcHost y || copyDstHost y
      · rfl
      · simp [(hh hb).1]
    have hr : ((copySrcHost y || copyDstHost y) &&
        !s.dev.hostReach (s.dev.queueFn q) (if copySrcHost y then y.body 0 8 else y.body 8 8) (y.body 0x10 8)) = false := by
      cases hb : copySrcHost y || copyDstHost y
      · rfl
      · simp [(hh hb).2]
    refine ⟨fun hw => ?_, fun a hw => ?_⟩
    all_goals
      subst hw
      refine execCopyDone_running ha hq hy ht hp ?_
      unfold Dev.copyRun
      simp only [hs, hr, hg, Bool.false_eq_true, if_false]

end Sys2Proof.Machine
end

section
/-! In-stack commands (R156 to R173): what a stack's controller does with a command that it is given. -/

namespace Sys2Proof.Machine

section
variable {d : Dev} {n k : Nat} {c : PimCmd} {r : List PimCmd}

/-- A command at the head that has started is left. -/
theorem Dev.pimStart_started (h : (d.pimStack n).cmds = c :: r) (hs : c.started = true) : d.pimStart n (k + 1) = d := by
  unfold Dev.pimStart
  simp only [h, hs, if_true]

/-- An element command at the head that has not started is formed. -/
theorem Dev.pimStart_elements {x : Desc} (h : (d.pimStack n).cmds = c :: r) (hs : c.started = false) (hx : d.desc c.q c.n = some x)
    (ho : pimOp x ≠ 8) :
    d.pimStart n (k + 1) = d.updPim n (fun s => { s with cmds := d.pimElements x (d.ctxSat c.ctx) c :: r }) := by
  unfold Dev.pimStart
  simp only [h, hs, hx, ho, Bool.false_eq_true, if_false]

/-- A POOL at the head that has not started and whose lists hold is formed. -/
theorem Dev.pimStart_pool {x : Desc} {e : Dev} {b : PimCmd} (h : (d.pimStack n).cmds = c :: r) (hs : c.started = false)
    (hx : d.desc c.q c.n = some x) (ho : pimOp x = 8) (hp : d.poolCompute c.q x (d.ctxSat c.ctx) c = (e, .inr b)) :
    d.pimStart n (k + 1) = e.updPim n (fun s => { s with cmds := b :: r }) := by
  unfold Dev.pimStart
  simp only [h, hs, hx, ho, hp, Bool.false_eq_true, if_false, if_true]

end

/-- What a row of in-stack commands does for a descriptor that starts now. -/
theorem pimRow_startsNow {s : State} {e : Dev} {q op : Nat} {y : Desc} (hq : q < 4096) (h : s.dev.startsNow q Dev.pimCheck e y)
    (ht : y.typ = 14) (ho : pimOp y = op) : pimRow q op s = .next (s.withDev (e.pimAccept q y).pass) := by
  unfold pimRow
  simp only [Bool.or_assoc]
  exact opRow_startsNow _ hq h ht ho

/-- Settles O24 (when a command reads its sources and how many row operations it takes are log entries 19 and 62). -/
theorem inStackCommands : Obligations.InStackCommands := by
  refine ⟨fun s q e y x h hq ht hx => ?accepts, fun d x sat c => ⟨rfl, ?writes, ?sums⟩,
    fun a b c => ⟨rfl, rfl, rfl, rfl, rfl, rfl, rfl⟩⟩
  case accepts =>
    intro n c g does
    refine ⟨fun b r hr hb => ?joins, fun hr ho => ?starts⟩
    case joins =>
      have hg : (g.pimStack n).cmds = b :: (r ++ [c]) := by simp [g, hr]
      have acc : e.pimAccept q y = g := Dev.pimStart_started hg hb
      have row : ∀ op, pimOp y = op → pimRow q op s = .next (s.withDev g.pass) := fun op ho => acc ▸ pimRow_startsNow hq h ht ho
      exact ⟨row 1, row 2, row 3, row 4, row 5, row 6, row 7, row 8⟩
    case starts =>
      have hg : (g.pimStack n).cmds = c :: [] := by simp [g, hr]
      intro t
      have row : ∀ op, pimOp y = op → op ≠ 8 → pimRow q op s = .next (s.withDev t.pass) := fun op hop h8 =>
        have acc : e.pimAccept q y = t := Dev.pimStart_elements hg rfl hx (by rw [ho, hop]; exact h8)
        acc ▸ pimRow_startsNow hq h ht hop
      refine ⟨fun hop => row 1 hop (by decide), fun hop => row 2 hop (by decide), fun hop => row 3 hop (by decide),
        fun hop => row 4 hop (by decide), fun hop => row 5 hop (by decide), fun hop => row 6 hop (by decide),
        fun hop => row 7 hop (by decide), fun z k hop hz => ?pool⟩
      have acc : e.pimAccept q y = z.updPim n (fun s => { s with cmds := [k] }) :=
        Dev.pimStart_pool hg rfl hx (by rw [ho, hop]) hz
      exact acc ▸ pimRow_startsNow hq h ht hop
  case writes => simp only [Dev.pimElements, List.map_map, Function.comp_def]
  case sums =>
    simp only [Dev.pimElements, List.map_map, Function.comp_def]
    split <;> rfl

end Sys2Proof.Machine
end

section
/-! The page engine (R184 to R199): what each command does where its checks hold, and the engine's work list. -/

namespace Sys2Proof.Machine

/-! ### The commands where their checks hold -/

section
variable {d m : Dev} {c seq q : Nat} {x : Desc} {s : KvSeq}

/-- SEQ_OPEN opens a sequence that is not open, at a map of the context. -/
theorem Dev.kvOpen_opens (hs : look (kvSeqNo x) d.kvp.seqs = none) (ha : kvAddr x % 64 = 0)
    (ho : d.owns c (kvAddr x) (mapBytes (kvNlayer x) (bits (kvArg x) 47 32)) = true) :
    d.kvOpen c x = (d.openSeq (kvSeqNo x) {
      ctx := c, layers := kvNlayer x, maxPages := bits (kvArg x) 47 32, w := bits (kvArg x) 18 8, fmt := kvArg x % 4,
      remoteOk := (kvRemote x).testBit 44, job := bits (kvRemote x) 43 32, len := 0, map := kvAddr x }, none) := by
  simp [Dev.kvOpen, hs, ha, ho]

/-- SEQ_CLOSE releases the pages of the context's sequence and closes it. -/
theorem Dev.kvClose_closes (hs : d.ownSeq c seq = some s)
    (hm : d.mapRead seq s (pageGrid 0 s.layers 0 (pagesOf s.len)) = (m, none)) :
    d.kvClose c seq = ((m.releaseFrom s true 0).updKvp (fun k => { k with seqs := drop1 seq k.seqs }), none) := by
  simp only [Dev.kvClose, hs, hm]

/-- POOL_ADD gives frames that no pool holds to the context. -/
theorem Dev.kvPool_adds (h1 : 1 ≤ kvCount x) (hn : kvCount x ≤ memSize / frameSize) (ha : kvAddr x % frameSize = 0)
    (hx : d.inOneExtent c (kvAddr x) (kvCount x * frameSize) = true) (hc : d.isCompute (kvAddr x) = false)
    (hf : ((List.range (kvCount x)).map (fun i => kvAddr x + i * frameSize)).any (fun f => d.kvp.pooled.any (fun p => p.2 = f)) = false) :
    d.kvPool c x = (((List.range (kvCount x)).map (fun i => kvAddr x + i * frameSize)).foldl (fun d f => d.giveKvFrame c f)
      (d.updKvp (fun k => { k with
        pooled := k.pooled ++ ((List.range (kvCount x)).map (fun i => kvAddr x + i * frameSize)).map (fun f => (c, f)) })), none) := by
  have hcount : (decide (kvCount x = 0) || decide (memSize / frameSize < kvCount x)) = false := by
    simp only [Bool.or_eq_false_iff, decide_eq_false_iff_not]
    omega
  simp only [Dev.kvPool, hcount, ha, hx, hc, hf, Bool.false_eq_true, if_false, decide_true, Bool.and_self, Bool.not_true, Bool.not_false]

/-- TRUNCATE releases the pages beyond the new length. -/
theorem Dev.kvTruncate_cuts {count : Nat} (hs : d.ownSeq c seq = some s) (hl : count ≤ s.len)
    (hm : d.mapRead seq s (pageGrid 0 s.layers (pagesOf count) (pagesOf s.len)) = (m, none)) :
    d.kvTruncate c seq count = ((m.releaseFrom s true (pagesOf count)).updKvp (fun k =>
      { k with seqs := put seq { s with len := count } k.seqs }), none) := by
  simp only [Dev.kvTruncate, hs, Nat.not_lt_of_le hl, hm, if_false]

/-- FORK, no page being at its highest count, shares every page. -/
theorem Dev.kvFork_shares (hn : look (kvSeqNo x) d.kvp.seqs = none) (hs : d.ownSeq c (x.body 0x0C 2) = some s) (hl : kvCount x ≤ s.len)
    (ha : kvAddr x % 64 = 0) (ho : d.owns c (kvAddr x) (mapBytes s.layers s.maxPages) = true)
    (hm : d.mapRead (x.body 0x0C 2) s (pageGrid 0 s.layers 0 (pagesOf (kvCount x))) = (m, none))
    (hr : ∀ p ∈ pageGrid 0 s.layers 0 (pagesOf (kvCount x)), ∀ v, look (m.mapId s p.1 p.2) m.kvp.dir = some v → v.refcnt < 65535) :
    d.kvFork c x = ((pageGrid 0 s.layers 0 (pagesOf (kvCount x))).foldl
      (fun d p => d.forkPage s { s with len := kvCount x, map := kvAddr x } p.1 p.2)
      (m.openSeq (kvSeqNo x) { s with len := kvCount x, map := kvAddr x }), none) := by
  have full : ∀ f : Nat → Bool, (∀ p ∈ pageGrid 0 s.layers 0 (pagesOf (kvCount x)), f (m.mapId s p.1 p.2) = false) →
      ((pageGrid 0 s.layers 0 (pagesOf (kvCount x))).map (fun e => m.mapId s e.1 e.2)).filter f = [] := fun f hf => by
    rw [List.filter_eq_nil_iff]
    intro i hi
    obtain ⟨p, hp, rfl⟩ := List.mem_map.1 hi
    simp [hf p hp]
  unfold Dev.kvFork
  simp only [hn, hs, Nat.not_lt_of_le hl, ha, ho, hm, Option.isSome_none, Bool.false_eq_true, if_false, decide_true, Bool.and_self,
    Bool.not_true]
  rw [full _ (fun p hp => by
    cases hv : look (m.mapId s p.1 p.2) m.kvp.dir with
    | none => rfl
    | some v => simpa using hr p hp v hv)]
  simp [Dev.readsOk]

/-- FETCH takes frames for its pages and asks the peer for them. -/
theorem Dev.kvFetch_asks {todo : List KvRead} (hs : d.ownSeq c (kvSeqNo x) = some s)
    (hf : fetchShapeOk s (x.body 0x0E 2) (kvNlayer x) (kvCount x) = true)
    (hn : (pageGrid (x.body 0x0E 2) (kvNlayer x) 0 (pagesOf (kvCount x))).length ≤ d.framesFree c)
    (he : (pageGrid (x.body 0x0E 2) (kvNlayer x) 0 (pagesOf (kvCount x))).length ≤ d.entriesFree)
    (hg : pageGrid (x.body 0x0E 2) (kvNlayer x) 0 (pagesOf (kvCount x)) ≠ [])
    (ht : d.takeFrames c 0 (pageGrid (x.body 0x0E 2) (kvNlayer x) 0 (pagesOf (kvCount x))) = (m, todo)) :
    let f : KvFetch := { kind := .fetch, q := q, n := x.n, ctx := c, seq := kvSeqNo x, peer := kvRemote x % 65536,
                         peerSeq := bits (kvRemote x) 31 16, job := bits (kvRemote x) 43 32, count := kvCount x, todo := todo, got := [] }
    d.kvFetch c q x = ((m.updKvp (fun k => { k with fetches := k.fetches ++ [f] })).sendReads f, none) := by
  simp [Dev.kvFetch, hs, hf, Nat.not_lt_of_le hn, Nat.not_lt_of_le he, hg, ht]

/-- PUSH reads its pages and sends them to the peer. -/
theorem Dev.kvPush_sends {u : Dev} (hs : d.ownSeq c (kvSeqNo x) = some s) (h1 : 1 ≤ kvNlayer x)
    (hl : x.body 0x0E 2 + kvNlayer x ≤ s.layers) (hc : kvCount x ≤ s.len)
    (hm : d.mapRead (kvSeqNo x) s (pageGrid (x.body 0x0E 2) (kvNlayer x) 0 (pagesOf (kvCount x))) = (m, none)) :
    let pages := (pageGrid (x.body 0x0E 2) (kvNlayer x) 0 (pagesOf (kvCount x))).filterMap
      (fun e => (look (m.mapId s e.1 e.2) m.kvp.dir).map (fun p => (e, p)))
    m.readsOk c s.used (pages.map (fun p => p.2.frame)) = (u, none) → pages ≠ [] →
    let f : KvFetch := { kind := .pushOut, q := q, n := x.n, ctx := c, seq := kvSeqNo x, peer := kvRemote x % 65536,
                         peerSeq := bits (kvRemote x) 31 16, job := bits (kvRemote x) 43 32, count := kvCount x, todo := [], got := [] }
    d.kvPush c q x = (pages.foldl (fun d p => (List.range (s.used / 1024)).foldl (fun d i => d.bamatSend { BamatPkt.blank with
      op := 9, vc := 5, job := f.job, tag := f.peerSeq, dstdev := f.peer, srcdev := d.selfDev, dstep := 321, srcep := 321,
      addr := 1024 * i + p.1.1 * 2 ^ 15 + p.1.2 * 2 ^ 23 + (s.layers - 1) * 2 ^ 40, cnt := kvNlayer x % 256,
      total := x.body 0x0E 2 % 256, hb := s.shape, arg := p.2.fill + 128 * b2n (i + 1 = s.used / 1024) + f.count * 256,
      payload := d.memBytes (p.2.frame + 1024 * i) 1024 }) d) (u.updKvp (fun k => { k with fetches := k.fetches ++ [f] })), none) := by
  intro pages hr hp f
  have hpe : pages.isEmpty = false := by simpa using hp
  have shape : (!(decide (1 ≤ kvNlayer x) && decide (x.body 0x0E 2 + kvNlayer x ≤ s.layers)) || decide (s.len < kvCount x)) = false := by
    simp [h1, hl, hc]
  unfold Dev.kvPush
  simp only [hs, shape, hm, Bool.false_eq_true, if_false]
  rw [hr]
  simp only [pages] at hpe
  simp only [hpe, Bool.false_eq_true, if_false]
  rfl

end

/-! ### The engine's work list -/

/-- What a row of page commands does for a descriptor that starts now. -/
theorem kvRow_startsNow {s : State} {e : Dev} {q op : Nat} {y : Desc} (hq : q < 4096) (h : s.dev.startsNow q Dev.kvCheck e y)
    (ht : y.typ = 15) (ho : y.body 0 1 = op) : kvRow q op s = .next (s.withDev (e.kvAccept (.desc q y.n)).pass) := by
  unfold kvRow
  simp only [Bool.or_assoc]
  exact opRow_startsNow _ hq h ht ho

/-- While an APPEND runs, work joins the end of the list. -/
theorem Dev.kvAccept_running {d : Dev} {w : KvWork} (h : d.kvp.running.isSome = true) :
    d.kvAccept w = (d.updKvp (fun k => { k with work := k.work ++ [w] })).kvShow := by
  obtain ⟨a, ha⟩ := Option.isSome_iff_exists.1 h
  have hr : (d.updKvp (fun k => { k with work := k.work ++ [w] })).kvp.running = some a := ha
  unfold Dev.kvAccept Dev.kvPump
  simp only [hr]

/-- An idle engine does work that nothing holds at once. -/
theorem Dev.kvAccept_idle {d : Dev} {w : KvWork} (hr : d.kvp.running = none) (hw : d.kvp.work = [])
    (hh : (d.updKvp (fun k => { k with work := k.work ++ [w] })).workHeld w = false) :
    d.kvAccept w = (((d.updKvp (fun k => { k with work := k.work ++ [w] })).updKvp (fun k => { k with work := [] })).kvBegin w).kvPump 1 := by
  have hr' : (d.updKvp (fun k => { k with work := k.work ++ [w] })).kvp.running = none := hr
  have hw' : (d.updKvp (fun k => { k with work := k.work ++ [w] })).kvp.work = [w] := by simp [Dev.updKvp, hw]
  have step : ∀ g : Dev, g.kvp.running = none → g.kvp.work = [w] → g.workHeld w = false →
      g.kvPump 2 = ((g.updKvp (fun k => { k with work := [] })).kvBegin w).kvPump 1 := fun g hr hw hh => by
    rw [Dev.kvPump]
    simp only [hr, hw, hh, Bool.false_eq_true, if_false]
  unfold Dev.kvAccept
  simp only [hw', List.length_singleton]
  exact step _ hr' hw' hh

section
variable {d : Dev} {q n : Nat} {y : Desc} {r : Dev} (hy : d.desc q n = some y)
include hy

/-- SEQ_OPEN, in the engine's hands. -/
theorem Dev.kvBegin_open (ho : y.body 0 1 = 1) (h : d.kvOpen (d.queueCtx q) y = (r, none)) :
    d.kvBegin (.desc q n) = r.complete q n stOk 0 := by simp only [Dev.kvBegin, hy, ho, h, Dev.kvAnswer]

/-- SEQ_CLOSE, in the engine's hands. -/
theorem Dev.kvBegin_close (ho : y.body 0 1 = 2) (h : d.kvClose (d.queueCtx q) (kvSeqNo y) = (r, none)) :
    d.kvBegin (.desc q n) = r.complete q n stOk 0 := by simp only [Dev.kvBegin, hy, ho, h, Dev.kvAnswer]

/-- POOL_ADD, in the engine's hands. -/
theorem Dev.kvBegin_pool (ho : y.body 0 1 = 3) (h : d.kvPool (d.queueCtx q) y = (r, none)) :
    d.kvBegin (.desc q n) = r.complete q n stOk 0 := by simp only [Dev.kvBegin, hy, ho, h, Dev.kvAnswer]

/-- APPEND, in the engine's hands: it goes through its entries. -/
theorem Dev.kvBegin_append {es : List (Nat × Nat × Nat)} {fs : List Nat} (ho : y.body 0 1 = 4)
    (h : d.kvAppendCheck (d.queueCtx q) y = (r, .inr (es, fs))) :
    d.kvBegin (.desc q n) = (r.updKvp (fun k => { k with
      running := some { q := q, n := n, ctx := d.queueCtx q, entries := es, ue := none, reserved := fs } })).appendGo (es.length + 1) := by
  simp only [Dev.kvBegin, hy, ho, h]

/-- FORK, in the engine's hands. -/
theorem Dev.kvBegin_fork (ho : y.body 0 1 = 5) (h : d.kvFork (d.queueCtx q) y = (r, none)) :
    d.kvBegin (.desc q n) = r.complete q n stOk 0 := by simp only [Dev.kvBegin, hy, ho, h, Dev.kvAnswer]

/-- TRUNCATE, in the engine's hands. -/
theorem Dev.kvBegin_truncate (ho : y.body 0 1 = 6) (h : d.kvTruncate (d.queueCtx q) (kvSeqNo y) (kvCount y) = (r, none)) :
    d.kvBegin (.desc q n) = r.complete q n stOk 0 := by simp only [Dev.kvBegin, hy, ho, h, Dev.kvAnswer]

/-- FETCH, in the engine's hands: it goes on. -/
theorem Dev.kvBegin_fetch (ho : y.body 0 1 = 7) (h : d.kvFetch (d.queueCtx q) q y = (r, none)) : d.kvBegin (.desc q n) = r := by
  simp only [Dev.kvBegin, hy, ho, h]

/-- PUSH, in the engine's hands: it goes on. -/
theorem Dev.kvBegin_push (ho : y.body 0 1 = 8) (h : d.kvPush (d.queueCtx q) q y = (r, none)) : d.kvBegin (.desc q n) = r := by
  simp only [Dev.kvBegin, hy, ho, h]

end

/-- Settles O25 (that accepted work is begun in order, and where a PUSH's packets name their parts, are the choices of log entries 66 and
22): work joins the end of the list, and an idle engine begins it at once. -/
theorem pageCommands : Obligations.PageCommands := by
  intro s q e y h hq ht w g
  refine ⟨fun hrun => ?joins, fun hrun hwork hheld hy => ?idle⟩
  case joins =>
    have acc : e.kvAccept w = g.kvShow := Dev.kvAccept_running hrun
    have row : ∀ op, y.body 0 1 = op → kvRow q op s = .next (s.withDev g.kvShow.pass) := fun op ho => acc ▸ kvRow_startsNow hq h ht ho
    exact ⟨row 1, row 2, row 3, row 4, row 5, row 6, row 7, row 8⟩
  case idle =>
    intro z c seq does ends
    have hz : z.desc q y.n = some y := hy
    have row : ∀ op t, y.body 0 1 = op → z.kvBegin w = t → kvRow q op s = .next (s.withDev ((t.kvPump 1).pass)) := fun op t ho hb => by
      rw [kvRow_startsNow hq h ht ho, Dev.kvAccept_idle hrun hwork hheld]
      exact congrArg (fun d : Dev => Host.Outcome.next (s.withDev ((d.kvPump 1).pass))) hb
    refine ⟨fun ho hs => ?opens, fun x m ho hs hm => ?closes, fun ho h1 hn ha hx hc => ?pools, fun m es fs ho hm => ?appends,
      fun x m ho hn hs hl ha how => ?forks, fun x m ho hs hl hm => ?cuts, fun x m todo ho hs hf => ?fetches,
      fun x m u ho hs h1 hl hc => ?pushes⟩
    case opens =>
      intro x ha how
      exact row 1 _ ho (Dev.kvBegin_open hz ho (Dev.kvOpen_opens hs ha how))
    case closes => exact row 2 _ ho (Dev.kvBegin_close hz ho (Dev.kvClose_closes hs hm))
    case pools =>
      intro fs hf
      exact row 3 _ ho (Dev.kvBegin_pool hz ho (Dev.kvPool_adds h1 hn ha hx hc hf))
    case appends => exact row 4 _ ho (Dev.kvBegin_append hz ho hm)
    case forks =>
      intro v grid hm hr
      exact row 5 _ ho (Dev.kvBegin_fork hz ho (Dev.kvFork_shares hn hs hl ha how hm hr))
    case cuts => exact row 6 _ ho (Dev.kvBegin_truncate hz ho (Dev.kvTruncate_cuts hs hl hm))
    case fetches =>
      intro grid hn he hg htake f
      exact row 7 _ ho (Dev.kvBegin_fetch hz ho (Dev.kvFetch_asks hs hf hn he hg htake))
    case pushes =>
      intro grid hm pages hr hp f n
      exact row 8 _ ho (Dev.kvBegin_push hz ho (Dev.kvPush_sends hs h1 hl hc hm hr hp))

end Sys2Proof.Machine
end

section
/-! The events of a pipeline (R98, R101) and of the network (R108 to R125). -/

namespace Sys2Proof.Machine

/-! ### Pipelines -/

/-- PIPE_BOUND of a number that no pipeline has. -/
theorem execPipeBound_none {s : State} {p : Nat} (ha : s.dev.alive = true) (hp : p < 4096) (h : look p s.dev.pipes = none) :
    execPipeBound p s = .next s := by
  unfold execPipeBound
  rw [onUnit_alive _ hp ha, h]

/-- PIPE_DONE of a number that no pipeline has. -/
theorem execPipeDone_none {s : State} {p : Nat} (ha : s.dev.alive = true) (hp : p < 4096) (h : look p s.dev.pipes = none) :
    execPipeDone p s = .next s := by
  unfold execPipeDone
  rw [onUnit_alive _ hp ha, h]

/-- A pipeline that ends is freed and its descriptor completes with OK. -/
theorem Dev.endPipe_ok {d : Dev} {p : Nat} {x : Pipe} (h : look p d.pipes = some x) :
    d.endPipe p stOk 0 =
      let d := (d.streams.filter (fun e => e.2.pipe = p)).foldl (fun d e => d.endStream true e.1 e.2) d
      let d := x.tiles.foldl (fun d t => d.freeTile x.ctx t) d
      let d := { d.urgentAccount with pipes := drop1 p d.pipes }
      (List.range 16).foldl Dev.smpStarved (d.complete x.q x.n stOk 0) := by
  simp only [Dev.endPipe, h, decide_true]

/-- Settles O27 (that a pipeline event which is not due changes nothing is log entry 7's choice). -/
theorem pipelineEvents : Obligations.PipelineEvents := by
  intro s p ha hp
  refine ⟨fun h => ⟨execPipeBound_none ha hp h, execPipeDone_none ha hp h⟩, fun x hx => ⟨fun hr he => ?binds, fun hn => ?boundBefore,
    fun hr he => ?ends, fun hn => ?notYet⟩⟩
  case binds =>
    change execPipeBound p s = _
    unfold execPipeBound
    rw [onUnit_alive _ hp ha]
    simp only [hx, hr, he, Option.isSome_none, Bool.or_self, Bool.false_eq_true, if_false]
    rfl
  case boundBefore =>
    change execPipeBound p s = _
    unfold execPipeBound
    rw [onUnit_alive _ hp ha]
    simp only [hx]
    rw [if_pos (by simpa using hn)]
  case ends =>
    intro hready
    change execPipeDone p s = _
    unfold execPipeDone
    rw [onUnit_alive _ hp ha]
    simp only [hx]
    rw [if_pos (by simp only [hr, he, Option.isNone_none, Bool.true_and]; exact hready), Dev.endPipe_ok hx]
    rfl
  case notYet =>
    change execPipeDone p s = _
    unfold execPipeDone
    rw [onUnit_alive _ hp ha]
    simp only [hx]
    rw [if_neg]
    rintro h
    simp only [Bool.and_eq_true, Option.isNone_iff_eq_none] at h
    obtain ⟨⟨hr, he⟩, hready⟩ := h
    obtain h | h | h := hn
    · simp [hr] at h
    · simp [he] at h
    · rw [hready] at h
      exact absurd h (by decide)

end Sys2Proof.Machine
end

section
/-! Packets on the on-die network (R108 to R125): injection, adding on the way, purges and retries of a link. -/

namespace Sys2Proof.Machine

/-! ### Adding on the way -/

section
variable {d : Dev} {node port cycle dev : Nat} {hdr : Option BamatPkt} {p : NocPkt}

/-- The packet parked at a router that an arriving one matches while its window lasts (R118, R119). -/
def Dev.partner (d : Dev) (node cycle dev : Nat) (p : NocPkt) : Option Parked :=
  d.noc.parked.find? (fun x => x.node = node && pktMatch x dev p && decide (cycle < x.ends))

/-- A packet that is not finite goes on with no budget. -/
theorem Dev.epArrive_nonfinite (hn : nonFinitePayload p = true) (h : d.partner node cycle dev p = none) :
    d.epArrive node port cycle dev hdr p = d.goesOn node dev hdr { p with hb := 0 } := by
  rw [Dev.partner] at h
  simp only [Dev.epArrive, hn, h, if_true, Option.isSome_none, Bool.false_eq_true, if_false]

/-- One that meets its partner is counted. -/
theorem Dev.epArrive_nonfinite_partner {x : Parked} (hn : nonFinitePayload p = true) (h : d.partner node cycle dev p = some x) :
    d.epArrive node port cycle dev hdr p =
      (d.satFld R.NOC_EP_MISS F.NOC_EP_MISS_NONFINITE 1).goesOn node dev hdr { p with hb := 0 } := by
  rw [Dev.partner] at h
  simp only [Dev.epArrive, hn, h, if_true, Option.isSome_some]

variable (hf : nonFinitePayload p = false)
include hf

/-- Two counts that pass the total or 255 do not merge. -/
theorem Dev.epArrive_over {x : Parked} (h : d.partner node cycle dev p = some x)
    (hc : p.total < x.pkt.cnt + p.cnt ∨ 255 < x.pkt.cnt + p.cnt) : d.epArrive node port cycle dev hdr p = d.goesOn node dev hdr p := by
  rw [Dev.partner] at h
  simp only [Dev.epArrive, hf, h, Bool.false_eq_true, if_false]
  rw [if_pos (by simpa using hc)]

/-- A finite sum merges the two. -/
theorem Dev.epArrive_merges {x : Parked} {sum : List Byte} (h : d.partner node cycle dev p = some x)
    (ht : x.pkt.cnt + p.cnt ≤ p.total) (hc : x.pkt.cnt + p.cnt ≤ 255) (hs : sumPayload x.pkt p = some sum) :
    d.epArrive node port cycle dev hdr p =
      ((d.freeEntry x cycle).satFld R.NOC_EP_CNT F.NOC_EP_CNT_MERGES 1).goesOn node dev hdr
        { p with cnt := x.pkt.cnt + p.cnt, hb := min (x.budget cycle) p.hb, payload := sum } := by
  rw [Dev.partner] at h
  simp only [Dev.epArrive, hf, h, hs, Nat.not_lt_of_le ht, Nat.not_lt_of_le hc, Bool.false_eq_true, if_false, decide_false, Bool.or_self]

/-- A sum that is not finite sends both on. -/
theorem Dev.epArrive_sum_nonfinite {x : Parked} (h : d.partner node cycle dev p = some x)
    (ht : x.pkt.cnt + p.cnt ≤ p.total) (hc : x.pkt.cnt + p.cnt ≤ 255) (hs : sumPayload x.pkt p = none) :
    d.epArrive node port cycle dev hdr p =
      (((d.freeEntry x cycle).satFld R.NOC_EP_MISS F.NOC_EP_MISS_NONFINITE 1).goesOn node x.dstdev x.hdr
        { x.pkt with hb := 0 }).goesOn node dev hdr { p with hb := 0 } := by
  rw [Dev.partner] at h
  simp only [Dev.epArrive, hf, h, hs, Nat.not_lt_of_le ht, Nat.not_lt_of_le hc, Bool.false_eq_true, if_false, decide_false, Bool.or_self]

variable (hn : d.partner node cycle dev p = none)
include hn

/-- One alone that may not park goes on. -/
theorem Dev.epArrive_alone (h : (mayPark node port p && decide (p.cnt < p.total) && decide (0 < p.hb)) = false) :
    d.epArrive node port cycle dev hdr p = d.goesOn node dev hdr p := by
  rw [Dev.partner] at hn
  simp only [Dev.epArrive, hf, hn, h, Bool.false_eq_true, if_false]

variable (h : (mayPark node port p && decide (p.cnt < p.total) && decide (0 < p.hb)) = true)
include h

/-- One alone that finds no entry free goes on, counted. -/
theorem Dev.epArrive_noFree (he : d.entryFree node cycle = false) :
    d.epArrive node port cycle dev hdr p = (d.satFld R.NOC_EP_MISS F.NOC_EP_MISS_NOFREE 1).goesOn node dev hdr p := by
  rw [Dev.partner] at hn
  simp only [Dev.epArrive, hf, hn, h, he, Bool.false_eq_true, if_false, if_true]

/-- One alone that finds an entry parks. -/
theorem Dev.epArrive_parks (he : d.entryFree node cycle = true) :
    d.epArrive node port cycle dev hdr p = { d with noc := { d.noc with parked := d.noc.parked ++ [⟨node, p, dev, hdr, cycle⟩] } } := by
  rw [Dev.partner] at hn
  simp only [Dev.epArrive, hf, hn, h, he, Bool.false_eq_true, if_false, if_true]

end

/-! ### An arrival at a router -/

/-- What a router makes of a reducible packet: one of a DETERMINISTIC job, and one that may not take part, goes on (R119, R122, R276). -/
def Dev.reducibleCame (d : Dev) (node port cycle dev : Nat) (hdr : Option BamatPkt) (p : NocPkt) : Dev :=
  if d.detJob p.job then (d.detBypass node p).goesOn node dev hdr p
  else if d.fld R.NOC_CFG F.NOC_CFG_EP_EN = 0 || d.oldLink p.src || d.oldLink p.dst then d.goesOn node dev hdr p
  else d.epArrive node port cycle dev hdr p

/-- The packet in flight that an arrival of `p` at router `node` means. -/
def arrivesAt (node : Nat) (p : NocPkt) : MeshPkt → Bool := fun x => x.pkt = p && (decide (p.dst < 1024) || x.target = node)

section
variable {s : State} {node port dstdev : Nat} {odd : Bool} {p : NocPkt} (ha : s.dev.alive = true) (hn : node < 320) (hp : port < 7)
include ha hn hp

/-- An arrival that is not due changes nothing. -/
theorem execEpArrival_held (h : s.dev.portPassed node (2 * s.dev.now + b2n odd) port = true ∨ s.dev.portStopped node port = true ∨
    s.dev.meshFirst (arrivesAt node p) = false) : execEpArrival node ⟨port, odd⟩ dstdev p s = .next s := by
  have held : (s.dev.portPassed node (2 * s.dev.now + b2n odd) port || s.dev.portStopped node port ||
      s.dev.meshFirst (arrivesAt node p) = false) = true := by simpa [or_assoc] using h
  unfold execEpArrival
  rw [onUnits_alive _ (by simp [badUnit, hn, hp]) ha]
  exact congrArg (fun d : Dev => Host.Outcome.next (s.withDev d)) (if_pos held)

variable (hpass : s.dev.portPassed node (2 * s.dev.now + b2n odd) port = false) (hstop : s.dev.portStopped node port = false)
  (hfirst : s.dev.meshFirst (arrivesAt node p) = true)
include hpass hstop hfirst

/-- What an arrival that is due does. -/
theorem execEpArrival_due : execEpArrival node ⟨port, odd⟩ dstdev p s = .next (s.withDev (
    let hdr := (s.dev.noc.flight.find? (arrivesAt node p)).bind (fun x => x.hdr)
    let d := s.dev.meshTaken (arrivesAt node p)
    if s.dev.purgingNow p.job then d
    else if reducible p = false then
      if p.typ ≠ 5 && (decide (1024 ≤ p.dst) || node = targetRouter p) then d else s.dev
    else
      ({ d with noc := { d.noc with handled := put node (2 * s.dev.now + b2n odd, port) d.noc.handled } } : Dev).reducibleCame node port
        (2 * s.dev.now + b2n odd) ((hdr.map (fun h => h.dstdev)).getD dstdev) hdr p)) := by
  have due : ¬ (s.dev.portPassed node (2 * s.dev.now + b2n odd) port || s.dev.portStopped node port ||
      s.dev.meshFirst (arrivesAt node p) = false) = true := by simp [hpass, hstop, hfirst]
  unfold execEpArrival
  rw [onUnits_alive _ (by simp [badUnit, hn, hp]) ha]
  exact congrArg (fun d : Dev => Host.Outcome.next (s.withDev d)) (if_neg due)

end

/-- Settles O28 (what an arrival, a merge, a reserved type and a retry do beyond the rules' words is the choice of log entries 54 to 58):
each row's branches in turn. -/
theorem packets : Obligations.Packets := by
  refine ⟨fun s p ha => ⟨fun hb => ?bad, fun hd hv hp => ?purged, fun hd hv hp => ?sent⟩,
    fun s node port dstdev odd p ha hn hp => ?arrival,
    fun s ha => ⟨fun hp => ?noPurge, fun job quiet r hp => ?purgeDone, fun node dir again hn hd => ?retry⟩⟩
  case bad =>
    change execPacketInject p s = _
    unfold execPacketInject
    rw [onDev_alive _ ha, if_pos (by simpa using hb)]
    rfl
  case purged =>
    change execPacketInject p s = _
    unfold execPacketInject
    rw [onDev_alive _ ha, if_neg (by simp [hd, hv]), if_pos hp]
  case sent =>
    change execPacketInject p s = _
    unfold execPacketInject
    rw [onDev_alive _ ha, if_neg (by simp [hd, hv]), if_neg (by simp [hp])]
    rfl
  case arrival =>
    intro cycle mine d ans
    refine ⟨fun h => ?held, fun hpass hstop hfirst => ⟨fun hj => ?taken, fun hj hr => ?plain, fun hj hr => ?reducible⟩,
      fun x hx => ?expires, fun hx => ?noExpiry⟩
    case held => exact execEpArrival_held ha hn hp h
    case taken =>
      refine (execEpArrival_due ha hn hp hpass hstop hfirst).trans ?_
      dsimp only
      rw [if_pos hj]
      rfl
    case plain =>
      refine (execEpArrival_due ha hn hp hpass hstop hfirst).trans ?_
      dsimp only
      rw [if_neg (by simp [hj]), if_pos hr]
      by_cases h : p.typ ≠ 5 && (decide (1024 ≤ p.dst) || node = targetRouter p)
      · rw [if_pos h, if_pos (by simpa using h)]
        rfl
      · rw [if_neg h, if_neg (by simpa using h)]
        rfl
    case reducible =>
      intro hdr dev d on partner
      have run : ans = .next (s.withDev (d.reducibleCame node port cycle dev hdr p)) := by
        refine (execEpArrival_due ha hn hp hpass hstop hfirst).trans ?_
        dsimp only
        rw [if_neg (by simp [hj]), if_neg (by simp [hr])]
        rfl
      have gives : ∀ g : Dev, d.reducibleCame node port cycle dev hdr p = g → ans = .next (s.withDev g) := fun g hg => hg ▸ run
      refine ⟨fun hd => gives _ ?det, fun hd h => gives _ ?apart, fun hd he hsrc hdst => ?takesPart⟩
      case det => rw [Dev.reducibleCame, if_pos hd]
      case apart => rw [Dev.reducibleCame, if_neg (by simp [hd]), if_pos (by simpa [or_assoc] using h)]
      case takesPart =>
        have part : ∀ g : Dev, d.epArrive node port cycle dev hdr p = g → ans = .next (s.withDev g) := fun g hg => gives g (by
          rw [Dev.reducibleCame, if_neg (by simp [hd]), if_neg (by simp [he, hsrc, hdst]), hg])
        exact ⟨fun hf hx => part _ (Dev.epArrive_nonfinite hf hx), fun x hf hx => part _ (Dev.epArrive_nonfinite_partner hf hx),
          fun x hf hx => ⟨fun hc => part _ (Dev.epArrive_over hf hx hc), fun ht hc =>
            ⟨fun sum hs => part _ (Dev.epArrive_merges hf hx ht hc hs), fun hs => part _ (Dev.epArrive_sum_nonfinite hf hx ht hc hs)⟩⟩,
          fun hf hx => ⟨fun h => part _ (Dev.epArrive_alone hf hx h), fun h =>
            ⟨fun he => part _ (Dev.epArrive_noFree hf hx h he), fun he => part _ (Dev.epArrive_parks hf hx h he)⟩⟩⟩
    case expires =>
      change execEpHoldExpiry node s = _
      unfold execEpHoldExpiry
      rw [onUnit_alive _ hn ha]
      have hx' : s.dev.noc.parked.find? (fun x => x.node = node && decide (x.ends ≤ 2 * s.dev.now + 1)) = some x := hx
      simp only [hx']
      rfl
    case noExpiry =>
      change execEpHoldExpiry node s = _
      unfold execEpHoldExpiry
      rw [onUnit_alive _ hn ha]
      have hx' : s.dev.noc.parked.find? (fun x => x.node = node && decide (x.ends ≤ 2 * s.dev.now + 1)) = none := hx
      simp only [hx']
  case noPurge =>
    change execPurgeDone s = _
    unfold execPurgeDone
    rw [onDev_alive _ ha, hp]
  case purgeDone =>
    change execPurgeDone s = _
    unfold execPurgeDone
    rw [onDev_alive _ ha]
    simp only [hp]
    rfl
  case retry =>
    have hu : badUnit [("router", 320, node), ("router port", 5, dir)] = none := by simp [badUnit, hn, hd]
    refine ⟨fun hno => ?noLink, fun row times hf hl hr => ?counts⟩
    case noLink =>
      change execFlitCrcFail node dir again s = _
      unfold execFlitCrcFail
      rw [onUnits_alive _ hu ha, if_pos (by simpa using hno)]
    case counts =>
      dsimp only
      refine ⟨fun hnow => ?_, fun hnow => ?_⟩
      · change execFlitCrcFail node dir again s = _
        unfold execFlitCrcFail
        rw [onUnits_alive _ hu ha, if_neg (by simp [hf, hl])]
        simp only [hr]
        rw [if_neg hnow]
        rfl
      · change execFlitCrcFail node dir again s = _
        unfold execFlitCrcFail
        rw [onUnits_alive _ hu ha, if_neg (by simp [hf, hl])]
        simp only [hr]
        rw [if_pos hnow]
        rfl

end Sys2Proof.Machine
end

section
/-! The memory controllers (R130 to R167): reads of a granule, write-backs, boundaries, the fallback, evacuation, scrubs and refreshes. -/

namespace Sys2Proof.Machine

/-! ### Reads of a granule -/

section
variable {d : Dev} {a : Nat} {w : Access} {err retry : Wrong}

/-- A granule of COMPUTE that may be accessed reads clean. -/
theorem Dev.granuleRead_compute (hf : d.accessFails (a / 64 * 64) = false) (hc : d.isCompute (a / 64 * 64) = true) :
    d.granuleRead w a err retry = (d, .clean) := by
  simp only [Dev.granuleRead, hf, hc, Bool.false_eq_true, if_false, if_true]

section
variable (hf : d.accessFails (a / 64 * 64) = false) (hc : d.isCompute (a / 64 * 64) = false)
  (hw : d.mem.wbPend.contains (d.phys (a / 64 * 64) / 64) = false)
include hf hc hw

/-- A granule with no error reads clean. -/
theorem Dev.granuleRead_clean (h : decodeWord (wrongAdd (d.seenErr (d.phys (a / 64 * 64))) err) = .clean) :
    d.granuleRead w a err retry = (d, .clean) := by
  simp only [Dev.granuleRead, hf, hc, hw, h, Bool.false_eq_true, if_false]

/-- One wrong symbol is corrected, counted and queued for writing back. -/
theorem Dev.granuleRead_corrected {pos : Nat} {v : Byte}
    (h : decodeWord (wrongAdd (d.seenErr (d.phys (a / 64 * 64))) err) = .corrected pos v) :
    d.granuleRead w a err retry =
      ((d.countCe (d.phys (a / 64 * 64)) pos v).wbQueue (d.phys (a / 64 * 64)), .mended) := by
  simp only [Dev.granuleRead, hf, hc, hw, h, Bool.false_eq_true, if_false]

variable (h1 : decodeWord (wrongAdd (d.seenErr (d.phys (a / 64 * 64))) err) = .ue ∨
  decodeWord (wrongAdd (d.seenErr (d.phys (a / 64 * 64))) err) = .addrErr)
include h1

/-- An error that the read again does not show is counted alone. -/
theorem Dev.granuleRead_again_clean (h : decodeWord (wrongAdd (d.seenErr (d.phys (a / 64 * 64))) retry) = .clean) :
    d.granuleRead w a err retry = (d.countCe (d.phys (a / 64 * 64)) 0 0, .mended) := by
  obtain h1 | h1 := h1 <;> simp only [Dev.granuleRead, hf, hc, hw, h1, h, Bool.false_eq_true, if_false]

/-- One that the read again shows as one wrong symbol is corrected. -/
theorem Dev.granuleRead_again_corrected {pos : Nat} {v : Byte}
    (h : decodeWord (wrongAdd (d.seenErr (d.phys (a / 64 * 64))) retry) = .corrected pos v) :
    d.granuleRead w a err retry =
      ((d.countCe (d.phys (a / 64 * 64)) pos v).wbQueue (d.phys (a / 64 * 64)), .mended) := by
  obtain h1 | h1 := h1 <;> simp only [Dev.granuleRead, hf, hc, hw, h1, h, Bool.false_eq_true, if_false]

/-- One that the read again shows too is uncorrectable. -/
theorem Dev.granuleRead_fails (h : decodeWord (wrongAdd (d.seenErr (d.phys (a / 64 * 64))) retry) = .ue ∨
    decodeWord (wrongAdd (d.seenErr (d.phys (a / 64 * 64))) retry) = .addrErr) :
    d.granuleRead w a err retry = (d.ueAt w (a / 64 * 64) (d.phys (a / 64 * 64))
      (decodeWord (wrongAdd (d.seenErr (d.phys (a / 64 * 64))) retry) = .addrErr), .fail) := by
  obtain h1 | h1 := h1 <;> obtain h | h := h <;>
    simp only [Dev.granuleRead, hf, hc, hw, h1, h, Bool.false_eq_true, if_false, decide_true, reduceCtorEq, decide_false]

end
end

/-- A read that does not fail leaves the device as its granule's read does. -/
theorem Dev.serveRead_of_ne_fail {d e : Dev} {a : Nat} {who : Consumer} {err retry : Wrong} {r : GRead}
    (h : d.granuleRead (d.accessOf who) a err retry = (e, r)) (hr : r ≠ .fail) : d.serveRead a who err retry = e := by
  unfold Dev.serveRead
  rw [h]
  cases r with
  | clean => rfl
  | mended => rfl
  | fail => exact absurd rfl hr

/-- A read that fails stores what it met and ends its consumer. -/
theorem Dev.serveRead_of_fail {d e : Dev} {a : Nat} {who : Consumer} {err retry : Wrong}
    (h : d.granuleRead (d.accessOf who) a err retry = (e, .fail)) :
    d.serveRead a who err retry =
      let errs := retry.foldl (fun l (k : Nat × Byte) => canonSet zeroByte l (e.phys a / 64 * 128 + k.1 % 128) k.2) e.mem.err
      ({ e with mem := { e.mem with err := errs } } : Dev).consumerFails who (a / 64 * 64) := by
  unfold Dev.serveRead
  rw [h]

/-! ### Scrubs -/

/-- A scrub of a controller that has nothing to scrub changes nothing. -/
theorem Dev.scrubOne_none {d : Dev} {c : Nat} {err retry : Wrong}
    (h : (d.scrubBounds c).2 ≤ (d.scrubBounds c).1 ∨ (c < 256 ∧ 3 ≤ d.sliceState c)) : d.scrubOne c err retry = d := by
  unfold Dev.scrubOne
  dsimp only
  rw [if_pos (by simpa using h)]

/-- A scrub reads the granule at its position, mends it where it must, and passes it. -/
theorem Dev.scrubOne_reads {d g : Dev} {c : Nat} {err retry : Wrong} {r : GRead} (hb : (d.scrubBounds c).1 < (d.scrubBounds c).2)
    (hs : 256 ≤ c ∨ d.sliceState c < 3)
    (hr : (if decide ((d.scrubBounds c).2 ≤ d.scrubAddr c - ctrlBase c) || d.phys (d.scrubAddr c) ≠ d.scrubAddr c then (d, .clean)
      else d.granuleRead { scrub := true } (d.scrubAddr c) err retry) = (g, r)) :
    d.scrubOne c err retry =
      let k := if r = .mended then (g.markRow c (d.scrubAddr c)).granuleMended (d.scrubAddr c) else g
      if (d.scrubBounds c).2 ≤ (d.scrubAddr c - ctrlBase c) / 64 * 64 + 64 then (k.setScrubPos c (d.scrubBounds c).1).sweepEnd c
      else k.setScrubPos c ((d.scrubAddr c - ctrlBase c) / 64 * 64 + 64) := by
  have hbase : d.scrubAddr c - ctrlBase c =
      d.skipRetired (ctrlBase c) (d.mem.retired.length + 1) (max (d.scrubBounds c).1 (d.scrubPos c)) := by
    simp only [Dev.scrubAddr, Nat.add_sub_cancel_left]
  rw [hbase] at hr ⊢
  unfold Dev.scrubOne
  dsimp only
  rw [if_neg (by simp; omega)]
  have haddr : ctrlBase c + d.skipRetired (ctrlBase c) (d.mem.retired.length + 1) (max (d.scrubBounds c).1 (d.scrubPos c)) =
      d.scrubAddr c := rfl
  rw [haddr]
  by_cases hcond : (decide ((d.scrubBounds c).2 ≤
      d.skipRetired (ctrlBase c) (d.mem.retired.length + 1) (max (d.scrubBounds c).1 (d.scrubPos c))) ||
      decide (d.phys (d.scrubAddr c) ≠ d.scrubAddr c)) = true
  · rw [if_pos hcond] at hr ⊢
    obtain ⟨rfl, rfl⟩ := Prod.mk.inj hr
    rfl
  · rw [if_neg hcond] at hr ⊢
    rw [hr]
    cases r <;> rfl

/-- Settles O30 (where a wrong symbol stays, in which order one boundary's TSVs are taken, and what an evacuation's border serves are log
entries 44, 60 and 61). -/
theorem memoryControllers : Obligations.MemoryControllers := by
  refine ⟨fun s a who err retry ha hm => ⟨fun ho => ?refused, fun ho hb => ?waits, fun ho hb hf => ?served⟩,
    fun s ha => ⟨fun a hm => ?writeback, fun t fails ht => ?boundary, fun all hall => ⟨fun hp hy => ?fallback, fun hn => ?noFallback⟩,
      fun he => ?noEvac, fun e r he => ⟨fun hx => ?evacEnds, fun a g bad hx hr => ?evacCopies⟩, fun c err retry hc => ?scrub,
      fun t l ht hl => ?near, fun n pc bg b hn hp hbg hb => ?far⟩⟩
  case refused =>
    change execMemRead a who err retry s = _
    unfold execMemRead
    rw [onUnit_alive _ hm ha, if_pos ho]
    rfl
  case waits =>
    change execMemRead a who err retry s = _
    unfold execMemRead
    rw [onUnit_alive _ hm ha, if_neg (by simp [ho]), if_pos hb]
    rfl
  case served =>
    have run : exec (.memRead a who err retry) s = .next (s.withDev (s.dev.serveRead a who err retry)) := by
      change execMemRead a who err retry s = _
      unfold execMemRead
      rw [onUnit_alive _ hm ha, if_neg (by simp [ho]), if_neg (by simp [hb])]
      rfl
    have reads : ∀ e r, s.dev.granuleRead (s.dev.accessOf who) a err retry = (e, r) → r ≠ .fail →
        exec (.memRead a who err retry) s = .next (s.withDev e) := fun e r h hr => by
      rw [run, Dev.serveRead_of_ne_fail h hr]
    refine ⟨fun hc => ?compute, fun hc hw => ⟨fun h1 => ?clean, fun pos v h1 => ?corrected, fun h1 => ⟨fun h2 => ?againClean,
      fun pos v h2 => ?againCorrected, fun h2 => ?fails⟩⟩⟩
    case compute => exact reads _ _ (Dev.granuleRead_compute hf hc) (by decide)
    case clean => exact reads _ _ (Dev.granuleRead_clean hf hc hw h1) (by decide)
    case corrected => exact reads _ _ (Dev.granuleRead_corrected hf hc hw h1) (by decide)
    case againClean => exact reads _ _ (Dev.granuleRead_again_clean hf hc hw h1 h2) (by decide)
    case againCorrected => exact reads _ _ (Dev.granuleRead_again_corrected hf hc hw h1 h2) (by decide)
    case fails => 
      rw [run, Dev.serveRead_of_fail (Dev.granuleRead_fails hf hc hw h1 h2)]
  case writeback =>
    change execCeWriteback a s = _
    unfold execCeWriteback
    rw [onUnit_alive _ hm ha]
    rfl
  case boundary =>
    intro switched g
    have hg : (if s.dev.mem.clkPend && !s.dev.mem.switched.contains t then
        { s.dev with mem := { s.dev.mem with switched := t :: s.dev.mem.switched } } else s.dev) = g := by
      simp only [g, switched]
      split <;> rfl
    have run : exec (.refreshBoundary t fails) s = .next (s.withDev (
        if 3 ≤ g.sliceState t then g
        else
          let fails := (fails.filter (fun i => decide (i / 2 < 1184))).eraseDups
          let d := { g with mem := { g.mem with tsvFail := g.mem.tsvFail.filter (fun e => e.1 ≠ t) ++ fails.map (fun i => (t, i)) } }
          (fails.filter (fun i => g.mem.tsvFail.contains (t, i))).foldl (fun d i => d.tsvFailed t i) d)) := by
      change execRefreshBoundary t fails s = _
      unfold execRefreshBoundary
      rw [onUnit_alive _ ht ha]
      dsimp only
      rw [hg]
      rfl
    have hs : g.sliceState t = s.dev.sliceState t := rfl
    refine ⟨fun h3 => ?_, fun h3 => ?_⟩
    · rw [run, hs, if_pos h3]
    · rw [run, hs, if_neg (Nat.not_le_of_lt h3)]
  case fallback =>
    change execClkFallback s = _
    unfold execClkFallback
    rw [onDev_alive _ ha, if_pos (by rw [hp, hall, hy]; rfl)]
    rfl
  case noFallback =>
    change execClkFallback s = _
    unfold execClkFallback
    rw [onDev_alive _ ha, if_neg (by rw [hall]; simpa [imp_iff_neg_or] using hn)]
  case noEvac =>
    change execEvacPageCopy s = _
    unfold execEvacPageCopy
    rw [onDev_alive _ ha, he]
  case evacEnds =>
    change execEvacPageCopy s = _
    unfold execEvacPageCopy
    rw [onDev_alive _ ha]
    simp only [he, hx]
    rfl
  case evacCopies =>
    change execEvacPageCopy s = _
    unfold execEvacPageCopy
    rw [onDev_alive _ ha]
    simp only [he, hx, hr]
    rfl
  case scrub =>
    refine ⟨fun hf hs hb => ?_, fun hn => ⟨fun h => ?_, fun g r hb hs hr => ?_⟩⟩
    · change execScrub c err retry s = _
      unfold execScrub
      rw [onUnit_alive _ hc ha]
      dsimp only
      rw [if_pos (by simp [hf, hs, hb])]
      rfl
    all_goals
      change execScrub c err retry s = _
      unfold execScrub
      rw [onUnit_alive _ hc ha]
      dsimp only
      rw [if_neg (by
        rintro h
        simp only [Bool.and_eq_true, decide_eq_true_eq] at h
        obtain ⟨⟨h1, h2⟩, h3⟩ := h
        simp [h2, h3] at hn
        omega)]
    · rw [Dev.scrubOne_none h]
    · rw [Dev.scrubOne_reads hb hs hr]
      rfl
  case near => exact onUnits_alive id (by simp [badUnit, ht, hl]) ha
  case far =>
    have run : exec (.refresh (.far n pc bg b)) s = _ := onUnits_alive _ (by simp [badUnit, hn, hp, hbg, hb]) ha
    refine ⟨fun hs => ?_, fun hs => ?_⟩
    · rw [run]
      dsimp only
      rw [if_neg (by simp [hs])]
    · rw [run]
      dsimp only
      rw [if_pos hs]
      rfl

end Sys2Proof.Machine
end

section
/-! In-stack sequences and page transfers (R164 to R169, R184 to R199). -/

namespace Sys2Proof.Machine

/-! ### Sequences -/

section
variable {s : State} {n lane rows : Nat} (ha : s.dev.alive = true) (hn : n < 16) (hl : lane < 128)
include ha hn hl

/-- What SEQUENCE_START does, the stack's window rolled on. -/
theorem execSequenceStart_eq : execSequenceStart n lane rows s = .next (s.withDev (
    let d := s.dev.pimRoll n
    let charge := rows * d.fld (R.PIM_STK_BUDGET n) F.PIM_STK_BUDGET_ROWOP_NJ
    if d.seqAllowed n lane rows = false then d
    else if d.fld (R.PIM_STK_BUDGET n) F.PIM_STK_BUDGET_BUDGET_UJ * 1000 < (d.pimStack n).spent + charge then d.pimDefer n
    else (d.updPim n (fun x => { x with
      spent := x.spent + charge, seqs := x.seqs ++ [⟨lane, rows, d.now⟩],
      cmds := x.cmds.modifyHead (fun c => { c with lanes := alter lane (fun k => k - rows) c.lanes }) })).pimActive n)) := by
  have head : ∀ x : PimStack, (match x.cmds with
      | [] => []
      | c :: r => { c with lanes := alter lane (fun k => k - rows) c.lanes } :: r) =
      x.cmds.modifyHead (fun c => { c with lanes := alter lane (fun k => k - rows) c.lanes }) := fun x => by
    cases x.cmds <;> rfl
  unfold execSequenceStart
  rw [onUnits_alive _ (by simp [badUnit, hn, hl]) ha]
  simp only [← head]
  rfl

/-- SEQUENCE_END of a lane that runs none. -/
theorem execSequenceEnd_none (h : (s.dev.pimStack n).seqs.any (fun e => e.lane = lane) = false) :
    execSequenceEnd n lane s = .next s := by
  unfold execSequenceEnd
  rw [onUnits_alive _ (by simp [badUnit, hn, hl]) ha]
  dsimp only
  rw [if_pos (by simpa using h)]

/-- SEQUENCE_END of a running lane. -/
theorem execSequenceEnd_runs (h : (s.dev.pimStack n).seqs.any (fun e => e.lane = lane) = true) :
    let x := s.dev.pimStack n
    let mine := x.held.filter (fun h => h.1 = lane)
    let worst := mine.foldl (fun m h => max m (s.dev.now - h.2.1)) (s.dev.fld (R.PIM_STK_HOLD n) F.PIM_STK_HOLD_HOLD_MAX)
    let g := ((s.dev.updPim n (fun x => { x with
        seqs := x.seqs.filter (fun e => e.lane ≠ lane), postponed := x.postponed.filter (fun e => e.1 / 4 ≠ lane),
        held := x.held.filter (fun h => h.1 ≠ lane) })).wrapFld (R.PIM_STK_STAT n) F.PIM_STK_STAT_SEQUENCES 1).setFld
        (R.PIM_STK_HOLD n) F.PIM_STK_HOLD_HOLD_MAX (min worst 65535)
    execSequenceEnd n lane s = .next (s.withDev ((mine.foldl (fun d h => d.serveHeld n h.2.2) g).pimActive n)) := by
  unfold execSequenceEnd
  rw [onUnits_alive _ (by simp [badUnit, hn, hl]) ha]
  dsimp only
  rw [if_neg (by simpa using h)]
  rfl

end

/-! ### The end of a command -/

section
variable {s : State} {n : Nat} {c : PimCmd} {r : List PimCmd} (ha : s.dev.alive = true) (hn : n < 16)
include ha hn

/-- PIM_CMD_DONE of a stack with no command, or whose lanes run sequences. -/
theorem execPimCmdDone_none (h : (s.dev.pimStack n).cmds = [] ∨ (s.dev.pimStack n).seqs ≠ []) : execPimCmdDone n s = .next s := by
  unfold execPimCmdDone
  rw [onUnit_alive _ hn ha]
  cases hc : (s.dev.pimStack n).cmds with
  | nil => rfl
  | cons c r =>
    have hs : (s.dev.pimStack n).seqs.isEmpty = false := by simpa [hc] using h
    simp only [hs, Bool.not_false, Bool.true_or, if_true]

variable (hs : (s.dev.pimStack n).seqs = []) (hc : (s.dev.pimStack n).cmds = c :: r)
include hs hc

/-- PIM_CMD_DONE of a stack no lane of which runs a sequence. -/
theorem execPimCmdDone_head : execPimCmdDone n s = .next (s.withDev (
    if c.started = false then s.dev
    else if c.stopping then (s.dev.drew.pimWrites c (partWrites s.dev.fresh c.writes)).1.pimEnd n c stResigned 0
    else if c.lanes.any (fun e => decide (0 < e.2)) then s.dev
    else (s.dev.pimWrites c (c.writes ++ c.sums)).1.pimEnd n c
      (if (s.dev.pimWrites c (c.writes ++ c.sums)).2.isSome then stUe else stOk) ((s.dev.pimWrites c (c.writes ++ c.sums)).2.getD 0))) := by
  unfold execPimCmdDone
  rw [onUnit_alive _ hn ha]
  simp only [hc, hs, List.isEmpty_nil, Bool.not_true, Bool.false_or, Bool.not_eq_true']
  refine congrArg (fun d : Dev => Host.Outcome.next (s.withDev d)) ?_
  by_cases h1 : c.started = false
  · rw [if_pos h1, if_pos h1]
  by_cases h2 : c.stopping = true
  · rw [if_neg h1, if_neg h1, if_pos h2, if_pos h2]
  by_cases h3 : c.lanes.any (fun e => decide (0 < e.2)) = true
  · rw [if_neg h1, if_neg h1, if_neg h2, if_neg h2, if_pos h3, if_pos h3]
  rw [if_neg h1, if_neg h1, if_neg h2, if_neg h2, if_neg h3, if_neg h3]
  obtain ⟨g, w⟩ := s.dev.pimWrites c (c.writes ++ c.sums)
  cases w <;> rfl

end

/-! ### Copies of shared pages -/

/-- COPY_ON_WRITE of a copy that is not running. -/
theorem execCopyOnWrite_none {s : State} {seq layer page : Nat} (ha : s.dev.alive = true)
    (h : s.dev.kvp.copies.find? (fun c => c.seq = seq && c.layer = layer && c.page = page) = none) :
    execCopyOnWrite seq layer page s = .next s := by
  unfold execCopyOnWrite
  rw [onDev_alive _ ha]
  simp only [h]

/-- Settles O31 (a PUSH's wire form, what a stopped command has written, the order of the page engine's work and how an answer finds its
FETCH are log entries 22, 65, 66 and 67). -/
theorem inStackAndPageEvents : Obligations.InStackAndPageEvents := by
  refine ⟨fun s n lane rows ha hn hl => ⟨fun h => ?notAllowed, fun h hb => ?deferred, fun h hb => ?starts,
      ⟨execSequenceEnd_none ha hn hl, execSequenceEnd_runs ha hn hl⟩, execPimCmdDone_none ha hn,
      fun c r hs hc => ⟨fun h => ?notStarted, fun h hp => ?stopped, fun h hp hr => ?rows,
        fun h hp hr => ⟨fun g hg => ?done, fun g a hg => ?doneUe⟩⟩,
      onDev_alive (fun d => (List.range 16).foldl Dev.pimRoll d) ha⟩,
    fun s p ha => ⟨?pageRead, ?reads, ?pageData, fun seq layer page =>
      ⟨execCopyOnWrite_none ha, fun c hc => ⟨fun h => ?copyWaits, fun sq ntok stage k he hk => ?copyGoes⟩⟩⟩⟩
  case notAllowed =>
    refine (execSequenceStart_eq ha hn hl).trans ?_
    dsimp only
    rw [if_pos h]
  case deferred =>
    refine (execSequenceStart_eq ha hn hl).trans ?_
    dsimp only
    rw [if_neg (by simp [h]), if_pos hb]
  case starts =>
    refine (execSequenceStart_eq ha hn hl).trans ?_
    dsimp only
    rw [if_neg (by simp [h]), if_neg (Nat.not_lt_of_le hb)]
  case notStarted => exact (execPimCmdDone_head ha hn hs hc).trans (by rw [if_pos h]; rfl)
  case stopped => exact (execPimCmdDone_head ha hn hs hc).trans (by rw [if_neg (by simp [h]), if_pos hp])
  case rows => exact (execPimCmdDone_head ha hn hs hc).trans (by rw [if_neg (by simp [h]), if_neg (by simp [hp]), if_pos hr]; rfl)
  case done =>
    exact (execPimCmdDone_head ha hn hs hc).trans (by
      rw [if_neg (by simp [h]), if_neg (by simp [hp]), if_neg (by simp [hr]), hg]; rfl)
  case doneUe =>
    exact (execPimCmdDone_head ha hn hs hc).trans (by
      rw [if_neg (by simp [h]), if_neg (by simp [hp]), if_neg (by simp [hr]), hg]; rfl)
  case pageRead => exact bamatRow_takes p 8 (fun d => d.pageRead p) ha
  case reads =>
    intro d
    dsimp only
    refine ⟨fun st hst => ?_, fun z g w hst hz hr => ⟨fun st a hw => ?_, fun e hw he => ⟨fun hb => ?_, fun hb => ⟨fun h hm => ?_, fun h a hm => ?_⟩⟩⟩⟩
    all_goals
      unfold Dev.pageRead
      dsimp only
      rw [hst]
    all_goals dsimp only
    · rw [hz]
      dsimp only
      rw [hr]
      simp only [hw]
    · rw [hz]
      dsimp only
      rw [hr]
      simp only [hw, he, hb, if_true]
    · rw [hz]
      dsimp only
      rw [hr]
      simp only [hw, he, hb, Bool.false_eq_true, if_false, Dev.pageServe, hm]
    · rw [hz]
      dsimp only
      rw [hr]
      simp only [hw, he, hb, Bool.false_eq_true, if_false, Dev.pageServe, hm]
  case pageData =>
    refine ⟨_, bamatRow_takes p 9 _ ha, fun d => ?_⟩
    dsimp only
    refine ⟨fun h0 hf => ?unasked, fun f h0 hf => ⟨fun hs => ?misfit, fun r hs hr => ?answer⟩, fun h0 => ⟨fun hn => ?noPush,
      fun f hf => ⟨fun hr => ?noPage, fun r hr => ?push⟩⟩⟩
    case unasked => simp only [h0, hf, if_true]
    case misfit => simp only [h0, hf, hs, if_true]
    case answer => simp only [h0, hf, hs, hr, if_true, Bool.true_eq_false, if_false]
    all_goals rw [if_neg h0]
    case noPush => simp only [hn]
    case noPage => simp only [hf, hr]
    case push => simp only [hf, hr]
  case copyWaits =>
    change execCopyOnWrite seq layer page s = _
    unfold execCopyOnWrite
    rw [onDev_alive _ ha]
    simp only [hc]
    obtain h | h := h
    · rw [if_neg (by simpa using h)]
      rfl
    · simp only [h, ite_self]
      rfl
  case copyGoes =>
    change execCopyOnWrite seq layer page s = _
    unfold execCopyOnWrite
    rw [onDev_alive _ ha]
    simp only [hc, he, hk, List.isEmpty_nil, if_true]
    rfl

end Sys2Proof.Machine
end

section
/-! The events of the samplers (R202 to R214): rows, time-outs and gambit decisions. -/

namespace Sys2Proof.Machine

/-! ### Rows -/

/-- The test that closes a row fails while it is open. -/
theorem row_open {c : SampleCmd} {j : SmpJob} (ho : c.row < j.batch ∧ c.kept.length < j.rowsOf c.row) :
    ¬ (decide (j.batch ≤ c.row) || decide (j.rowsOf c.row ≤ c.kept.length)) = true := by
  simp [ho.1, ho.2]

section
variable {s : State} {n : Nat} {c : SampleCmd} {j : SmpJob} (ha : s.dev.alive = true) (hn : n < 16)
  (hrun : s.dev.smpRunning n = some (c, j))
include ha hn hrun

/-- SAMPLE_ROW once the command's rows or the row's choices are made. -/
theorem execSampleRow_closed (h : ¬ (c.row < j.batch ∧ c.kept.length < j.rowsOf c.row)) : execSampleRow n s = .next s := by
  rw [execSampleRow, onUnit_alive _ hn ha]
  simp only [hrun]
  rw [if_pos (by simpa [imp_iff_neg_or] using h)]

/-- Whether the logits of a slot are late for the command in hand (R214). -/
def Dev.slotLate (d : Dev) (n slot : Nat) (c : SampleCmd) : Bool :=
  (look slot (d.sampler n).slots).elim (decide (c.since + 100000000 ≤ d.now))
    (fun x => !x.complete && decide (max c.since x.lastMsg + x.timeout ≤ d.now))

/-- SMP_TIMEOUT for the command in hand. -/
theorem execSmpTimeout_running {slot : Nat} (hs : slot < 16) : execSmpTimeout n slot s = .next (s.withDev (
    if s.dev.slotLate n slot c && decide (slot < j.nstream) && decide (c.row < j.batch) && decide (c.kept.length < j.rowsOf c.row) then
      ((s.dev.satFld R.SMP_ERR F.SMP_ERR_TIMEOUTS 1).raise (s.dev.smpEvent n 0x0703 c)).smpEnd n stTimeout 0
    else s.dev)) := by
  rw [execSmpTimeout, onUnits_alive _ (by simp [badUnit, hn, hs]) ha, Dev.slotLate]
  simp only [hrun]
  cases hk : look slot (s.dev.sampler n).slots with
  | none =>
    rw [Option.elim_none]
    rfl
  | some x =>
    rw [Option.elim_some]
    rfl

variable (ho : c.row < j.batch ∧ c.kept.length < j.rowsOf c.row)
include ho

/-- SAMPLE_ROW with a message of the wrong size at the head. -/
theorem execSampleRow_wrong {k p : Nat} (hw : s.dev.wrongMessage n j = some (k, p)) :
    let g := (look k (s.dev.sampler n).slots).elim s.dev
      (fun x => s.dev.slotDrops n k (splitFirst [p] x.msgs).1 (splitFirst [p] x.msgs).2)
    execSampleRow n s = .next (s.withDev ((g.raise (g.smpEvent n 0x0702 c)).smpEnd n stInvalid (invalidTable 0x0702))) := by
  rw [execSampleRow, onUnit_alive _ hn ha]
  simp only [hrun, hw]
  rw [if_neg (row_open ho)]
  cases look k (s.dev.sampler n).slots <;> rfl

variable (hw : s.dev.wrongMessage n j = none)
include hw

/-- SAMPLE_ROW before the whole row has come. -/
theorem execSampleRow_waits (hr : s.dev.rowReady n j = false) : execSampleRow n s = .next s := by
  rw [execSampleRow, onUnit_alive _ hn ha]
  simp only [hrun, hw, hr]
  rw [if_neg (row_open ho)]
  rfl

variable (hr : s.dev.rowReady n j = true)
include hr

/-- SAMPLE_ROW of a SAMPLE whose row has come. -/
theorem execSampleRow_samples (hg : c.gambit = false) {e : Dev} {w : Option Nat} (he : s.dev.sampleAll n c j (List.range j.nstream) = (e, w)) :
    execSampleRow n s = .next (s.withDev (w.elim
      (let g := (e.updSmp n (fun c => { c with row := c.row + 1, lrow := c.lrow + 1 })).rowUsed n j c.lrow
        if c.row + 1 = j.batch then g.smpDone n j (c.lrow + 1) stOk else g)
      (fun a => e.smpEnd n stUe a))) := by
  rw [execSampleRow, onUnit_alive _ hn ha]
  simp only [hrun, hw, hr, hg, he]
  rw [if_neg (row_open ho)]
  cases w <;> rfl

/-- SAMPLE_ROW of a GAMBIT whose row has come. -/
theorem execSampleRow_gambit (hg : c.gambit = true) :
    (∀ e ps, s.dev.gambitRow n c j (List.range j.nstream) = (e, .inr ps) → execSampleRow n s = .next (s.withDev
      ((e.updSmp n (fun c => { c with lrow := c.lrow + 1, kept := c.kept ++ [ps] })).rowUsed n j c.lrow))) ∧
    (∀ e a, s.dev.gambitRow n c j (List.range j.nstream) = (e, .inl a) → execSampleRow n s = .next (s.withDev (e.smpEnd n stUe a))) := by
  refine ⟨fun e ps he => ?_, fun e a he => ?_⟩
  all_goals
    rw [execSampleRow, onUnit_alive _ hn ha]
    simp only [hrun, hw, hr, hg, he]
    rw [if_neg (row_open ho)]
    rfl

end

/-! ### Decisions -/

section
variable {s : State} {n : Nat} {c : SampleCmd} {j : SmpJob} (ha : s.dev.alive = true) (hn : n < 16)
  (hrun : s.dev.smpRunning n = some (c, j))
include ha hn hrun

/-- GAMBIT_DECISION that has no sequence of a GAMBIT to decide. -/
theorem execGambitDecision_idle (h : c.gambit = false ∨ (c.row < j.batch ∧ c.kept.length < j.rowsOf c.row)) :
    execGambitDecision n s = .next s := by
  rw [execGambitDecision, onUnit_alive _ hn ha]
  simp only [hrun]
  by_cases hg : c.gambit = false
  · rw [if_pos hg]
  · obtain ⟨hb, hk⟩ := h.resolve_left hg
    rw [if_neg hg, if_neg (Nat.not_le_of_lt hb), if_pos hk]

/-- GAMBIT_DECISION once every sequence is decided. -/
theorem execGambitDecision_over (hg : c.gambit = true) (hb : j.batch ≤ c.row) :
    execGambitDecision n s = .next (s.withDev (s.dev.gambitNext n)) := by
  rw [execGambitDecision, onUnit_alive _ hn ha]
  simp only [hrun]
  rw [if_neg (by simp [hg]), if_pos hb]
  rfl

variable (hg : c.gambit = true) (hb : c.row < j.batch) (hk : j.rowsOf c.row ≤ c.kept.length)
include hg hb hk

/-- GAMBIT_DECISION whose draft cannot be read. -/
theorem execGambitDecision_draftUe {e : Dev} {a : Nat}
    (he : s.dev.seqRecs c.ctx j c.row ((List.range (j.ndraft c.row)).map (· + 1)) = (e, .inl a)) :
    execGambitDecision n s = .next (s.withDev (e.smpEnd n stUe a)) := by
  rw [execGambitDecision, onUnit_alive _ hn ha]
  simp only [hrun]
  rw [if_neg (by simp [hg]), if_neg (Nat.not_le_of_lt hb), if_neg (Nat.not_lt_of_le hk), he]
  rfl

end

/-- Settles O32 (that an event which is not due changes nothing is log entry 7's choice): each row's branches for the command in hand. -/
theorem samplerEvents : Obligations.SamplerEvents := by
  refine ⟨fun s n slot ha hn hs h => ⟨?noRow, ?noTimeout, ?noDecision⟩, fun s n c j ha hn hrun => ?running⟩
  case noRow =>
    change execSampleRow n s = _
    rw [execSampleRow, onUnit_alive _ hn ha]
    simp only [h]
  case noTimeout =>
    change execSmpTimeout n slot s = _
    rw [execSmpTimeout, onUnits_alive _ (by simp [badUnit, hn, hs]) ha]
    simp only [h]
  case noDecision =>
    change execGambitDecision n s = _
    rw [execGambitDecision, onUnit_alive _ hn ha]
    simp only [h]
  case running =>
    dsimp only
    refine ⟨execSampleRow_closed ha hn hrun, fun k p ho hw => execSampleRow_wrong ha hn hrun ho hw,
      fun ho hw hr => execSampleRow_waits ha hn hrun ho hw hr, fun ho hw hr => ⟨fun hg =>
        ⟨fun e he => execSampleRow_samples ha hn hrun ho hw hr hg he, fun e a he => execSampleRow_samples ha hn hrun ho hw hr hg he⟩,
        fun hg => execSampleRow_gambit ha hn hrun ho hw hr hg⟩,
      fun slot hs => ⟨fun hl hj ho => ?late, fun hno => ?notLate⟩, fun hg => execGambitDecision_idle ha hn hrun (.inl hg),
      fun hg hb => execGambitDecision_over ha hn hrun hg hb, fun hg ho => execGambitDecision_idle ha hn hrun (.inr ho),
      fun hg hb hk => ⟨fun e a he => execGambitDecision_draftUe ha hn hrun hg hb hk he, fun e l out nacc he hr => ?decided⟩⟩
    case late =>
      change s.dev.slotLate n slot c = true at hl
      exact (execSmpTimeout_running ha hn hrun hs).trans (by rw [if_pos (by simp [hl, hj, ho])]; rfl)
    case notLate =>
      refine (execSmpTimeout_running ha hn hrun hs).trans ?_
      rw [if_neg]
      · rfl
      · intro h
        simp only [Bool.and_eq_true, decide_eq_true_eq] at h
        obtain ⟨⟨⟨h1, h2⟩, h3⟩, h4⟩ := h
        obtain h | h | h := hno
        · change s.dev.slotLate n slot c = false at h
          rw [h1] at h
          exact absurd h (by decide)
        · omega
        · exact h ⟨h3, h4⟩
    case decided =>
      refine ⟨fun g a hw => ?recordUe, fun g hw => ⟨fun i a hh => ?historyUe, fun i hh => ?goesOn⟩⟩
      all_goals
        change execGambitDecision n s = _
        rw [execGambitDecision, onUnit_alive _ hn ha]
        simp only [hrun]
        rw [if_neg (by simp [hg]), if_neg (Nat.not_le_of_lt hb), if_neg (Nat.not_lt_of_le hk), he]
        dsimp only
        rw [hr]
        dsimp only
        rw [hw]
      case historyUe =>
        dsimp only
        rw [hh]
        rfl
      case goesOn =>
        dsimp only
        rw [hh]
        rfl
      case recordUe => rfl

end Sys2Proof.Machine
end

section
/-! The events of the update engines and of audits (R224 to R230, R239 to R241). -/

namespace Sys2Proof.Machine

/-! ### Units -/

/-- UPDATE_UNIT of an engine that has a unit to do. -/
theorem execUpdateUnit_of_work {s : State} {n i place u : Nat} {c : UpdCmd} (ha : s.dev.alive = true) (hn : n < 16)
    (h : engineWork n 0 s.dev.upd.cmds = some (i, c, (n, place, u))) :
    execUpdateUnit n s = .next (s.withDev ((s.dev.updCmd c (fun y => { y with todo := y.todo.erase (n, place, u) })).unitRun n c
      (tensorOf c.table place) u)) := by
  rw [execUpdateUnit, onUnit_alive _ hn ha]
  simp only [h]
  rfl

/-! ### Messages of an audit -/

section
variable {s : State} {job : Nat} {a : Audit} (ha : s.dev.alive = true) (h : s.dev.upd.audit = some a) (hj : a.job = job)
include ha h hj

/-- A done message of the audit in hand. -/
theorem execNoticeAuditDone_of_job (dev : Nat) : execNoticeAuditDone job dev s = .next (s.withDev
    ((a.peers.findIdx? (fun p => p = dev)).elim s.dev
      (fun r => ((s.dev.updAudit (fun a => { a with done := r :: a.done })).auditCheck).updGo))) := by
  rw [execNoticeAuditDone, onDev_alive _ ha]
  simp only [h, hj, ne_eq, not_true_eq_false, if_false]
  cases a.peers.findIdx? (fun p => p = dev) <;> rfl

/-- AUDIT_TIMEOUT of the audit in hand once its time is over. -/
theorem execAuditTimeout_late (ht : a.start + s.dev.fld R.UPD_CFG F.UPD_CFG_AUDIT_TIMEOUT * 1000000 ≤ s.dev.now) :
    execAuditTimeout job s = .next (s.withDev (s.dev.auditLate a a.missing)) := by
  rw [execAuditTimeout, onDev_alive _ ha]
  simp only [h]
  rw [if_pos (by simp [hj, ht])]
  rfl

end

section
variable {s : State} {job : Nat} (ha : s.dev.alive = true)
include ha

/-- A done message with no audit of its job is kept. -/
theorem execNoticeAuditDone_kept (dev : Nat) (h : ∀ a : Audit, s.dev.upd.audit = some a → a.job ≠ job) :
    execNoticeAuditDone job dev s = .next (s.withDev { s.dev with upd := { s.dev.upd with dones := s.dev.upd.dones ++ [(job, dev)] } }) := by
  rw [execNoticeAuditDone, onDev_alive _ ha]
  cases hu : s.dev.upd.audit with
  | none => rfl
  | some a =>
    simp only
    rw [if_pos (h a hu)]
    rfl

/-- AUDIT_TIMEOUT before the time of an audit of its job is over. -/
theorem execAuditTimeout_early (h : ∀ a : Audit, s.dev.upd.audit = some a →
    ¬ (a.job = job ∧ a.start + s.dev.fld R.UPD_CFG F.UPD_CFG_AUDIT_TIMEOUT * 1000000 ≤ s.dev.now)) :
    execAuditTimeout job s = .next s := by
  rw [execAuditTimeout, onDev_alive _ ha]
  cases hu : s.dev.upd.audit with
  | none => rfl
  | some a =>
    simp only
    rw [if_neg (by simpa using h a hu)]

/-- An owner's hashes go to the audit of their job. -/
theorem execOwnerHashes_of_job {a : Audit} (owner tidx n fmt : Nat) (hs : List (Nat × Word)) (h : s.dev.upd.audit = some a)
    (hj : a.job = job) :
    execOwnerHashes job owner tidx n fmt hs s = .next (s.withDev ((s.dev.auditHashes ⟨job, owner, tidx, n, fmt, hs⟩).updGo)) := by
  rw [execOwnerHashes, onDev_alive _ ha]
  simp only [h, hj, if_true]
  rfl

/-- An owner's hashes with no audit of their job are kept. -/
theorem execOwnerHashes_kept (owner tidx n fmt : Nat) (hs : List (Nat × Word))
    (h : ∀ a : Audit, s.dev.upd.audit = some a → a.job ≠ job) : execOwnerHashes job owner tidx n fmt hs s = .next (s.withDev
      { s.dev with upd := { s.dev.upd with mail := s.dev.upd.mail ++ [⟨job, owner, tidx, n, fmt, hs⟩] } }) := by
  rw [execOwnerHashes, onDev_alive _ ha]
  cases hu : s.dev.upd.audit with
  | none => rfl
  | some a =>
    simp only
    rw [if_neg (h a hu)]
    rfl

end

/-- Settles O33 (the pace of the engines, and that a unit which stops writes no record, are log entries 74 and 75). -/
theorem updatesAndAudits : Obligations.UpdatesAndAudits := by
  refine ⟨fun s n ha hn => ⟨fun h => ?idle, fun i place u c h => ?unit⟩, fun s ha => ⟨fun job owner tidx n fmt hs =>
      ⟨fun a h hj => execOwnerHashes_of_job ha owner tidx n fmt hs h hj, fun h => execOwnerHashes_kept ha owner tidx n fmt hs h⟩,
    fun job dev => ⟨fun h => execNoticeAuditDone_kept ha dev h, fun a h hj => ⟨fun hp => ?noPeer, fun r hp => ?peer⟩⟩,
    fun job => ⟨fun a h ho => ?late, fun h => execAuditTimeout_early ha h⟩⟩⟩
  case idle =>
    change execUpdateUnit n s = _
    rw [execUpdateUnit, onUnit_alive _ hn ha]
    simp only [h]
  case unit =>
    intro x d base chunks ans stops
    have run : ∀ g : Dev, d.unitRun n c x u = g → ans = .next (s.withDev g) := fun g hg => hg ▸ execUpdateUnit_of_work ha hn h
    refine ⟨fun e a he => run _ (Dev.unitRun_stops he), fun e he => ⟨fun hd => run _ (Dev.unitRun_done he hd), fun hg => ?goes⟩⟩
    refine ⟨fun f i a g w hf => ?part, fun f hf => ?whole⟩
    case part =>
      intro some_ hw
      exact run _ ((Dev.unitRun_goes he hg).trans ((Dev.unitChunks_part hf).trans (Dev.unitPart_stops hw)))
    case whole =>
      have goes : ∀ g : Dev, f.unitWhole n c x u chunks = g → ans = .next (s.withDev g) := fun g hwh =>
        run _ ((Dev.unitRun_goes he hg).trans ((Dev.unitChunks_whole hf).trans hwh))
      exact ⟨fun g a hw => goes _ (Dev.unitWhole_stops hw), fun g hw => ⟨fun h a hr => goes _ (Dev.unitWhole_unrecorded hw hr),
        fun h hr => goes _ (Dev.unitWhole_done hw hr)⟩⟩
  case noPeer => exact (execNoticeAuditDone_of_job ha h hj dev).trans (by rw [hp]; rfl)
  case peer => exact (execNoticeAuditDone_of_job ha h hj dev).trans (by rw [hp]; rfl)
  case late =>
    obtain ⟨hj, ht⟩ := ho
    refine (execAuditTimeout_late ha h hj ht).trans ?_
    rw [Dev.auditLate, hj]

end Sys2Proof.Machine
end

section
/-! Contributions to a collective and plain accumulates (R115, R123, R244, R248 to R250), and the events of a collective (R253 to R262,
R315). -/

namespace Sys2Proof.Machine

/-! ### Accumulates -/

section
variable {d : Dev} {p : NocPkt} (f : Dev → Dev)

/-- An accumulate that is held back changes nothing. -/
theorem Dev.accArrives_held (h : d.meshMay (accIs p) = false) : d.accArrives p f = d := by rw [Dev.accArrives, if_pos h]

/-- Any other is taken. -/
theorem Dev.accArrives_taken (h : d.meshMay (accIs p) = true) : d.accArrives p f = f (d.meshTaken (accIs p)) := by
  rw [Dev.accArrives, if_neg (by simp [h])]

end

section
variable {s : State} {p : NocPkt} (ha : s.dev.alive = true)
include ha

/-- COLLECTIVE_ACC that is taken. -/
theorem execCollectiveAcc_taken (h : s.dev.meshMay (accIs p) = true) : execCollectiveAcc p s = .next (s.withDev (
    let d := s.dev.meshTaken (accIs p)
    if d.quietNow p.job then d.quietDiscard p.job
    else if d.purgingNow p.job then d
    else (s.dev.collAt p.job p.addr).elim d (fun e => if p.red then d.takeRed e.1 e.2 p else d.takeAcc e.1 e.2 p))) := by
  rw [execCollectiveAcc, onDev_alive _ ha, Dev.accArrives_taken _ h]
  have hc : (s.dev.meshTaken (accIs p)).collAt p.job p.addr = s.dev.collAt p.job p.addr := rfl
  simp only [hc]
  cases s.dev.collAt p.job p.addr <;> rfl

/-- PLAIN_ACCUMULATE that is taken. -/
theorem execPlainAccumulate_taken (h : s.dev.meshMay (accIs p) = true) (hc : s.dev.collAt p.job p.addr = none) :
    execPlainAccumulate p s = .next (s.withDev (
      let d := s.dev.meshTaken (accIs p)
      if d.quietNow p.job then d.quietDiscard p.job
      else if d.purgingNow p.job then d
      else if d.plainOk p = false then d.plainRefused p
      else d.plainAdd (if p.rfmt = 1 then 1 else 0) p.addr p.payload)) := by
  rw [execPlainAccumulate, onDev_alive _ ha]
  simp only [hc, Option.isSome_none, Bool.false_eq_true, if_false, Dev.accArrives_taken _ h]
  rfl

end

/-- Settles O34: each row looks for its packet, then for a quiet period, then for a purge, then for the share. -/
theorem contributionPackets : Obligations.ContributionPackets := by
  intro s p ha
  dsimp only
  refine ⟨fun h => ⟨?accHeld, ?plainHeld⟩, fun h => ?plainOfShare, fun h => ⟨fun hq => ⟨?accQuiet, fun hc => ?plainQuiet⟩,
    fun hq hp => ⟨?accPurged, fun hc => ?plainPurged⟩, fun hq hp => ⟨fun id x hc => ?gives, fun hc => ⟨?drops, fun ho => ?adds, fun ho => ?refuses⟩⟩⟩⟩
  case accHeld =>
    change execCollectiveAcc p s = _
    rw [execCollectiveAcc, onDev_alive _ ha, Dev.accArrives_held _ h]
  case plainHeld =>
    change execPlainAccumulate p s = _
    rw [execPlainAccumulate, onDev_alive _ ha, Dev.accArrives_held _ h, ite_self]
  case plainOfShare =>
    change execPlainAccumulate p s = _
    rw [execPlainAccumulate, onDev_alive _ ha, if_pos h]
  case accQuiet => exact (execCollectiveAcc_taken ha h).trans (by simp only [hq, if_true])
  case plainQuiet => exact (execPlainAccumulate_taken ha h hc).trans (by simp only [hq, if_true])
  case accPurged => exact (execCollectiveAcc_taken ha h).trans (by simp only [hq, hp, Bool.false_eq_true, if_false, if_true])
  case plainPurged => exact (execPlainAccumulate_taken ha h hc).trans (by simp only [hq, hp, Bool.false_eq_true, if_false, if_true])
  case gives => exact (execCollectiveAcc_taken ha h).trans (by simp only [hq, hp, hc, Bool.false_eq_true, if_false, Option.elim_some])
  case drops => exact (execCollectiveAcc_taken ha h).trans (by simp only [hq, hp, hc, Bool.false_eq_true, if_false, Option.elim_none])
  case adds =>
    exact (execPlainAccumulate_taken ha h hc).trans (by simp only [hq, hp, ho, Bool.false_eq_true, Bool.true_eq_false, if_false])
  case refuses =>
    exact (execPlainAccumulate_taken ha h hc).trans (by simp only [hq, hp, ho, Bool.false_eq_true, if_false, if_true])

end Sys2Proof.Machine
end

section
/-! The events of a collective (R253 to R262, R315): its deadlines, what the other members send, and the end of a quiet period. -/

namespace Sys2Proof.Machine

/-! ### Deadlines -/

/-- The test that keeps a time-out from being due fails once it is. -/
theorem timeout_due {x : Collective} {now : Nat} (hn : x.start + x.desc.timeout ≤ now) (hs : x.statusDone = false)
    (hr : x.desc.reduces = true) : ¬ (decide (now < x.start + x.desc.timeout) || x.statusDone || !x.desc.reduces) = true := by
  simp [Nat.not_lt_of_le hn, hs, hr]

/-- The device once the incomplete contributors of a share with no T_m are excluded. -/
def Dev.timedOut (d : Dev) (id : Nat) (x : Collective) : Dev :=
  if x.owning && x.tm.isNone then (x.incomplete.foldl (fun d c => d.exclude id c) d).shareCheck id else d

section
variable {s : State} {id : Nat} {x : Collective} (ha : s.dev.alive = true) (hx : s.dev.coll id = some x)
include ha hx

/-- D1, once due. -/
theorem execDeadlineD1_due {t : Nat} (ht : x.tm = some t) (ho : x.owning = true) (h2 : x.d2 = none)
    (hn : t + x.desc.dline ≤ s.dev.now) : execDeadlineD1 id s = .next (s.withDev ((x.incomplete.foldl (fun d c =>
      if x.desc.hasBackup c then (if (x.contrib c).asked then d else d.askBackup id c) else d.exclude id c)
      (s.dev.updColl id (fun z => { z with d2 := some (t + x.desc.dline + z.desc.dline) }))).shareCheck id)) := by
  rw [execDeadlineD1, onDev_alive _ ha]
  simp only [hx, ht]
  rw [if_pos (by simp [ho, h2, hn])]
  rfl

/-- D1 before it is due. -/
theorem execDeadlineD1_early (h : ∀ t, ¬ (x.tm = some t ∧ x.owning = true ∧ x.d2 = none ∧ t + x.desc.dline ≤ s.dev.now)) :
    execDeadlineD1 id s = .next s := by
  rw [execDeadlineD1, onDev_alive _ ha]
  cases ht : x.tm with
  | none => simp only [hx, ht]
  | some t =>
    simp only [hx, ht]
    rw [if_neg (by simpa [ht, and_assoc] using h t)]

/-- D2, once due. -/
theorem execDeadlineD2_due {t : Nat} (ht : x.d2 = some t) (ho : x.owning = true) (hn : t ≤ s.dev.now) :
    execDeadlineD2 id s = .next (s.withDev ((x.incomplete.foldl (fun d c => d.exclude id c) s.dev).shareCheck id)) := by
  rw [execDeadlineD2, onDev_alive _ ha]
  simp only [hx, ht]
  rw [if_pos (by simp [ho, hn])]
  rfl

/-- D2 before it is due. -/
theorem execDeadlineD2_early (h : ∀ t, x.d2 = some t → x.owning = false ∨ s.dev.now < t) : execDeadlineD2 id s = .next s := by
  rw [execDeadlineD2, onDev_alive _ ha]
  cases ht : x.d2 with
  | none => simp only [hx, ht]
  | some t =>
    simp only [hx, ht]
    rw [if_neg (by obtain h | h := h t ht <;> simp [h])]

/-! ### The time-out -/

/-- COLL_TIMEOUT that is not due. -/
theorem execCollTimeout_early (h : s.dev.now < x.start + x.desc.timeout ∨ x.statusDone = true ∨ x.desc.reduces = false) :
    execCollTimeout id s = .next s := by
  rw [execCollTimeout, onDev_alive _ ha]
  simp only [hx]
  rw [if_pos (by simpa [or_assoc] using h)]

section
variable (hn : x.start + x.desc.timeout ≤ s.dev.now) (hs : x.statusDone = false) (hr : x.desc.reduces = true)
include hn hs hr

/-- COLL_TIMEOUT of a share that its exclusions end. -/
theorem execCollTimeout_gone (h : (s.dev.timedOut id x).coll id = none) :
    execCollTimeout id s = .next (s.withDev (s.dev.timedOut id x)) := by
  rw [Dev.timedOut] at h ⊢
  rw [execCollTimeout, onDev_alive _ ha]
  simp only [hx]
  rw [if_neg (timeout_due hn hs hr), h]
  rfl

/-- COLL_TIMEOUT where STATUS is written or no member is silent. -/
theorem execCollTimeout_told {z : Collective} (h : (s.dev.timedOut id x).coll id = some z) (hz : z.statusDone = true ∨ z.silent = []) :
    execCollTimeout id s = .next (s.withDev (s.dev.timedOut id x)) := by
  rw [Dev.timedOut] at h ⊢
  rw [execCollTimeout, onDev_alive _ ha]
  simp only [hx]
  rw [if_neg (timeout_due hn hs hr), h]
  dsimp only
  rw [if_pos (by simpa using hz)]
  rfl

/-- COLL_TIMEOUT marks the silent members, writes STATUS and ends the collective. -/
theorem execCollTimeout_ends {z : Collective} (h : (s.dev.timedOut id x).coll id = some z) (hz : z.statusDone = false)
    (hsil : z.silent ≠ []) :
    let k := { z with flags := z.flags ||| 2, marked := z.marked ++ z.silent }
    let e := ((s.dev.timedOut id x).writeStatus k (combineSums k)).updColl id (fun y => { y with flags := y.flags ||| 2 })
    execCollTimeout id s = .next (s.withDev
      ((e.raise (e.collEvent k 0x0941 (k.silent ++ k.silent.map k.desc.primary))).collEnd id stTimeout 0)) := by
  rw [Dev.timedOut] at h ⊢
  rw [execCollTimeout, onDev_alive _ ha]
  simp only [hx]
  rw [if_neg (timeout_due hn hs hr), h]
  dsimp only
  rw [if_neg (by simp [hz, hsil])]
  rfl

end

/-! ### Messages of the other members -/

/-- CHECK_PACKET for a collective that is open. -/
theorem execCheckPacket_open (c : Nat) (bkp : Bool) (samples : List (Nat × F32)) :
    execCheckPacket id c bkp samples s = .next (s.withDev (
      let mine := fun (m : MeshPkt) => m.pkt.dst = 322 && m.pkt.job = x.job &&
        m.pkt.tag = c + 4096 + 8192 * b2n bkp + x.desc.step % 4 * 16384
      if s.dev.meshMay mine = false then s.dev
      else
        let d := s.dev.meshTaken mine
        if d.quietNow x.job then d.quietDiscard x.job
        else if (x.contrib c).excluded || x.goneDevs.contains (x.desc.sourceDev c bkp) then d.stray
        else
          let e := d.updColl id (fun z => { z with checks := put (c, bkp) ((look (c, bkp) z.checks).getD [] ++ samples) z.checks })
          let rs := (samples.map (fun e => (e.1 - (x.desc.share x.desc.self).1) / 256)).eraseDups
          if x.finished then e else rs.foldl (fun d r => d.compareRange id r) e)) := by
  rw [execCheckPacket, onDev_alive _ ha]
  simp only [hx]
  rfl

/-- LOCAL_SUMMARY for a collective that is open. -/
theorem execLocalSummary_open (member level : Nat) (word : Word) (detail : List Byte) (missing : List Nat) :
    execLocalSummary id member level word detail missing s = .next (s.withDev (
      let d := s.dev.arrivedTaken (fun p => p.op = 1 && p.dstep = 322 && p.job = x.job && p.tag = member && p.arg % 256 = 1)
      if x.gone.contains member || decide (x.desc.nmemb ≤ member) || x.desc.reduces = false || x.statusDone then d
      else if level ≠ x.desc.level then d.collEnd id stInvalid 0
      else (d.updColl id (fun z => { z with
        sums := put member { word := word, detail := detail, missing := missing } z.sums })).statusCheck id)) := by
  rw [execLocalSummary, onDev_alive _ ha]
  simp only [hx]
  rfl

end

/-- Settles O35 (the wire forms, that samples come before their ranges, and what a quiet period holds are log entries 23, 25 and 78). -/
theorem collectiveEvents : Obligations.CollectiveEvents := by
  refine ⟨fun s id ha hx => ?closed, fun s id x ha hx => ⟨fun t h => ?dueD1, fun h => execDeadlineD1_early ha hx h,
      fun t ht ho hn => execDeadlineD2_due ha hx ht ho hn, fun h => execDeadlineD2_early ha hx h⟩,
    fun s id x ha hx => ⟨fun c bkp samples => ?checkPacket, fun member level word detail missing => ?summary, fun member => ?done,
      fun member block data hash => ?block, ⟨fun h => execCollTimeout_early ha hx h, fun hn hs hr => ⟨fun h => execCollTimeout_gone ha hx hn hs hr h,
        fun z h hz => execCollTimeout_told ha hx hn hs hr h hz, fun z h hz hsil => execCollTimeout_ends ha hx hn hs hr h hz hsil⟩⟩⟩,
    fun s job ha => ⟨fun dev => ?abandon, fun owner step contrib ranges => ?backup, fun h => ?quiet, fun t told h ht => ?quietEnds⟩⟩
  case closed =>
    refine ⟨?_, ?_, ?_, fun c bkp samples => ?_, fun m => ?_, fun m l w dt ms => ?_, fun m b dt h => ?_⟩
    · change execDeadlineD1 id s = _
      rw [execDeadlineD1, onDev_alive _ ha, hx]
    · change execDeadlineD2 id s = _
      rw [execDeadlineD2, onDev_alive _ ha, hx]
    · change execCollTimeout id s = _
      rw [execCollTimeout, onDev_alive _ ha, hx]
    · change execCheckPacket id c bkp samples s = _
      rw [execCheckPacket, onDev_alive _ ha, hx]
    · change execNoticeDone id m s = _
      rw [execNoticeDone, onDev_alive _ ha, hx]
    · change execLocalSummary id m l w dt ms s = _
      rw [execLocalSummary, onDev_alive _ ha, hx]
    · change execAllGatherBlock id m b dt h s = _
      rw [execAllGatherBlock, onDev_alive _ ha, hx]
  case dueD1 =>
    obtain ⟨ht, ho, h2, hn⟩ := h
    exact execDeadlineD1_due ha hx ht ho h2 hn
  case checkPacket =>
    have run := execCheckPacket_open ha hx c bkp samples
    dsimp only at run ⊢
    refine ⟨fun h => run.trans ?_, fun h => ⟨fun hq => run.trans ?_, fun hq hg => run.trans ?_, fun hq he hg => run.trans ?_⟩⟩
    · rw [if_pos h]
      rfl
    all_goals rw [if_neg (by rw [h]; decide)]
    · rw [if_pos hq]
    · rw [if_neg (by rw [hq]; decide), if_pos (by simpa using hg)]
    · rw [if_neg (by rw [hq]; decide), if_neg (by rw [he, hg]; decide)]
  case summary =>
    have run := execLocalSummary_open ha hx member level word detail missing
    dsimp only at run ⊢
    have awaited : (x.gone.contains member || decide (x.desc.nmemb ≤ member) || decide (x.desc.reduces = false) || x.statusDone) = true ↔
        ¬ (x.gone.contains member = false ∧ member < x.desc.nmemb ∧ x.desc.reduces = true ∧ x.statusDone = false) := by
      simp only [Bool.or_eq_true, decide_eq_true_eq, ← Nat.not_lt]
      cases x.gone.contains member <;> cases x.desc.reduces <;> cases x.statusDone <;> simp
    refine ⟨fun h => run.trans ?_, fun h hl => run.trans ?_, fun h hl => run.trans ?_⟩
    · rw [if_pos (awaited.2 h)]
    · rw [if_neg (fun k => awaited.1 k h), if_pos hl]
    · rw [if_neg (fun k => awaited.1 k h), if_neg (not_not_intro hl)]
  case done =>
    change execNoticeDone id member s = _
    rw [execNoticeDone, onDev_alive _ ha]
    simp only [hx]
    rfl
  case block =>
    change execAllGatherBlock id member block data hash s = _
    rw [execAllGatherBlock, onDev_alive _ ha]
    simp only [hx]
    rfl
  case abandon => exact onDev_alive (fun d => (d.noticeTaken job 2 (fun p => p.srcdev = dev)).abandonedJob job dev) ha
  case backup =>
    dsimp only
    refine ⟨fun hb => ?_, fun id x hb => ⟨fun hk => ?_, fun j hk => ⟨fun e a he => ?_, fun e he => ?_⟩⟩⟩
    all_goals
      change execNoticeBackupReq job owner ⟨step, contrib, ranges⟩ s = _
      rw [execNoticeBackupReq, onDev_alive _ ha]
      dsimp only
      rw [hb]
    · rfl
    all_goals
      dsimp only
      rw [hk]
    · rfl
    all_goals
      dsimp only
      rw [he]
      rfl
  case quiet =>
    change execQuietPeriodEnd job s = _
    rw [execQuietPeriodEnd, onDev_alive _ ha]
    cases hq : look job s.dev.quiet with
    | none => rfl
    | some e =>
      dsimp only
      rw [if_neg (Nat.not_le_of_lt (h e.1 e.2 hq))]
  case quietEnds =>
    change execQuietPeriodEnd job s = _
    rw [execQuietPeriodEnd, onDev_alive _ ha, h]
    dsimp only
    rw [if_pos ht]
    rfl

end Sys2Proof.Machine
end

section
/-! The ports of Bamat (R267 to R272, R282, R283, R289): training, identification, flits, Ethernet frames, resends and lost lanes. -/

namespace Sys2Proof.Machine

/-! ### Flits -/

/-- The device once the acknowledgement, the credits and the resend request of a good flit have been followed (R271, R272). -/
def Dev.flitHeard (d : Dev) (k : Nat) (f : Flit) : Dev :=
  let l := f.link.toNat
  let e := d.updPort k (fun p => (p.acked d.now (bits l 32 19)).credited (bits l 36 34) (bits l 44 37))
  (if l.testBit 33 then e.resend k else e).pumpPort k

/-- How far ahead of the next sequence number a flit is. -/
def Dev.flitGap (d : Dev) (k : Nat) (f : Flit) : Nat := (bits f.link.toNat 18 5 + 2 ^ 14 - (d.portSt k).rxSeq) % 2 ^ 14

section
variable {d : Dev} {k : Nat} {f : Flit}

/-- A bad flit asks for the resend. -/
theorem Dev.flitIn_bad (h : flitGood f = false) : d.flitIn k f = d.answer k true none := by rw [Dev.flitIn, if_pos h]

variable (hg : flitGood f = true)
include hg

/-- A good flit that is neither DATA nor IDLE, or whose port is no longer usable, does nothing more. -/
theorem Dev.flitIn_other (h : ¬ ((bits f.link.toNat 1 0 = 1 ∨ bits f.link.toNat 1 0 = 2) ∧ (d.flitHeard k f).portUsable k = true)) :
    d.flitIn k f = d.flitHeard k f := by
  rw [Dev.flitHeard] at h ⊢
  rw [Dev.flitIn, if_neg (by simp [hg])]
  dsimp only at h ⊢
  rw [if_pos (by simpa [imp_iff_neg_or] using h)]

variable (h : (bits f.link.toNat 1 0 = 1 ∨ bits f.link.toNat 1 0 = 2) ∧ (d.flitHeard k f).portUsable k = true)
include h

/-- What a DATA or IDLE flit at a usable port does. -/
theorem Dev.flitIn_seen : d.flitIn k f =
    let e := d.flitHeard k f
    if e.flitGap k f ≠ 0 then e.answer k (decide (e.flitGap k f < 2 ^ 13)) none
    else
      let g := e.updPort k (fun p => { p with rxSeq := (p.rxSeq + 1) % 2 ^ 14 })
      if bits f.link.toNat 1 0 = 2 then g.answer k false none
      else
        let vc := bits f.link.toNat 4 2
        let bs := (g.portSt k).rx.getD vc [] ++ f.content
        let t := g.takePackets k vc (bs.length / 32 + 1) bs
        let n := emptyFlits (bs.length - t.2.length) ((t.1.portSt k).held.getD vc [] ++ [f.content.length])
        (t.1.updPort k (fun p => { p with rx := setAt p.rx vc t.2, held := setAt p.held vc n.2 })).answer k false
          (if n.1 = 0 then none else some (vc, n.1)) := by
  rw [Dev.flitHeard] at h ⊢
  rw [Dev.flitIn, if_neg (by simp [hg])]
  dsimp only at h ⊢
  rw [if_neg (by simpa [imp_iff_neg_or] using h)]
  rfl

/-- What an accepted DATA flit does, in the parts that its content and its credit give. -/
theorem Dev.flitIn_data (hgap : (d.flitHeard k f).flitGap k f = 0) (hdata : bits f.link.toNat 1 0 = 1) {g : Dev} {rest : List (BitVec 8)}
    {n : Nat} {kept : List Nat} :
    let next := (d.flitHeard k f).updPort k (fun p => { p with rxSeq := (p.rxSeq + 1) % 2 ^ 14 })
    let vc := bits f.link.toNat 4 2
    let bs := (next.portSt k).rx.getD vc [] ++ f.content
    next.takePackets k vc (bs.length / 32 + 1) bs = (g, rest) →
    emptyFlits (bs.length - rest.length) ((g.portSt k).held.getD vc [] ++ [f.content.length]) = (n, kept) →
    d.flitIn k f = (g.updPort k (fun p => { p with rx := setAt p.rx vc rest, held := setAt p.held vc kept })).answer k false
      (if n = 0 then none else some (vc, n)) := by
  intro next vc bs htake hempty
  rw [Dev.flitIn_seen hg h]
  dsimp only
  rw [if_neg (not_not_intro hgap), if_neg (by omega)]
  dsimp only [next, vc, bs] at htake hempty
  simp only [htake, hempty]
  rfl

end

/-! ### Ports -/

section
variable {s : State} {k : Nat} (ha : s.dev.alive = true) (hk : k < 32)
include ha hk

/-- FLIT_RECEIVE at a usable Bamat port. -/
theorem execFlitReceive_usable {f : Flit} (hm : s.dev.portMode k = 1) (hu : s.dev.portUsable k = true) :
    execFlitReceive k f s = .next (s.withDev (s.dev.flitIn k f)) := by
  rw [execFlitReceive, onUnit_alive _ hk ha, if_pos (by simp [hm, hu])]
  rfl

/-- IDENT at a port that does not train with lanes. -/
theorem execIdent_none {peer : PeerId} (h : s.dev.portState k ≠ 1 ∨ s.dev.portWidth k = 0) : execIdent k peer s = .next s := by
  rw [execIdent, onUnit_alive _ hk ha, if_pos]
  obtain h | h := h <;> simp [h]

/-- The device once an Ethernet port has taken a frame (R289). -/
def Dev.frameTaken (d : Dev) (k mac ty vlan : Nat) : EthBody → Dev
  | .pause q => if ty = 0x8808 then d.pausePort k q else d.discardAt k
  | .pfc qs => if ty = 0x8808 then (qs.getD 3 none).elim d (fun q => d.pausePort k q) else d.discardAt k
  | .flits fs =>
    if mac = teMac (d.portEntry k) ∧ ty = 0x88B5 ∧ vlan = teVlan (d.portEntry k) ∧ fs ≠ [] ∧ fs.length ≤ 8 then
      fs.foldl (fun d f => if d.portUsable k then d.flitIn k f else d) d
    else d.discardAt k

/-- ETH_FRAME at an Ethernet port. -/
theorem execEthFrame_eth (mac ty vlan : Nat) (hm : s.dev.portMode k = 2 ∨ s.dev.portMode k = 3) (body : EthBody) :
    execEthFrame k mac ty vlan body s = .next (s.withDev (s.dev.frameTaken k mac ty vlan body)) := by
  rw [execEthFrame, onUnit_alive _ hk ha]
  dsimp only
  rw [if_neg (by simpa [imp_iff_neg_or] using hm)]
  cases body with
  | pause q => rfl
  | pfc qs =>
    dsimp only [Dev.frameTaken]
    cases qs.getD 3 none <;> rfl
  | flits fs =>
    dsimp only [Dev.frameTaken]
    by_cases h : mac = teMac (s.dev.portEntry k) ∧ ty = 0x88B5 ∧ vlan = teVlan (s.dev.portEntry k) ∧ fs ≠ [] ∧ fs.length ≤ 8
    · rw [if_pos h, if_neg (by simpa [not_or, and_assoc] using h)]
      rfl
    · rw [if_neg h, if_pos (by simpa [imp_iff_neg_or, or_assoc] using h)]
      rfl

/-- LANE_DROPPED of a lane that is not in use. -/
theorem execLaneDropped_none {lane : Nat} (hl : lane < 8) (h : ¬ ((s.dev.portState k = 2 ∨ s.dev.portState k = 3) ∧
    (s.dev.fld (R.LNK_PORT_STAT k) F.LNK_PORT_STAT_LANES).testBit lane = true)) : execLaneDropped k lane s = .next s := by
  rw [execLaneDropped, onUnits_alive _ (by simp [badUnit, hk, hl]) ha]
  dsimp only
  rw [if_pos (by simpa [imp_iff_neg_or] using h)]

/-- LANE_DROPPED of a lane in use. -/
theorem execLaneDropped_on {lane : Nat} (hl : lane < 8) (h : (s.dev.portState k = 2 ∨ s.dev.portState k = 3) ∧
    (s.dev.fld (R.LNK_PORT_STAT k) F.LNK_PORT_STAT_LANES).testBit lane = true) :
    let lanes := s.dev.fld (R.LNK_PORT_STAT k) F.LNK_PORT_STAT_LANES
    let e := (s.dev.satFld (R.LNK_PORT_ERR k) F.LNK_PORT_ERR_LANE_DROPS 1).setFld (R.LNK_PORT_STAT k) F.LNK_PORT_STAT_LANES (lanes - 2 ^ lane)
    let w := e.portWidth k - 1
    let on := e.setFld (R.LNK_PORT_STAT k) F.LNK_PORT_STAT_WIDTH w
    let off := e.setFld (R.LNK_PORT_STAT k) F.LNK_PORT_STAT_WIDTH 0
    execLaneDropped k lane s = .next (s.withDev (if e.portMode k = 1 && decide (4 ≤ w) then
        ((on.raise { code := 0x0A04, unit := k, args := [on.fld (R.LNK_PORT_PEER k) F.LNK_PORT_PEER_PEER_DEV, lane] }).portTo k 3).resend k
      else (off.updPort k (fun x => { x with attemptAt := off.now, failed := 3 })).portTo k 4)) := by
  rw [execLaneDropped, onUnits_alive _ (by simp [badUnit, hk, hl]) ha]
  dsimp only
  rw [if_neg (by simpa [imp_iff_neg_or] using h)]
  rfl

end

/-- Settles O36 (where a link that has just trained begins, and what frames and pauses an Ethernet port takes, are log entries 71 and 82). -/
theorem portsAndFlits : Obligations.PortsAndFlits := by
  refine ⟨fun s k ha hk => ⟨fun good hd => ?notDue, fun good lanes ok hd ht => ?attempt,
      fun peer => ⟨fun h => execIdent_none ha hk h, fun h1 h2 => ?ident⟩⟩,
    fun s k ha hk => ⟨fun f hm hu => ⟨fun hb => ?bad, fun hg => ⟨fun h => ?other, fun h hgap => ?gap, fun h hgap hi => ?idle,
        fun g rest n kept h hgap hdata => ?data⟩⟩,
      fun f h => ?noPort, fun mac ty vlan body h2 h3 => ?noEth, fun mac ty vlan hm => ⟨fun q => ?pause, fun qs => ?pfc, fun fs => ?flits⟩,
      fun hr ht => ?resend, fun hn => ?noResend, fun lane hl =>
        ⟨fun h => execLaneDropped_none ha hk hl h, fun h hm hw => ?lane, fun h hn => ?lastLane⟩⟩⟩
  case notDue =>
    change execTrainingAttempt k good s = _
    rw [execTrainingAttempt, onUnit_alive _ hk ha, if_pos hd]
  case attempt =>
    change execTrainingAttempt k good s = _
    rw [execTrainingAttempt, onUnit_alive _ hk ha, if_neg (by simp [hd])]
    dsimp only
    rw [ht]
    dsimp only
    simp only [Bool.or_eq_true, decide_eq_true_eq]
    rfl
  case ident =>
    have due : ¬ (!(decide (s.dev.portState k = 1) && decide (0 < s.dev.portWidth k))) = true := by simp [h1, h2]
    refine ⟨fun hm => ?_, fun hm => ?_⟩
    · change execIdent k peer s = _
      rw [execIdent, onUnit_alive _ hk ha, if_neg due]
      dsimp only
      rw [if_pos hm]
      simp only [Bool.and_eq_true, decide_eq_true_eq]
      rfl
    · change execIdent k peer s = _
      rw [execIdent, onUnit_alive _ hk ha, if_neg due]
      dsimp only
      rw [if_neg hm]
      rfl
  case bad => exact (execFlitReceive_usable ha hk hm hu).trans (by rw [Dev.flitIn_bad hb])
  case other => exact (execFlitReceive_usable ha hk hm hu).trans (by rw [Dev.flitIn_other hg h]; rfl)
  case gap =>
    refine (execFlitReceive_usable ha hk hm hu).trans ?_
    rw [Dev.flitIn_seen hg h]
    have hgap : (s.dev.flitHeard k f).flitGap k f ≠ 0 := hgap
    dsimp only
    rw [if_pos hgap]
    rfl
  case idle =>
    refine (execFlitReceive_usable ha hk hm hu).trans ?_
    rw [Dev.flitIn_seen hg h]
    have hgap : (s.dev.flitHeard k f).flitGap k f = 0 := hgap
    dsimp only
    rw [if_neg (not_not_intro hgap), if_pos hi]
    rfl
  case data =>
    intro bs htake hempty
    exact (execFlitReceive_usable ha hk hm hu).trans
      (congrArg (fun x => Host.Outcome.next (s.withDev x)) (Dev.flitIn_data hg h hgap hdata htake hempty))
  case noPort =>
    change execFlitReceive k f s = _
    rw [execFlitReceive, onUnit_alive _ hk ha, if_neg]
    simpa [imp_iff_neg_or] using h
  case noEth =>
    change execEthFrame k mac ty vlan body s = _
    rw [execEthFrame, onUnit_alive _ hk ha]
    dsimp only
    rw [if_pos (by simp [h2, h3])]
  case pause => exact execEthFrame_eth ha hk mac ty vlan hm (.pause q)
  case pfc => exact execEthFrame_eth ha hk mac ty vlan hm (.pfc qs)
  case flits => exact execEthFrame_eth ha hk mac ty vlan hm (.flits fs)
  case resend =>
    change execResendTimeout k s = _
    rw [execResendTimeout, onUnit_alive _ hk ha, if_pos (by simp [hr, ht])]
    rfl
  case noResend =>
    change execResendTimeout k s = _
    rw [execResendTimeout, onUnit_alive _ hk ha, if_neg]
    obtain h | h := hn
    · simp [h]
    · simp [Nat.not_le.mpr h]
  case lane =>
    refine (execLaneDropped_on ha hk hl h).trans ?_
    rw [if_pos (by simp [hm, hw])]
  case lastLane =>
    refine (execLaneDropped_on ha hk hl h).trans ?_
    rw [if_neg]
    obtain hn | hn := hn
    · simp [hn]
    · simp [Nat.not_le.mpr hn]

end Sys2Proof.Machine
end

section
/-! Remote operations over Bamat and the tempo exchange (R273, R276 to R280, R284, R285, R288). -/

namespace Sys2Proof.Machine

/-! ### What a remote operation does at its device -/

section
variable {d : Dev} {p : BamatPkt}

/-- An engine's packet is refused by the status of its job. -/
theorem Dev.engineTakes_refused {st : Nat} (src : Nat) (h : d.bamatStatus p.job false = some st) : d.engineTakes src p = d.bamatRefuse p st := by
  rw [Dev.engineTakes, h]

/-- An engine's WRITE that nothing refuses arrives there. -/
theorem Dev.engineTakes_arrives (src : Nat) (hp : p.op = 1) (h : d.bamatStatus p.job false = none) : d.engineTakes src p = d.bamatArrives p := by
  rw [Dev.engineTakes, h]
  dsimp only
  rw [if_neg (by omega)]

/-- An operation on memory is refused by its status. -/
theorem Dev.remoteOp_refused {bad : Nat → Bool} {f : Dev → Nat → Dev} {st : Nat} (h : d.bamatStatus p.job (bad (d.jobCtx p.job)) = some st) :
    d.remoteOp p bad f = d.bamatRefuse p st := by
  rw [Dev.remoteOp, h]

/-- An operation on memory that nothing refuses is done. -/
theorem Dev.remoteOp_done {bad : Nat → Bool} {f : Dev → Nat → Dev} (h : d.bamatStatus p.job (bad (d.jobCtx p.job)) = none) :
    d.remoteOp p bad f = f d (d.jobCtx p.job) := by
  rw [Dev.remoteOp, h]

/-- What an operation on a sync object does: its status refuses it, counted where the object is barred, and otherwise it is done. -/
theorem Dev.remoteSync_cases (op : SyncOp) (f : Dev → Nat → Dev) :
    let status := d.bamatStatus p.job (!d.agentMay (.port 0 p.job) (p.addr % 2 ^ 14) op)
    (∀ st, status = some st → st ≠ 3 → d.remoteSync p op f = d.bamatRefuse p st) ∧
    (status = some 3 → d.remoteSync p op f = d.syncRefused.bamatRefuse p 3) ∧
    (status = none → d.remoteSync p op f = f d (p.addr % 2 ^ 14)) := by
  refine ⟨fun st h hst => ?_, fun h => ?_, fun h => ?_⟩
  · rw [Dev.remoteSync]
    rw [h]
    dsimp only
    rw [if_neg hst]
  · rw [Dev.remoteSync]
    rw [h]
    rfl
  · rw [Dev.remoteSync]
    rw [h]

end

/-- No status that is 7 or more is below 7. -/
theorem any_below_of_all {o : Option Nat} (h : o.all (fun st => decide (7 ≤ st)) = true) : o.any (fun v => decide (v < 7)) = false := by
  cases o with
  | none => rfl
  | some v => simpa using h

/-- What a row of a remote operation does may be written in any way that is the same on every device. -/
theorem Takes.congr {p : BamatPkt} {op : Nat} {s : State} {f g : Dev → Dev} {ans : Out} (h : Takes p op s f ans) (hfg : ∀ d, f d = g d) :
    Takes p op s g ans := by
  rwa [← funext hfg]

/-- A WRITE to the collective or the audit endpoint is an engine's. -/
theorem engineOp_write {p : BamatPkt} (hp : p.op = 1) (hep : p.dstep = 322 ∨ p.dstep = 324) : engineOp p = true := by
  simp [engineOp, hp, hep]

section
variable {s : State} (ha : s.dev.alive = true)
include ha

/-- BAMAT_WRITE is taken as a packet is, and does at its device what its end and its status say. -/
theorem execBamatWrite_takes (p : BamatPkt) :
    Takes p 1 s (fun d => if engineOp p then d.engineTakes 322 p
      else d.remoteOp p (fun c => !d.owns c p.addr p.payload.length)
        (fun d c => (d.memWriteRun { ctx := c } p.addr p.payload).1.bamatSend
          (answerTo p (d.memWriteRun { ctx := c } p.addr p.payload).1.selfDev 4 0 [])))
      (execBamatWrite p s) := bamatRow_takes p 1 _ ha

/-- BAMAT_RDATA is taken as a packet is, and its bytes go on to the engine it is for. -/
theorem execBamatRdata_takes (p : BamatPkt) :
    Takes p 3 s (fun d =>
      if p.dstep = 322 then (d.answered 2 p).gatherData p else if p.dstep = 324 then (d.answered 2 p).auditData p else d.answered 2 p)
      (execBamatRdata p s) := by
  refine (bamatRow_takes p 3 _ ha).congr fun d => ?_
  dsimp only
  split
  case h_1 h => rw [if_pos h]
  case h_2 h => rw [if_neg (by omega), if_pos h]
  case h_3 h2 h4 => rw [if_neg h2, if_neg h4]

/-- REFUSE is taken as a packet is, and is told to whom it is for. -/
theorem execRefuse_takes (p : BamatPkt) :
    Takes p 11 s (fun d =>
      let e := d.answered (bits p.arg 15 8) p
      if p.dstep < 256 then e.tileStop p.dstep (.fault 0x0A31) [p.srcdev, p.arg % 256, e.portToward p.srcdev]
      else if p.dstep = 321 then e.kvRefused p else if p.dstep = 322 then e.abandonedJob p.job p.srcdev
      else if p.dstep = 324 then e.auditRefused p else e) (execRefuse p s) := by
  refine (bamatRow_takes p 11 _ ha).congr fun d => ?_
  dsimp only
  by_cases h0 : p.dstep < 256
  · rw [if_pos h0, if_pos h0]
  rw [if_neg h0, if_neg h0]
  split
  case h_1 h => rw [if_pos h]
  case h_2 h => rw [if_neg (by omega), if_pos h]
  case h_3 h => rw [if_neg (by omega), if_neg (by omega), if_pos h]
  case h_4 h1 h2 h4 => rw [if_neg h1, if_neg h2, if_neg h4]

end

/-- Settles O37 (the end of a READ refused halfway, the form of the answers, and what a tempo exchange shows are log entries 23, 31, 79
and 80). -/
theorem remoteOperationsAndTempo : Obligations.RemoteOperationsAndTempo := by
  refine ⟨fun s p ha => ⟨⟨_, execBamatWrite_takes ha p, fun d => ⟨fun hp hep => ⟨fun st h => ?engineNo, fun h => ?engine⟩,
      fun hp h2 h4 => ⟨fun st h => ?writeNo, fun e g h hw => ?write⟩⟩⟩,
    ⟨_, bamatRow_takes p 2 _ ha, fun d => ⟨fun st h hst => ?readNo,
      fun hlate => ⟨fun e a hr => ?readUe, fun e hr => ⟨fun st h => ?readLate, fun h => ?read⟩⟩⟩⟩,
    ?rdata, bamatRow_takes p 4 _ ha,
    ⟨_, _, bamatRow_takes p 6 _ ha, bamatRow_takes p 7 _ ha, fun d => ?sync⟩, ?refuse⟩,
    fun s dim seg broken ha h1 h2 => ?ring,
    fun s k t1 t2 t3 t4 err ha hk => ⟨fun h => ?far, fun hu hm => ⟨fun h => ?own, fun h1 h2 => ?parent⟩⟩⟩
  case engineNo =>
    rw [if_pos (engineOp_write hp hep), Dev.engineTakes_refused 322 h]
  case engine =>
    rw [if_pos (engineOp_write hp hep), Dev.engineTakes_arrives 322 hp h]
  case writeNo =>
    rw [if_neg (by simp [engineOp, hp, h2, h4]), Dev.remoteOp_refused h]
  case write =>
    rw [if_neg (by simp [engineOp, hp, h2, h4]), Dev.remoteOp_done h, hw]
  case readNo =>
    dsimp only
    rw [h, if_pos (by simp [hst])]
    rfl
  case readUe =>
    dsimp only
    rw [if_neg (by simp [any_below_of_all hlate]), hr]
  case readLate =>
    dsimp only
    rw [if_neg (by simp [any_below_of_all hlate]), hr]
    dsimp only
    rw [h]
  case read =>
    dsimp only
    rw [if_neg (by simp [any_below_of_all hlate]), hr]
    dsimp only
    rw [h]
  case rdata => exact execBamatRdata_takes ha p
  case sync =>
    obtain ⟨s1, s2, s3⟩ := Dev.remoteSync_cases (d := d) (p := p) .signal (fun d o => d.syncSignal o p.arg)
    obtain ⟨r1, r2, r3⟩ := Dev.remoteSync_cases (d := d) (p := p) .sreset (fun d o => d.syncReset o)
    exact ⟨s1, s2, s3, r1, r2, r3⟩
  case refuse => exact execRefuse_takes ha p
  case ring =>
    change execNoticeRing dim seg broken s = _
    rw [execNoticeRing, onUnits_alive _ (by simp [badUnit, h1, h2]) ha]
    rfl
  case far =>
    change execTempoExchange k _ err s = _
    rw [execTempoExchange, onUnit_alive _ hk ha, if_pos (by simpa using h)]
  case own =>
    change execTempoExchange k _ err s = _
    rw [execTempoExchange, onUnit_alive _ hk ha, if_neg (by simp [hu, hm])]
    dsimp only [stampOffset, stampDelay]
    rw [if_pos (by simpa using h)]
    rfl
  case parent =>
    change execTempoExchange k _ err s = _
    rw [execTempoExchange, onUnit_alive _ hk ha, if_neg (by simp [hu, hm])]
    dsimp only [stampOffset, stampDelay]
    rw [if_neg (by simp [h1, h2])]
    rfl

end Sys2Proof.Machine
end

section
/-! The doorbells of the host (R296, R303). -/

namespace Sys2Proof.Machine

/-! ### What a function's row does -/

section
variable {s : State} {fn : Nat} (ha : s.dev.alive = true) (hn : fn < 64)
include ha hn

/-- A function's access over a link that is up. -/
theorem fnRow_up (hl : s.dev.host.linkUp = true) (he : s.dev.fnExists fn = true) (f : Dev → Dev) : fnRow fn s f = .next (s.withDev (f s.dev)) := by
  rw [fnRow, onUnit_alive _ hn ha, if_pos (by simp [hl, he])]
  rfl

/-- A function's access with no link, or of a function that does not exist, changes nothing. -/
theorem fnRow_gone (h : s.dev.host.linkUp = false ∨ s.dev.fnExists fn = false) (f : Dev → Dev) : fnRow fn s f = .next s := by
  rw [fnRow, onUnit_alive _ hn ha, if_neg]
  obtain h | h := h <;> simp [h]

end

/-! ### What a doorbell does -/

/-- Whether a doorbell write is whole and its upper half 0. -/
theorem doorWhole_iff {size : Nat} {val : Word} : doorWhole size val = true ↔ size = 8 ∧ val.toNat < 2 ^ 32 := by simp [doorWhole]

section
variable {d : Dev} {fn off size : Nat} {val : Word}

/-- A whole write of a queue's page at offset 0 writes its TAIL. -/
theorem Dev.bar2Write_tail {q : Nat} (hq : d.pageQueue fn (off / 4096) = some q) (hw : size = 8 ∧ val.toNat < 2 ^ 32) (ho : off % 4096 = 0) :
    d.bar2Write fn off size val = d.tailWrite q val.toNat := by
  rw [Dev.bar2Write, if_pos ho, Dev.doorbell, hq]
  dsimp only
  rw [if_pos (doorWhole_iff.mpr hw)]

/-- A whole write of a queue's page at offset 8 writes its HEAD. -/
theorem Dev.bar2Write_head {q : Nat} (hq : d.pageQueue fn (off / 4096) = some q) (hw : size = 8 ∧ val.toNat < 2 ^ 32) (ho : off % 4096 = 8) :
    d.bar2Write fn off size val = d.headWrite q val.toNat := by
  rw [Dev.bar2Write, if_neg (by omega), if_pos ho, Dev.doorbell, hq]
  dsimp only
  rw [if_pos (doorWhole_iff.mpr hw)]

/-- A work doorbell of no queue, or not whole, is discarded. -/
theorem Dev.doorbell_discarded {page at_ : Nat} {f : Dev → Nat → Nat → Dev}
    (h : d.pageQueue fn page = none ∨ ¬ (size = 8 ∧ val.toNat < 2 ^ 32)) :
    d.doorbell fn page size val at_ f = d.badDoor fn (page * 4096 + at_) := by
  rw [Dev.doorbell]
  cases hq : d.pageQueue fn page with
  | none => rfl
  | some q =>
    have hw : ¬ doorWhole size val = true := by
      rw [doorWhole_iff]
      exact h.resolve_left (by simp [hq])
    dsimp only
    rw [if_neg hw]

/-- A write to BAR2 that is no legal doorbell is discarded. -/
theorem Dev.bar2Write_discarded
    (h : d.pageQueue fn (off / 4096) = none ∨ ¬ (size = 8 ∧ val.toNat < 2 ^ 32) ∨ (off % 4096 ≠ 0 ∧ off % 4096 ≠ 8)) :
    d.bar2Write fn off size val = d.badDoor fn off := by
  have page : ∀ r, off % 4096 = r → off / 4096 * 4096 + r = off := fun r hr => by omega
  rw [Dev.bar2Write]
  by_cases h0 : off % 4096 = 0
  · rw [if_pos h0, Dev.doorbell_discarded (h.imp_right fun h => h.resolve_right (by simp [h0])), page 0 h0]
  by_cases h8 : off % 4096 = 8
  · rw [if_neg h0, if_pos h8, Dev.doorbell_discarded (h.imp_right fun h => h.resolve_right (by simp [h8])), page 8 h8]
  · rw [if_neg h0, if_neg h8]

/-- A whole admin doorbell of a queue that is on writes it. -/
theorem Dev.adminDoor_whole {f : Dev → Nat → Nat → Dev} (ho : d.adminOn fn = true) (hw : size = 8 ∧ val.toNat < 2 ^ 32) :
    d.adminDoor fn size val off f = f d (4096 + fn) val.toNat := by
  rw [Dev.adminDoor, if_pos (by rw [ho, doorWhole_iff.mpr hw]; rfl)]

/-- An admin doorbell of a queue that is off, or not whole, is discarded. -/
theorem Dev.adminDoor_discarded {f : Dev → Nat → Nat → Dev} (h : d.adminOn fn = false ∨ ¬ (size = 8 ∧ val.toNat < 2 ^ 32)) :
    d.adminDoor fn size val off f = d.badDoor fn off := by
  rw [Dev.adminDoor, if_neg]
  rw [Bool.and_eq_true, doorWhole_iff]
  rintro ⟨ho, hw⟩
  exact h.elim (by simp [ho]) (absurd hw)

end

/-- Settles O38 (that the row of SQ_TAIL carries the host's earlier writes, and that a link that is down changes nothing, are log entries 3
and 84). -/
theorem doorbells : Obligations.Doorbells := by
  refine ⟨fun s fn off size val hw ha hn => ⟨
    fun h => ⟨fnRow_gone ha hn h _, fnRow_gone ha hn h _, fnRow_gone ha hn h _, fnRow_gone ha hn h _⟩,
    fun hl he => ?rows⟩, fun d q v x hx => ?writes⟩
  case rows =>
    have row : ∀ f e, f s.dev = e → fnRow fn s f = .next (s.withDev e) := fun f e h => h ▸ fnRow_up ha hn hl he f
    exact ⟨fun q hq w h0 => row _ _ (Dev.bar2Write_tail hq w h0), fun q hq w h8 => row _ _ (Dev.bar2Write_head hq w h8),
      fun q hq w h0 => row _ _ (Dev.bar2Write_tail hq w h0), fun q hq w h8 => row _ _ (Dev.bar2Write_head hq w h8),
      fun h => row _ _ (Dev.bar2Write_discarded h), fun h => row _ _ (Dev.bar2Write_discarded h),
      fun ho w => row _ _ (Dev.adminDoor_whole ho w), fun h => row _ _ (Dev.adminDoor_discarded h),
      fun ho w => row _ _ (Dev.adminDoor_whole ho w), fun h => row _ _ (Dev.adminDoor_discarded h)⟩
  case writes =>
    refine ⟨fun h => ?_, fun h => ?_, fun h => ?_, fun h => ?_⟩
    · rw [Dev.tailWrite, hx]
      dsimp only
      rw [if_pos h]
    · rw [Dev.headWrite, hx]
      dsimp only
      rw [if_pos h]
    · rw [Dev.tailWrite, hx]
      dsimp only
      rw [if_neg (by simp [h])]
      rfl
    · rw [Dev.headWrite, hx]
      dsimp only
      rw [if_neg (by simp [h])]
      rfl

end Sys2Proof.Machine
end

section
/-! The host's link, the admin queue's configuration and the heartbeat (R292, R294, R302, R316, R317, R321). -/

namespace Sys2Proof.Machine

/-- When LINK_UP may take the link up: it is down, there is power, and the speed and width are of R292. -/
def Dev.linkMayRise (d : Dev) (speed width : Nat) : Prop :=
  d.host.linkUp = false ∧ d.pins.dark = false ∧ 3 ≤ speed ∧ speed ≤ 6 ∧ ¬ (speed = 6 ∧ width = 8)

/-- The guard of LINK_UP. -/
theorem Dev.linkMayRise_iff (d : Dev) (speed width : Nat) : d.linkMayRise speed width ↔
    ¬ (d.host.linkUp || d.pins.dark || !(decide (3 ≤ speed) && decide (speed ≤ 6)) || (speed = 6 && width = 8)) = true := by
  simp only [Dev.linkMayRise, Bool.or_eq_true, Bool.and_eq_true, Bool.not_eq_true', Bool.and_eq_false_iff, decide_eq_true_eq,
    decide_eq_false_iff_not, not_or, Bool.not_eq_true, Classical.not_not, and_assoc]

section
variable {s : State} {fn size : Nat} {val : Word} (ha : s.dev.alive = true) (hn : fn < 64)
include ha hn

/-- HIF_ADMQ_CFG with no link. -/
theorem execHifAdmqCfg_down (h : s.dev.host.linkUp = false) : execHifAdmqCfg fn size val s = .next s := by
  rw [execHifAdmqCfg, onUnit_alive _ hn ha, if_pos h]

/-- A partial write of HIF_ADMQ_CFG is a host-range event. -/
theorem execHifAdmqCfg_partial (h : s.dev.host.linkUp = true) (hs : size ≠ 8) :
    execHifAdmqCfg fn size val s = .next (s.withDev (s.dev.hostRange fn (R.HIF_ADMQ_CFG fn))) := by
  rw [execHifAdmqCfg, onUnit_alive _ hn ha, if_neg (by simp [h]), if_neg hs]
  rfl

/-- A whole write of HIF_ADMQ_CFG configures the admin queue. -/
theorem execHifAdmqCfg_whole (h : s.dev.host.linkUp = true) (hs : size = 8) :
    execHifAdmqCfg fn size val s = .next (s.withDev (s.dev.adminCfg fn val)) := by
  rw [execHifAdmqCfg, onUnit_alive _ hn ha, if_neg (by simp [h]), if_pos hs]
  rfl

end

/-- Settles O39 (the enables before the admin queue, a link that is down, and a heartbeat's upper half are log entries 26, 84 and 128). -/
theorem hostLinkAndHeartbeat : Obligations.HostLinkAndHeartbeat := by
  refine ⟨fun s ha => ⟨fun h => ⟨?down0, ?reset0⟩, fun h => ⟨?down, ?reset⟩,
      fun speed width => ⟨fun h => ?up0, fun h hw => ?narrow, fun h h8 h16 => ?odd, fun h hw => ?up⟩,
      fun f hf => ⟨fun h => ?bme0, fun h => ?bme⟩⟩,
    fun s fn size val ha hn => ⟨
      fun h => ⟨execHifAdmqCfg_down ha hn h, fnRow_gone ha hn (.inl h) _⟩, fun h hs => execHifAdmqCfg_partial ha hn h hs,
      fun h hs => ⟨fun hv ho => ?start, fun hv ho => ?stop, fun hv => ?same⟩, fun _ he => fnRow_gone ha hn (.inr he) _,
      fun h he hs => ?beatPart, fun h he hs => ?beat, ?late, ?timeout⟩⟩
  case down0 =>
    change execLinkDown s = _
    rw [execLinkDown, onDev_alive _ ha, if_pos h]
  case reset0 =>
    change execHotReset s = _
    rw [execHotReset, onDev_alive _ ha, if_neg (by simp [h])]
  case down =>
    change execLinkDown s = _
    rw [execLinkDown, onDev_alive _ ha, if_neg (by simp [h])]
    rfl
  case reset =>
    change execHotReset s = _
    rw [execHotReset, onDev_alive _ ha, if_pos h]
    rfl
  case up0 =>
    change execLinkUp speed width s = _
    rw [execLinkUp, onDev_alive _ ha, if_pos (Classical.not_not.mp (mt (s.dev.linkMayRise_iff speed width).mpr h))]
  case narrow =>
    change execLinkUp speed width s = _
    rw [execLinkUp, onDev_alive _ ha, if_neg ((s.dev.linkMayRise_iff speed width).mp h), if_pos hw]
    rfl
  case odd =>
    change execLinkUp speed width s = _
    rw [execLinkUp, onDev_alive _ ha, if_neg ((s.dev.linkMayRise_iff speed width).mp h), if_neg (by omega), if_pos]
    simp [h16, Nat.ne_of_gt h8]
  case up =>
    change execLinkUp speed width s = _
    rw [execLinkUp, onDev_alive _ ha, if_neg ((s.dev.linkMayRise_iff speed width).mp h), if_neg (by omega),
      if_neg (by simpa [Classical.or_iff_not_imp_left] using hw)]
    simp only [Bool.or_eq_true, decide_eq_true_eq]
    rfl
  case bme0 =>
    change execBmeCleared f s = _
    rw [execBmeCleared, onUnit_alive _ hf ha, if_neg (ne_true_of_eq_false h)]
  case bme =>
    change execBmeCleared f s = _
    rw [execBmeCleared, onUnit_alive _ hf ha, if_pos h]
    rfl
  case start =>
    refine (execHifAdmqCfg_whole ha hn h hs).trans ?_
    dsimp only [Dev.adminCfg]
    rw [if_pos (by simp [hv, ho])]
  case stop =>
    refine (execHifAdmqCfg_whole ha hn h hs).trans ?_
    dsimp only [Dev.adminCfg]
    rw [if_neg (by simp [hv]), if_pos (by simp [hv, ho])]
  case same =>
    refine (execHifAdmqCfg_whole ha hn h hs).trans ?_
    dsimp only [Dev.adminCfg]
    rw [if_neg (by simp [hv]), if_neg (by simp [hv])]
  case beatPart =>
    refine (fnRow_up ha hn h he _).trans ?_
    rw [if_neg hs]
    rfl
  case beat =>
    refine (fnRow_up ha hn h he _).trans ?_
    rw [if_pos hs]
    rfl
  case late =>
    change execHeartbeatLate fn s = _
    rw [execHeartbeatLate, onUnit_alive _ hn ha]
    rfl
  case timeout =>
    change execHeartbeatTimeout fn s = _
    rw [execHeartbeatTimeout, onUnit_alive _ hn ha]
    rfl

end Sys2Proof.Machine
end

section
/-! Descriptor fetch, completion time-out and descriptor time-out (R295, R304, R310, R317). -/

namespace Sys2Proof.Machine

section
variable {s : State} {q : Nat} (ha : s.dev.alive = true) (hq : q < 4160)
include ha hq

/-- Where there is no queue, or it may not fetch, neither a fetch nor its time-out does anything. -/
theorem execFetch_none (h : ∀ x, s.dev.queue q = some x → x.mayFetch = false) :
    execDescriptorFetch q s = .next s ∧ execCompletionTimeout q none s = .next s := by
  rw [execDescriptorFetch, execCompletionTimeout, onUnit_alive _ hq ha, onUnit_alive _ hq ha]
  cases hx : s.dev.queue q with
  | none => exact ⟨rfl, rfl⟩
  | some x =>
    refine ⟨?_, ?_⟩
    · dsimp only
      rw [if_pos (h x hx)]
    · dsimp only
      rw [if_neg (by simp [h x hx])]

variable {n : Nat} {y : Desc} (hy : s.dev.desc q n = some y)
include hy

/-- The completion time-out of a descriptor that is no running COPY of host memory. -/
theorem execCompletionTimeout_other (h : ¬ (y.typ = 12 ∧ y.phase = .running ∧ (y.body 0x18 1).testBit 0 = true)) :
    execCompletionTimeout q (some n) s = .next s := by
  rw [execCompletionTimeout, onUnit_alive _ hq ha]
  dsimp only
  rw [hy]
  dsimp only
  rw [if_neg (by simpa [and_assoc] using h)]

/-- The completion time-out of a running COPY that reads host memory. -/
theorem execCompletionTimeout_copy (h : y.typ = 12 ∧ y.phase = .running ∧ (y.body 0x18 1).testBit 0 = true) :
    execCompletionTimeout q (some n) s = .next (s.withDev
      (if s.dev.suppressed q then s.dev.complete q n stOrphaned 0 else (s.dev.hostFailed q n).complete q n stAccess (y.body 0 8))) := by
  rw [execCompletionTimeout, onUnit_alive _ hq ha]
  dsimp only
  rw [hy]
  dsimp only
  rw [if_pos (by simpa [and_assoc] using h)]
  rfl

/-- The time-out of a descriptor that is not past its time. -/
theorem execDescriptorTimeout_early
    (h : ¬ (y.timeoutUs ≠ 0 ∧ y.phase = .running ∧ y.start + y.timeoutUs * 1000 ≤ s.dev.now ∧ y.expired = false)) :
    execDescriptorTimeout q n s = .next s := by
  rw [execDescriptorTimeout, onUnit_alive _ hq ha]
  dsimp only
  rw [hy]
  dsimp only
  rw [if_pos (by simpa [imp_iff_neg_or, or_assoc] using h)]

/-- The time-out of a descriptor that is past its time. -/
theorem execDescriptorTimeout_due (h : y.timeoutUs ≠ 0 ∧ y.phase = .running ∧ y.start + y.timeoutUs * 1000 ≤ s.dev.now ∧ y.expired = false) :
    let e := s.dev.raise (s.dev.descEvent 0x0B17 q n)
    let d := e.updDesc q n (fun y => { y with expired := true })
    execDescriptorTimeout q n s = .next (s.withDev (if isAdmin q then e.complete q n stTimeout 0
      else d.resignStart (d.queueFn q) 0 q (if d.queueFn q = 0 then q else ((d.queue q).map (fun y => y.loc)).getD 0))) := by
  rw [execDescriptorTimeout, onUnit_alive _ hq ha]
  dsimp only
  rw [hy]
  dsimp only
  rw [if_neg (by simpa [and_assoc] using h)]
  rfl

end

/-- Settles O40 (that a time-out which is not due does nothing is log entry 7). -/
theorem fetchAndTimeout : Obligations.FetchAndTimeout := by
  refine fun s q ha hq => ⟨fun h => execFetch_none ha hq (by simp [h]),
    fun x hx => ⟨fun h => execFetch_none ha hq (by simp [hx, h]), fun raw h hr => ?fetch, fun h hr => ?fails, fun h => ?late⟩,
    fun n h => ⟨?noDesc, ?noDesc'⟩, fun n y hy => ⟨fun h => execCompletionTimeout_other ha hq hy h, fun h => execCompletionTimeout_copy ha hq hy h,
      fun h => execDescriptorTimeout_early ha hq hy h, fun h hadm => ?admin, fun h hadm => ?work⟩⟩
  case fetch =>
    change execDescriptorFetch q s = _
    rw [execDescriptorFetch, onUnit_alive _ hq ha, hx]
    dsimp only
    rw [if_neg (by simp [h]), hr]
    rfl
  case fails =>
    change execDescriptorFetch q s = _
    rw [execDescriptorFetch, onUnit_alive _ hq ha, hx]
    dsimp only
    rw [if_neg (by simp [h]), hr]
    rfl
  case late =>
    change execCompletionTimeout q none s = _
    rw [execCompletionTimeout, onUnit_alive _ hq ha]
    dsimp only
    rw [hx]
    dsimp only
    rw [if_pos h]
    rfl
  case noDesc =>
    change execCompletionTimeout q (some n) s = _
    rw [execCompletionTimeout, onUnit_alive _ hq ha]
    dsimp only
    rw [h]
  case noDesc' =>
    change execDescriptorTimeout q n s = _
    rw [execDescriptorTimeout, onUnit_alive _ hq ha, h]
  case admin => exact (execDescriptorTimeout_due ha hq hy h).trans (by rw [if_pos hadm])
  case work => exact (execDescriptorTimeout_due ha hq hy h).trans (by rw [if_neg (by simp [hadm])])

end Sys2Proof.Machine
end

section
/-! Resigns asked for by a write, resigns that end, and function-level resets (R294, R311 to R314). -/

namespace Sys2Proof.Machine

/-! ### What a write of HIF_RESIGN does -/

section
variable {d : Dev} {fn target : Nat}

/-- A queue that the function may name starts a resign. -/
theorem Dev.resignWrite_queue {q : Nat} (h : d.resignQueueOf fn target = some q) : d.resignWrite fn 0 target = d.resignStart fn 0 q target := by
  rw [Dev.resignWrite, h]

/-- A queue that the function may not name is refused. -/
theorem Dev.resignWrite_noQueue (h : d.resignQueueOf fn target = none) : d.resignWrite fn 0 target = d.resignRefused fn 0 target := by
  rw [Dev.resignWrite, h]

end

/-- A choice depends on its condition up to equivalence. -/
theorem ite_of_iff {α : Type} {p q : Prop} [Decidable p] [Decidable q] (h : p ↔ q) (a b : α) : (if p then a else b) = if q then a else b :=
  ite_congr (propext h) (fun _ => rfl) (fun _ => rfl)

/-- The state after a choice of two devices is a choice of two states. -/
theorem State.withDev_ite (s : State) (p : Prop) [Decidable p] (d e : Dev) :
    s.withDev (if p then d else e) = if p then s.withDev d else s.withDev e := apply_ite s.withDev p d e

/-- Settles O41 (that a link which is down changes nothing, and that a resign refused is only told, are log entries 84 and 121). -/
theorem resignsAndResets : Obligations.ResignsAndResets := by
  refine ⟨fun d fn scope target shown => rfl, fun s fn target ha hn => ⟨
    fun h => ⟨fnRow_gone ha hn h _, fnRow_gone ha hn h _, fnRow_gone ha hn h _, fnRow_gone ha hn h _⟩,
    fun hl he => ⟨fun q hq => ?queue, fun hq => ?noQueue, ?context, ?function, ?device⟩, ?done, ?flrVf, ?flrPf, ?vfs⟩⟩
  case queue => exact (fnRow_up ha hn hl he _).trans (by rw [Dev.resignWrite_queue hq])
  case noQueue => exact (fnRow_up ha hn hl he _).trans (by rw [Dev.resignWrite_noQueue hq]; rfl)
  case context => exact (fnRow_up ha hn hl he _).trans (congrArg _ (State.withDev_ite ..))
  case function => exact (fnRow_up ha hn hl he _).trans (congrArg _ (State.withDev_ite ..))
  case device => exact (fnRow_up ha hn hl he _).trans (congrArg _ (State.withDev_ite ..))
  case done =>
    change execResignDone fn s = _
    rw [execResignDone, onUnit_alive _ hn ha]
    rfl
  case flrVf =>
    change execFlrVf fn s = _
    rw [execFlrVf, onUnit_alive _ hn ha]
    rfl
  case flrPf =>
    change execFlrPf s = _
    rw [execFlrPf, onDev_alive _ ha]
    rfl
  case vfs =>
    change execVfEnableCleared s = _
    rw [execVfEnableCleared, onDev_alive _ ha]
    rfl

end Sys2Proof.Machine
end

section
/-! Accesses to BAR0 (R6 to R10, R298, R321): what a read returns and clears, and what a write does. -/

namespace Sys2Proof.Machine

/-! ### The tables of the registers -/

/-- The bits of a value that lie outside the defined fields. -/
theorem strayBits_eq (off : Nat) (val : Word) : strayBits off val = (regRow off).elim val (fun r => val &&& ~~~ BitVec.ofNat 64 r.defined) := by
  rw [strayBits]
  cases regRow off <;> rfl

/-- The mask of the clear-on-read bits. -/
theorem rcMask_eq (off : Nat) : rcMask off = (regRow off).elim (0 : Word) (fun r => BitVec.ofNat 64 r.rc) := by
  rw [rcMask]
  cases regRow off <;> rfl

/-- An offset of a function's page lies in the page of that function. -/
theorem fnPage_offset {g : Nat} (h : 0x10000 ≤ g) : R.HIF_FN_STAT ((g - 0x10000) / 0x1000) + g % 0x1000 = g := by
  rw [R.HIF_FN_STAT]
  omega

/-! ### Writes -/

/-- The device told of the undefined bits that a write sets (R7). -/
def Dev.strayTold (d : Dev) (fn off : Nat) (val : Word) : Dev := if strayBits off val ≠ 0 then d.reservedWrite fn off else d

section
variable {d : Dev} {fn off : Nat} {val : Word}

/-- A refused value is a reserved write. -/
theorem Dev.plainWrite_refused (h : d.refuses off val = true) : d.plainWrite fn off val = d.reservedWrite fn off := by
  dsimp only [Dev.plainWrite]
  rw [if_pos h, if_pos (by simp [h])]

/-- A value that is not refused is applied. -/
theorem Dev.plainWrite_taken (h : d.refuses off val = false) : d.plainWrite fn off val = (d.strayTold fn off val).applyBits off val := by
  dsimp only [Dev.plainWrite, Dev.strayTold]
  rw [if_neg (by simp [h])]
  simp [h]

/-- Where there is no register nothing is applied. -/
theorem Dev.applyBits_none (h : regRow off = none) : d.applyBits off val = d := by rw [Dev.applyBits, h]

/-- What a value does to a register. -/
theorem Dev.applyBits_some {k : RegRow} (h : regRow off = some k) :
    let rw_ := BitVec.ofNat 64 k.rw
    let w1c := BitVec.ofNat 64 k.w1c
    d.applyBits off val =
      if rw_ = 0 && w1c = 0 then d else d.setReg off (((d.reg off &&& ~~~ rw_) ||| (val &&& rw_)) &&& ~~~ (val &&& w1c)) := by
  rw [Dev.applyBits, h]

/-! A write inside a function's page. -/

section
variable {f r : Nat}

/-- A write of a quota. -/
theorem Dev.pageWrite_quota : d.pageWrite fn f 0x08 val = (d.strayTold fn (R.HIF_FN_STAT f + 0x08) val).quotaWrite fn f val := rfl

/-- A write in another function's page. -/
theorem Dev.pageWrite_other (hr : r ≠ 0x08) (hf : fn ≠ f) : d.pageWrite fn f r val = d.strayTold fn (R.HIF_FN_STAT f + r) val := by
  unfold Dev.pageWrite
  dsimp only
  rw [if_neg hr, if_pos hf]
  rfl

/-- A write of the admin queue's configuration. -/
theorem Dev.pageWrite_cfg : d.pageWrite fn fn 0x20 val = d.adminCfg fn val := by simp [Dev.pageWrite]
/-- A write of the admin queue's TAIL. -/
theorem Dev.pageWrite_tail : d.pageWrite fn fn 0x28 val = d.adminDoor fn 8 val (R.HIF_FN_STAT fn + 0x28) Dev.tailWrite := by
  simp [Dev.pageWrite]
/-- A write of the admin queue's HEAD. -/
theorem Dev.pageWrite_head : d.pageWrite fn fn 0x30 val = d.adminDoor fn 8 val (R.HIF_FN_STAT fn + 0x30) Dev.headWrite := by
  simp [Dev.pageWrite]
/-- A write of the heartbeat. -/
theorem Dev.pageWrite_heartbeat : d.pageWrite fn fn 0x38 val = d.heartbeat fn val := by simp [Dev.pageWrite]
/-- A write of RESIGN. -/
theorem Dev.pageWrite_resign : d.pageWrite fn fn 0x40 val = d.resignReg fn val := by simp [Dev.pageWrite]

/-- A write of any other register of the function's own page. -/
theorem Dev.pageWrite_plain (h : r ≠ 0x08 ∧ r ≠ 0x20 ∧ r ≠ 0x28 ∧ r ≠ 0x30 ∧ r ≠ 0x38 ∧ r ≠ 0x40) :
    d.pageWrite fn fn r val = d.plainWrite fn (R.HIF_FN_STAT fn + r) val := by
  obtain ⟨h08, h20, h28, h30, h38, h40⟩ := h
  unfold Dev.pageWrite
  dsimp only
  rw [if_neg h08, if_neg (not_not_intro rfl)]
  split
  case h_6 => rfl
  all_goals contradiction

end

/-! A whole aligned write. -/

section
variable {g : Nat}

/-- The offsets of the functions' pages. -/
theorem inFnPages_iff : (decide (R.HIF_FN_STAT 0 ≤ g) && decide (g < R.HIF_FN_STAT 64)) = true ↔ 0x10000 ≤ g ∧ g < 0x50000 := by
  rw [Bool.and_eq_true, decide_eq_true_eq, decide_eq_true_eq]
  exact Iff.rfl

/-- The offsets of the mailboxes' doorbells. -/
theorem isMailboxDoor_iff : (decide (R.MGT_MB_DOOR 0 ≤ g) && decide (g < R.MGT_MB_DOOR 8) && decide (g % 0x20 = 0x10)) = true ↔
    0x101010 ≤ g ∧ g < 0x101110 ∧ g % 32 = 16 := by
  rw [Bool.and_eq_true, Bool.and_eq_true, decide_eq_true_eq, decide_eq_true_eq, decide_eq_true_eq, and_assoc]
  exact Iff.rfl

/-- A whole write inside the functions' pages. -/
theorem Dev.barWrite_page (ha : g % 8 = 0) (hp : 0x10000 ≤ g ∧ g < 0x50000) :
    d.barWrite fn g 8 val = d.pageWrite fn ((g - 0x10000) / 0x1000) (g % 0x1000) val := by
  rw [Dev.barWrite, if_pos (by simp [ha]), Dev.writeWhole, if_pos (inFnPages_iff.mpr hp)]
  rfl

/-- A whole write of a mailbox doorbell. -/
theorem Dev.barWrite_door (ha : g % 8 = 0) (hd : 0x101010 ≤ g ∧ g < 0x101110 ∧ g % 32 = 16) :
    d.barWrite fn g 8 val = d.doorMailbox ((g - 0x101010) / 32) val := by
  have hp : ¬ (0x10000 ≤ g ∧ g < 0x50000) := by omega
  rw [Dev.barWrite, if_pos (by simp [ha]), Dev.writeWhole, if_neg (mt inFnPages_iff.mp hp), if_pos (isMailboxDoor_iff.mpr hd)]
  rfl

/-- A whole write of a register that has no row of its own. -/
theorem Dev.barWrite_plain (ha : g % 8 = 0) (hp : ¬ (0x10000 ≤ g ∧ g < 0x50000)) (hd : ¬ (0x101010 ≤ g ∧ g < 0x101110 ∧ g % 32 = 16)) :
    d.barWrite fn g 8 val = d.plainWrite fn g val := by
  rw [Dev.barWrite, if_pos (by simp [ha]), Dev.writeWhole, if_neg (mt inFnPages_iff.mp hp),
    if_neg (mt isMailboxDoor_iff.mp hd)]

/-- A partial or misaligned write. -/
theorem Dev.barWrite_bad {size : Nat} (h : ¬ (size = 8 ∧ g % 8 = 0)) : d.barWrite fn g size val =
    if g = R.HIF_ADMQ_TAIL fn ∨ g = R.HIF_ADMQ_HEAD fn then d.badDoor fn g else d.hostRange fn g := by
  rw [Dev.barWrite, if_neg (by simpa using h), Dev.writeBad]
  simp only [Bool.or_eq_true, decide_eq_true_eq]

end

end

/-! ### The row of an access -/

section
variable {s : State} {fn off : Nat} (ha : s.dev.alive = true) (hn : fn < 64) (hl : s.dev.host.linkUp = true) (he : s.dev.fnExists fn = true)
include ha hn hl he

/-- An access outside the function's BAR0 changes nothing. -/
theorem barRow_outside (h : bar0Place fn off = none) (f : Dev → Nat → Dev) : barRow fn off s f = .next s := by
  rw [barRow, fnRow_up ha hn hl he, h]
  rfl

/-- An access inside the function's BAR0. -/
theorem barRow_inside {g : Nat} (h : bar0Place fn off = some g) (f : Dev → Nat → Dev) : barRow fn off s f = .next (s.withDev (f s.dev g)) := by
  rw [barRow, fnRow_up ha hn hl he, h]

end

/-- Settles O42 (the quota of another function's page, a well-formed access of MALFORMED_READ, what an undefined offset reads and takes,
and the field that a refused value keeps are log entries 116, 117, 118, 127 and 129). -/
theorem registerAccess : Obligations.RegisterAccess := by
  refine fun s fn off size val ha hn hl he => ⟨
    fun h => ⟨barRow_outside ha hn hl he h _, barRow_outside ha hn hl he h _, barRow_outside ha hn hl he h _⟩,
    fun g hg => ?_⟩
  have write : ∀ e, s.dev.barWrite fn g size val = e → exec (.registerWrite fn off size val) s = .next (s.withDev e) :=
    fun e h => h ▸ barRow_inside ha hn hl he hg _
  have read : ∀ e, s.dev.barRead s.trust.svn fn g size = e →
      exec (.rcRead fn off size) s = .next (s.withDev e) ∧ exec (.malformedRead fn off size) s = .next (s.withDev e) :=
    fun e h => ⟨h ▸ barRow_inside ha hn hl he hg _, h ▸ barRow_inside ha hn hl he hg _⟩
  dsimp only
  rw [← strayBits_eq, ← rcMask_eq]
  refine ⟨fun h => ⟨fun hd => ?badDoor, fun h1 h2 => ?narrow⟩, fun hs h8 => ?whole, fun hs h8 => read _ ?readWhole,
    fun hs h4 => read _ ?readHalf, fun h8 h4 => read _ ?readBad⟩
  case badDoor => exact write _ (by rw [Dev.barWrite_bad h, if_pos hd]; rfl)
  case narrow => exact write _ (by rw [Dev.barWrite_bad h, if_neg (by simp [h1, h2])]; rfl)
  case readWhole =>
    rw [Dev.barRead, if_pos (by simp [hs, h8])]
    rfl
  case readHalf =>
    rw [Dev.barRead, if_neg (by simp [hs]), if_pos (by simp [hs, h4])]
    rfl
  case readBad =>
    rw [Dev.barRead, if_neg (by simpa using h8), if_neg (by simpa using h4)]
    rfl
  case whole =>
    subst hs
    have plain : (0x10000 ≤ g ∧ g < 0x50000) ∧ fn = (g - 0x10000) / 0x1000 ∧ g % 0x1000 ≠ 0x08 ∧ g % 0x1000 ≠ 0x20 ∧
        g % 0x1000 ≠ 0x28 ∧ g % 0x1000 ≠ 0x30 ∧ g % 0x1000 ≠ 0x38 ∧ g % 0x1000 ≠ 0x40 ∨
        ¬ (0x10000 ≤ g ∧ g < 0x50000) ∧ ¬ (0x101010 ≤ g ∧ g < 0x101110 ∧ g % 32 = 16) →
        s.dev.barWrite fn g 8 val = s.dev.plainWrite fn g val := by
      rintro (⟨hp, rfl, hr⟩ | ⟨hp, hd⟩)
      · rw [Dev.barWrite_page h8 hp, Dev.pageWrite_plain hr, fnPage_offset hp.1]
      · exact Dev.barWrite_plain h8 hp hd
    refine ⟨fun hp hr => write _ ?_, fun hp hr hf => write _ ?_, fun hp hf hr => write _ ?_, fun hp hf hr => write _ ?_,
      fun hp hf hr => write _ ?_, fun hp hf hr => write _ ?_, fun hp hf hr => write _ ?_, fun hd => write _ (Dev.barWrite_door h8 hd),
      fun h => ⟨fun hx => write _ ?_, fun hx hn => write _ ?_, fun k hx hk => write _ ?_⟩⟩
    · have hoff := fnPage_offset hp.1
      rw [hr] at hoff
      rw [Dev.barWrite_page h8 hp, hr, Dev.pageWrite_quota, hoff]
      rfl
    · rw [Dev.barWrite_page h8 hp, Dev.pageWrite_other hr hf, fnPage_offset hp.1]
      rfl
    · rw [Dev.barWrite_page h8 hp, hr, ← hf, Dev.pageWrite_cfg]
    · have hoff := fnPage_offset hp.1
      rw [hr, ← hf] at hoff
      rw [Dev.barWrite_page h8 hp, hr, ← hf, Dev.pageWrite_tail, hoff]
    · have hoff := fnPage_offset hp.1
      rw [hr, ← hf] at hoff
      rw [Dev.barWrite_page h8 hp, hr, ← hf, Dev.pageWrite_head, hoff]
    · rw [Dev.barWrite_page h8 hp, hr, ← hf, Dev.pageWrite_heartbeat]
    · rw [Dev.barWrite_page h8 hp, hr, ← hf, Dev.pageWrite_resign]
    · rw [plain h, Dev.plainWrite_refused hx]
    · rw [plain h, Dev.plainWrite_taken hx, Dev.applyBits_none hn]
      rfl
    · rw [plain h, Dev.plainWrite_taken hx, Dev.applyBits_some hk]
      rfl

end Sys2Proof.Machine
end

section
/-! The mailbox doorbell, the URGENT share, the trace buffer and the timers (R6, R7, R328, R339, R342, R345). -/

namespace Sys2Proof.Machine

section
variable {d : Dev} {mb : Nat} {val : Word}

/-- A whole doorbell of a mailbox that is BUSY counts a bad doorbell. -/
theorem Dev.doorMailbox_busy :
    let e := if 2 ^ 32 ≤ val.toNat then d.reservedWrite 0 (R.MGT_MB_DOOR mb) else d
    e.fld (R.MGT_MB_STAT mb) F.MGT_MB_STAT_STATE = 1 → d.doorMailbox mb val = e.satFld R.HIF_ERR F.HIF_ERR_BADDOOR 1 := by
  intro e h
  dsimp only [Dev.doorMailbox]
  rw [if_pos h]

/-- A whole doorbell of any other mailbox makes it BUSY and puts it at the end of the order of service. -/
theorem Dev.doorMailbox_idle :
    let e := if 2 ^ 32 ≤ val.toNat then d.reservedWrite 0 (R.MGT_MB_DOOR mb) else d
    let g := (e.setFld (R.MGT_MB_STAT mb) F.MGT_MB_STAT_STATE 1).updMbox mb (fun x => { x with door := some (val.toNat % 2 ^ 32, e.now) })
    ¬ e.fld (R.MGT_MB_STAT mb) F.MGT_MB_STAT_STATE = 1 →
      d.doorMailbox mb val = ({ g with fw := { g.fw with order := g.fw.order ++ [mb] } } : Dev).takeRequests := by
  intro e g h
  dsimp only [Dev.doorMailbox]
  rw [if_neg h]
  rfl

variable {s : State} {size : Nat} {hw : HostWrites}

/-- A whole doorbell over a link that is up. -/
theorem execMailboxDoorbell_whole (ha : s.dev.alive = true) (hm : mb < 8) (hl : (s.dev.hostPosts 0 hw).host.linkUp = true) (hs : size = 8) :
    execMailboxDoorbell mb size val hw s = .next (s.withDev ((s.dev.hostPosts 0 hw).doorMailbox mb val)) := by
  rw [execMailboxDoorbell, onUnit_alive _ hm ha]
  dsimp only
  rw [if_neg (by simp [hl]), if_neg (not_not_intro hs)]
  rfl

end

/-- Settles O43 (that the row of a doorbell carries the host's earlier stores, that a link which is down changes nothing else, and what a
late timer does are log entries 3, 84 and 122). -/
theorem firmwareEvents : Obligations.FirmwareEvents := by
  refine fun s ha => ⟨fun mb size val hw hm => ⟨fun hl => ?down, fun hl hs => ?partly, fun hl hs hb => ?busy, fun hl hs hb => ?idle⟩,
    ?window, ?spent, ?trace, fun i hi => ?timer⟩
  case down =>
    change execMailboxDoorbell mb size val hw s = _
    rw [execMailboxDoorbell, onUnit_alive _ hm ha]
    dsimp only
    rw [if_pos hl]
    rfl
  case partly =>
    change execMailboxDoorbell mb size val hw s = _
    rw [execMailboxDoorbell, onUnit_alive _ hm ha]
    dsimp only
    rw [if_neg (by simp [hl]), if_pos hs]
    rfl
  case busy => exact (execMailboxDoorbell_whole ha hm hl hs).trans (congrArg (fun e => Host.Outcome.next (s.withDev e)) (Dev.doorMailbox_busy hb))
  case idle => exact (execMailboxDoorbell_whole ha hm hl hs).trans (congrArg (fun e => Host.Outcome.next (s.withDev e)) (Dev.doorMailbox_idle hb))
  case window =>
    change execUrgentWindow s = _
    rw [execUrgentWindow, onDev_alive _ ha]
    rfl
  case spent =>
    change execUrgentSpent s = _
    rw [execUrgentSpent, onDev_alive _ ha]
    simp only [Bool.and_eq_true, decide_eq_true_eq, Dev.urgentSpent, and_assoc, decide_eq_false_iff_not]
    rfl
  case trace =>
    change execTraceFull s = _
    rw [execTraceFull, onDev_alive _ ha]
    simp only [Bool.and_eq_true, decide_eq_true_eq, and_assoc]
    rfl
  case timer =>
    change execTimerExpiry i s = _
    rw [execTimerExpiry, onUnit_alive _ hi ha]
    simp only [Bool.and_eq_true, decide_eq_true_eq, and_assoc]
    rfl

end Sys2Proof.Machine
end

section
/-! The messages of the service: versions, schedule, ZN8, trace, timers, GPIO and jobs (R327, R332, R334, R336, R337, R342, R344, R345,
R423). -/

namespace Sys2Proof.Machine

/-! ### What an accepted message does -/

/-- A choice between two answers is a choice between two states. -/
theorem State.withDev_choice (s : State) {p : Prop} [Decidable p] {b : Bool} (h : b = true ↔ p) (d e : Dev) :
    s.withDev (if b then d else e) = if p then s.withDev d else s.withDev e := by
  rw [State.withDev_ite]
  exact ite_of_iff h ..

/-- The state of an accepted trace configuration. -/
theorem Dev.traceSet_eq (d : Dev) (enable mode m0 m1 m2 m3 : Nat) : d.traceSet enable mode [m0, m1, m2, m3] =
    let e := (d.setFld R.MGT_TRACE F.MGT_TRACE_ENABLE enable).setFld R.MGT_TRACE F.MGT_TRACE_MODE mode
    let e := (e.setReg (R.MGT_TRACE_MASK 0) (BitVec.ofNat 64 m0)).setReg (R.MGT_TRACE_MASK 1) (BitVec.ofNat 64 m1)
    let e := (e.setReg (R.MGT_TRACE_MASK 2) (BitVec.ofNat 64 m2)).setReg (R.MGT_TRACE_MASK 3) (BitVec.ofNat 64 m3)
    let cleared := ((({ e with trace := [] } : Dev).setFld R.MGT_TRACE F.MGT_TRACE_FULL 0).setFld R.MGT_TRACE F.MGT_TRACE_WRITE 0)
    if enable = 1 then cleared else e := rfl

/-- What opening a job changes. -/
theorem Dev.jobOpens_eq (d : Dev) (job ctx level policy : Nat) (p : Prop) [Decidable p] : d.jobOpens job ctx level policy (decide p) =
    let e := { d with jobs := put job ⟨ctx, level, policy, decide p, d.now⟩ d.jobs }
    let bit := (1 : Word) <<< (job % 64)
    let g := if p then e.setBits (R.NOC_JOB_DET (job / 64)) bit bit else e
    g.raise { code := 0x0C10, job := job, ctx := ctx, fn := g.ctxFn ctx } := by
  simp only [Dev.jobOpens, decide_eq_true_eq]

/-- What closing a job changes. -/
theorem Dev.closeJob_eq (d : Dev) (job : Nat) : d.closeJob job =
    let ctx := ((look job d.jobs).map Job.ctx).getD 0xFFFF
    let e := (d.purge job false).setBits (R.NOC_JOB_DET (job / 64)) ((1 : Word) <<< (job % 64)) 0
    let g := { e with jobs := drop1 job e.jobs }
    g.raise { code := 0x0C11, ctx := ctx, job := job, fn := g.ctxFn ctx } := by
  dsimp only [Dev.closeJob]
  cases look job d.jobs <;> rfl

/-! ### Opening a job -/

section
variable {s : State} {mb : Nat} {r : MbReq} (hr : s.dev.serves mb r) (hop : r.opcode = 0x20)
include hr hop

/-- A JOB_OPEN whose body has another length. -/
theorem execJobOpen_length (hl : r.body.length ≠ 8) :
    execJobOpen mb s = .next (s.withDev ((s.dev.jobRefused mb 0xFFFF 0xFFFF).answerLen mb r)) := by
  rw [execJobOpen, mbRow_serves _ hr ((isOp_iff _ r).2 hop)]
  dsimp only
  rw [if_pos hl]

variable (hl : r.body.length = 8)
include hl

/-- A JOB_OPEN on a device that is not active, or of a job that is open. -/
theorem execJobOpen_busy (h : s.dev.cfgState ≠ 2 ∨ (look (r.fld 0 2) s.dev.jobs).isSome = true) :
    execJobOpen mb s = .next (s.withDev ((s.dev.jobRefused mb (r.fld 0 2) (r.fld 2 2)).mbAnswer mb r stBusy [])) := by
  rw [execJobOpen, mbRow_serves _ hr ((isOp_iff _ r).2 hop)]
  dsimp only
  rw [if_neg (not_not_intro hl), if_pos (by simpa using h)]

variable (hc : s.dev.cfgState = 2) (hj : look (r.fld 0 2) s.dev.jobs = none)
include hc hj

/-- A JOB_OPEN with a field that is bad. -/
theorem execJobOpen_bad {off : Nat} (h : s.dev.jobOpenBad r = some off) :
    execJobOpen mb s = .next (s.withDev ((s.dev.jobRefused mb (r.fld 0 2) (r.fld 2 2)).answerBad mb r off)) := by
  rw [execJobOpen, mbRow_serves _ hr ((isOp_iff _ r).2 hop)]
  dsimp only
  rw [if_neg (not_not_intro hl), if_neg (by simp [hc, hj]), h]

/-- A JOB_OPEN whose fields are good: its level refuses it or it opens the job. -/
theorem execJobOpen_good (h : s.dev.jobOpenBad r = none) :
    let level := if r.major = 2 then 1 else r.fld 4 1
    execJobOpen mb s = .next (s.withDev
      (if level = 0 ∨ s.dev.fld R.COL_CFG F.COL_CFG_LEVEL_MAX < level then
        (s.dev.jobRefused mb (r.fld 0 2) (r.fld 2 2)).mbAnswer mb r stLevel []
      else (s.dev.jobOpens (r.fld 0 2) (r.fld 2 2) level (r.fld 5 1) (r.fld 6 1 = 1)).mbAnswer mb r stOk [])) := by
  rw [execJobOpen, mbRow_serves _ hr ((isOp_iff _ r).2 hop)]
  dsimp only
  rw [if_neg (not_not_intro hl), if_neg (by simp [hc, hj]), h]
  simp only [Bool.or_eq_true, decide_eq_true_eq]

end

/-- Settles O44 (the lengths and offsets, the bodies of the ZN8 messages, who may use a shared resource, and what a GET checks are log entries
89, 90, 91 and 158). -/
theorem serviceMessages : Obligations.ServiceMessages := by
  refine ⟨fun s mb hm => ⟨?version, ?info, ?sched, ?aging, ?queueClass, ?prio, fun h => mbRow_isOp_idle _ hm h, fun r hr hop => ?gate⟩,
    fun s mb hm => ⟨?trace, ?timer, ?gpioSet, ?gpioGet⟩,
    fun s mb hm => ⟨fun h => mbRow_isOp_idle _ hm h, fun r hr hop => ?jobOpen, ?jobClose⟩⟩
  case version => exact bodyRow_answers (ans := execVersionGet mb s) _ hm rfl (isOp_iff _) (fun _ => rfl) (fun _ _ _ => rfl)
  case info => exact bodyRow_answers (ans := execZ8Info mb s) _ hm rfl (isOp_iff _) (fun _ => rfl) (fun _ _ _ => rfl)
  case sched => exact bodyRow_answers (ans := execSchedCfg mb s) _ hm rfl (isOp_iff _) (fun _ => rfl) (fun _ _ _ => rfl)
  case aging => exact bodyRow_answers (ans := execZ8AgingSet mb s) _ hm rfl (isOp_iff _) (fun _ => rfl) (fun _ _ _ => rfl)
  case queueClass => exact bodyRow_answers (ans := execQueueClass mb s) _ hm rfl (isOp_iff _) (fun _ => rfl) (fun _ _ _ => rfl)
  case prio => exact bodyRow_answers (ans := execZ8PrioSet mb s) _ hm rfl (isOp_iff _) (fun _ => rfl) (fun _ _ _ => rfl)
  case gate => exact mbRow_serves (pick := isOp 0x0402) _ hr ((isOp_iff _ r).2 hop)
  case trace =>
    refine bodyRow_answers (ans := execTraceCfg mb s) _ hm rfl (isOp_iff _) (fun r => ?_) (fun r _ _ => ?_)
    · simp [List.range_succ, Bool.or_assoc]
    · exact State.withDev_choice s (by simp) _ _
  case timer =>
    refine bodyRow_answers (ans := execTimerCfg mb s) _ hm rfl (isOp_iff _) (fun _ => rfl) (fun r _ _ => ?_)
    exact State.withDev_choice s (by simp) _ _
  case gpioSet =>
    refine bodyRow_answers (ans := execGpioSet mb s) _ hm rfl (fun r => by simp) (fun _ => rfl) (fun r _ _ => ?_)
    exact State.withDev_ite s _ _ _
  case gpioGet => exact bodyRow_answers (ans := execGpioGet mb s) _ hm rfl (fun r => by simp) (fun _ => rfl) (fun _ _ _ => rfl)
  case jobOpen =>
    refine ⟨fun hl => execJobOpen_length hr hop hl, fun hl h => execJobOpen_busy hr hop hl h, fun hl hc hj => ⟨
      fun off h => execJobOpen_bad hr hop hl hc hj h, fun h hlv => ?_, fun h h0 hlv => ?_⟩⟩
    · refine (execJobOpen_good hr hop hl hc hj h).trans ?_
      rw [if_pos hlv]
      rfl
    · refine (execJobOpen_good hr hop hl hc hj h).trans ?_
      rw [if_neg (by omega), Dev.jobOpens_eq]
  case jobClose =>
    refine bodyRow_answers (ans := execJobClose mb s) _ hm rfl (isOp_iff _) (fun _ => rfl) (fun r _ _ => ?_)
    dsimp only
    rw [Dev.closeJob_eq]

end Sys2Proof.Machine
end

section
/-! The power messages (R336, R366, R368, R372). -/

namespace Sys2Proof.Machine

/-- What accepting a power setting changes. -/
theorem Dev.acceptSetting_eq (d : Dev) (x : PowerSetting) : d.acceptSetting x =
    let g : Dev := { d with pwr := { d.pwr with pendingSet := some x } }
    if x.mode ≠ d.accepted.mode ∨ x.cap ≠ d.accepted.cap then
      g.raise { code := 0x0D01, args := [x.cap, g.fld R.PWR_CAP F.PWR_CAP_P_LAST_W, x.mode] } else g := by
  simp only [Dev.acceptSetting, Bool.or_eq_true, decide_eq_true_eq]

/-- Settles O46 (the bodies of the ZN8 messages, the setting that a message is checked against, and the power that Z8_POWER_GET answers are
log entries 90, 96 and 148). -/
theorem powerMessages : Obligations.PowerMessages := by
  refine fun s mb hm => ⟨?set, ?cap, ?get, ?cluster⟩
  case set =>
    refine bodyRow_answers (ans := execPowerSet mb s) _ hm rfl (isOp_iff _) (fun _ => rfl) (fun r _ _ => ?_)
    dsimp only
    rw [Dev.acceptSetting_eq]
    simp only [Bool.and_eq_true, Bool.not_eq_true']
  case cap =>
    refine bodyRow_answers (ans := execZ8CapSet mb s) _ hm rfl (isOp_iff _) (fun _ => rfl) (fun r _ _ => ?_)
    dsimp only
    rw [Dev.acceptSetting_eq]
  case get => exact bodyRow_answers (ans := execZ8PowerGet mb s) _ hm rfl (isOp_iff _) (fun _ => rfl) (fun _ _ _ => rfl)
  case cluster => exact bodyRow_answers (ans := execZ8CluStatus mb s) _ hm rfl (isOp_iff _) (fun _ => rfl) (fun _ _ _ => rfl)

end Sys2Proof.Machine
end

section
/-! Attestation and the debug unlock (R411 to R413). -/

namespace Sys2Proof.Machine

/-- ATTEST, and Z8_ATTEST with the same body: a nonce of 32 bytes is answered with the report and its signature. -/
theorem attestRow_answers {s : State} {mb : Nat} (hm : mb < 8) (op : Nat) :
    Answers s mb (fun r => r.opcode = op) 32 (fun _ => [])
      (fun r =>
        let body := s.dev.report s.trust r.body
        s.withDev ((s.dev.drew.raise { code := 0x0F20, unit := mb }).mbAnswer mb r stOk
          (body ++ leBytes 64 (Config.sm2Sign body s.dev.fresh).toNat)))
      (attestRow mb op s) := by
  exact bodyRow_answers (ans := attestRow mb op s) _ hm rfl (isOp_iff _) (fun _ => rfl) (fun _ _ _ => rfl)

/-- Settles O47 (what a signature is, the lengths and offsets, and the states that an unlock takes are log entries 16, 89 and 110). -/
theorem attestAndUnlock : Obligations.AttestAndUnlock := by
  refine fun s mb hm => ⟨attestRow_answers hm 4, attestRow_answers hm 0x0102, ?challenge, ?respond, ?lock⟩
  case challenge =>
    refine trustRow_answers (ans := execChallenge mb s) hm rfl (fun r => by simp [and_assoc]) (fun r hl => ?_)
      (fun r off hl hx => ?_) (fun r hl hx => ?_)
    · dsimp only
      rw [if_pos hl]
    · dsimp only
      rw [if_neg (not_not_intro hl), hx]
    · dsimp only
      rw [if_neg (not_not_intro hl), hx]
      dsimp only
      split <;> rfl
  case respond =>
    refine trustRow_answers (ans := execRespond mb s) hm rfl (fun r => by simp) (fun r hl => ?_)
      (fun r off hl hx => ?_) (fun r hl hx => ?_)
    · dsimp only
      rw [if_pos hl]
    · dsimp only
      rw [if_neg (not_not_intro hl), hx]
    · dsimp only
      rw [if_neg (not_not_intro hl), hx]
      dsimp only
      by_cases h : respondOk s.trust s.dev.now r = false
      · rw [if_pos h, if_pos h]
      rw [if_neg h, if_neg h]
      by_cases hc : r.fld 1 1 = 2 ∧ s.dev.ctxs ≠ []
      · rw [if_pos hc, if_pos (by simpa using hc)]
        rfl
      · rw [if_neg hc, if_neg (by simpa using hc)]
  case lock =>
    refine trustRow_answers (ans := execLock mb s) hm rfl (fun r => by simp) (fun r hl => ?_)
      (fun r off hl hx => ?_) (fun r hl hx => ?_)
    · rw [if_pos hl]
    · rw [if_neg (not_not_intro hl), hx]
    · rw [if_neg (not_not_intro hl), hx]
      dsimp only
      split <;> rfl

end Sys2Proof.Machine
end

section
/-! Start-up: the self test, the image load, READY late and the watchdog restart (R323, R326, R400, R403, R404, R409). -/

namespace Sys2Proof.Machine

/-! ### What a load does -/

/-- The host's list that a load names. -/
def Dev.loadList (d : Dev) (r : MbReq) : HostList := if r.body.length = 24 then d.readHostList (r.fld 0x10 8) (r.fld 0xC 4) else .none

section
variable {d : Dev} {fused mb : Nat} {r : MbReq}

/-- A body of another length than 12 or 24. -/
theorem Dev.fwLoad_length (h12 : r.body.length ≠ 12) (h24 : r.body.length ≠ 24) :
    d.fwLoad fused mb r = d.loadRefused mb r stInvalid (leBytes 4 8) := by
  dsimp only [Dev.fwLoad]
  rw [if_pos (by simp [h12, h24])]

/-- A host list that is out of line. -/
theorem Dev.fwLoad_misaligned (h24 : r.body.length = 24) (hl : r.fld 0x10 8 % 64 ≠ 0) :
    d.fwLoad fused mb r = d.loadRefused mb r stInvalid (leBytes 4 0x20) := by
  dsimp only [Dev.fwLoad]
  rw [if_neg (by simp [h24]), if_pos (by simp [h24, hl])]

variable (hb : r.body.length = 12 ∨ r.body.length = 24 ∧ r.fld 0x10 8 % 64 = 0)
include hb

/-- A good body passes both checks of the body. -/
theorem fwLoad_body_ok : ¬ (decide (r.body.length ≠ 12) && decide (r.body.length ≠ 24)) = true ∧
    ¬ (decide (r.body.length = 24) && decide (r.fld 0x10 8 % 64 ≠ 0)) = true := by
  obtain h | ⟨h, hl⟩ := hb
  · simp [h]
  · simp [h, hl]

/-- An image of an impossible length. -/
theorem Dev.fwLoad_badLength (h : r.fld 8 4 < 256 ∨ 1835264 < r.fld 8 4) :
    d.fwLoad fused mb r = (d.raise { code := 0x0F10, unit := mb }).loadRefused mb r mbAuth [] := by
  obtain ⟨h1, h2⟩ := fwLoad_body_ok hb
  dsimp only [Dev.fwLoad]
  rw [if_neg h1, if_neg h2, if_pos (by simpa using h)]

variable (lo : 256 ≤ r.fld 8 4) (hi : r.fld 8 4 ≤ 1835264)
include lo hi

/-- An image that cannot be read. -/
theorem Dev.fwLoad_unread (h : d.hostRead 0 (r.fld 0 8) (r.fld 8 4) = none) :
    d.fwLoad fused mb r = d.accessFailed.loadRefused mb r stAccess [] := by
  obtain ⟨h1, h2⟩ := fwLoad_body_ok hb
  dsimp only [Dev.fwLoad]
  rw [if_neg h1, if_neg h2, if_neg (by simp [lo, hi]), h]

variable {image : List Byte} (hr : d.hostRead 0 (r.fld 0 8) (r.fld 8 4) = some image)
include hr

/-- An image that does not verify. -/
theorem Dev.fwLoad_unverified (h : imageOk (r.fld 8 4) (image.take 256) (image.drop 256) = false) :
    d.fwLoad fused mb r = (d.raise { code := 0x0F10, unit := mb }).loadRefused mb r mbAuth [] := by
  obtain ⟨h1, h2⟩ := fwLoad_body_ok hb
  dsimp only [Dev.fwLoad]
  rw [if_neg h1, if_neg h2, if_neg (by simp [lo, hi]), hr]
  dsimp only
  rw [if_pos h]

variable (hv : imageOk (r.fld 8 4) (image.take 256) (image.drop 256) = true)
include hv

/-- An image below the fused counter. -/
theorem Dev.fwLoad_rollback (h : natAt (image.take 256) 8 4 < fused) :
    d.fwLoad fused mb r =
      (d.raise { code := 0x0F11, unit := mb, args := [natAt (image.take 256) 8 4, fused] }).loadRefused mb r mbRollback [] := by
  obtain ⟨h1, h2⟩ := fwLoad_body_ok hb
  dsimp only [Dev.fwLoad]
  rw [if_neg h1, if_neg h2, if_neg (by simp [lo, hi]), hr]
  dsimp only
  rw [if_neg (by simp [hv]), if_pos h]

variable (hn : fused ≤ natAt (image.take 256) 8 4)
include hn

/-- A host list that cannot be read. -/
theorem Dev.fwLoad_listFailed (h : d.loadList r = .failed) : d.fwLoad fused mb r = d.accessFailed.loadRefused mb r stAccess [] := by
  obtain ⟨h1, h2⟩ := fwLoad_body_ok hb
  rw [Dev.loadList] at h
  dsimp only [Dev.fwLoad]
  rw [if_neg h1, if_neg h2, if_neg (by simp [lo, hi]), hr]
  dsimp only
  rw [if_neg (by simp [hv]), if_neg (Nat.not_lt.mpr hn), h]

/-- An image that starts. -/
theorem Dev.fwLoad_accepted (h : d.loadList r ≠ .failed) : d.fwLoad fused mb r = d.loadAccepted mb r (image.take 256) (d.loadList r) := by
  obtain ⟨h1, h2⟩ := fwLoad_body_ok hb
  rw [Dev.loadList] at h ⊢
  dsimp only [Dev.fwLoad]
  rw [if_neg h1, if_neg h2, if_neg (by simp [lo, hi]), hr]
  dsimp only
  rw [if_neg (by simp [hv]), if_neg (Nat.not_lt.mpr hn)]
  split
  · contradiction
  · rfl

end

/-- What starting an image changes, the host's list taken up before. -/
def Dev.imageStarts (d : Dev) (mb : Nat) (r : MbReq) (h : List Byte) (host : List Defect) : Dev :=
  let m := d.finalMerge host
  let g := if m.blocking = true then m.blockedEvent else m
  let g := { g with boot := { g.boot with stage := if m.blocking = true then 8 else 5 } }
  (g.firmwareStarts h).mbAnswer mb r stOk []

section
variable (d : Dev) (mb : Nat) (r : MbReq) (h : List Byte)

/-- An image with no host list. -/
theorem Dev.loadAccepted_none : d.loadAccepted mb r h .none = d.imageStarts mb r h [] := rfl

/-- An image whose host list is rejected. -/
theorem Dev.loadAccepted_rejected : d.loadAccepted mb r h .rejected =
    (({ d with boot := { d.boot with hostRejected := true } } : Dev).raise { code := 0x0F03, unit := mb }).imageStarts mb r h [] := by
  dsimp only [Dev.loadAccepted, Dev.imageStarts]

/-- An image whose host list is taken. -/
theorem Dev.loadAccepted_taken (es : List Defect) (ignored : Nat) : d.loadAccepted mb r h (.taken es ignored) =
    let e := { d with boot := { d.boot with hostAccepted := true, hostIgnored := min ignored 0xFFFF } }
    (if ignored = 0 then e else e.raise { code := 0x0F04, unit := mb, args := [ignored] }).imageStarts mb r h es := rfl

end

/-! ### The row of a load -/

section
variable {d : Dev} {mb op : Nat} {r : MbReq}

/-- No load is served where none is awaited. -/
theorem Dev.loading_idle (h : ¬ (d.boot.stage = 4 ∧ d.fwState = 1)) : d.loading mb op = none := by
  rw [Dev.loading, if_neg]
  simp only [Bool.and_eq_true, decide_eq_true_eq, and_assoc]
  exact fun ⟨_, hw⟩ => h hw

/-- No load is served without a request of its opcode. -/
theorem Dev.loading_none (h : (d.mbox mb).req.filter (isOp op) = none) : d.loading mb op = none := by rw [Dev.loading, h, ite_self]

/-- The firmware serves no load without a request of its opcode. -/
theorem Dev.fwRequest_none (h : (d.mbox mb).req.filter (isOp op) = none) : d.fwRequest mb (isOp op) = none := by
  rw [Dev.fwRequest, h, ite_self]

/-- A request of the opcode passes the choice of a row. -/
theorem req_filter_isOp (hr : (d.mbox mb).req = some r) (hop : r.opcode = op) : (d.mbox mb).req.filter (isOp op) = some r := by
  rw [hr, Option.filter_some, if_pos ((isOp_iff op r).2 hop)]

end

section
variable {s : State} {mb op : Nat} (ha : s.dev.alive = true) (hm : mb < 8)
include ha hm

/-- A load with no request of its opcode does nothing. -/
theorem loadRow_none (h : (s.dev.mbox mb).req.filter (isOp op) = none) : loadRow mb op s = .next s := by
  rw [loadRow, onUnit_alive _ hm ha, Dev.loading_none h, Dev.fwRequest_none h]

/-- A load where none is awaited and no firmware runs does nothing. -/
theorem loadRow_idle (h : ¬ (s.dev.boot.stage = 4 ∧ s.dev.fwState = 1)) (hf : s.dev.fwRuns = false) : loadRow mb op s = .next s := by
  rw [loadRow, onUnit_alive _ hm ha, Dev.loading_idle h, Dev.fwRequest, if_neg (by simp [hf])]

variable {r : MbReq} (hr : (s.dev.mbox mb).req = some r) (hop : r.opcode = op)
include hr hop

/-- A load with the firmware running. -/
theorem loadRow_busy (h : ¬ (s.dev.boot.stage = 4 ∧ s.dev.fwState = 1)) (hf : s.dev.fwRuns = true) :
    loadRow mb op s = .next (s.withDev (s.dev.mbAnswer mb r stBusy [])) := by
  rw [loadRow, onUnit_alive _ hm ha, Dev.loading_idle h, Dev.fwRequest, if_pos (by simp [ha, hf]), req_filter_isOp hr hop]
  rfl

/-- A load that is awaited. -/
theorem loadRow_waits (h : s.dev.boot.stage = 4 ∧ s.dev.fwState = 1) :
    loadRow mb op s = .next (s.withDev (s.dev.fwLoad s.trust.svn mb r)) := by
  rw [loadRow, onUnit_alive _ hm ha, Dev.loading, if_pos (by simp [ha, h]), req_filter_isOp hr hop]
  rfl

end

/-- READY late is told once, 4 s after the load, while the device has not been READY. -/
theorem Dev.readyLate_eq (d : Dev) : d.readyLate =
    if d.boot.readyLate = false ∧ d.boot.tReady = 0 ∧ d.boot.tLoad + 4000000000 ≤ d.now then
      ({ d with boot := { d.boot with readyLate := true } } : Dev).raise { code := 0x0F06 } else d := by
  rw [Dev.readyLate, ← ite_not]
  refine ite_of_iff ?_ ..
  simp only [Bool.or_eq_true, decide_eq_true_eq, not_or, Bool.not_eq_true, Classical.not_not, Nat.not_lt, and_assoc, ne_eq]

/-! ### The restart by the watchdog -/

/-- Taking the configuration up again, or undoing it, after a restart. -/
theorem Dev.configAgain_eq (d : Dev) (cfgOk : Bool) : d.configAgain cfgOk =
    let b := d.fw.configNew
    if d.cfgState ≠ 1 ∧ d.cfgState ≠ 3 then d
    else if cfgOk = true ∧ b ≠ [] then
      ((d.configSteps b (!d.fw.configured) (decide (b.length = 624))).configEnds b (decide (d.cfgState = 3))).topoCheck
    else d.clearMemory.unconfigure := by
  simp only [Dev.configAgain, Bool.and_eq_true, decide_eq_true_eq, Bool.not_eq_true', List.isEmpty_eq_false_iff]

/-- Every message in service is told of the restart. -/
theorem Dev.answerRestarted_eq (d : Dev) :
    d.answerRestarted = d.mboxes.foldl (fun e x => x.2.req.elim e (fun r => e.mbAnswer x.1 r mbRestarted [])) d := by
  rw [Dev.answerRestarted]
  congr 1
  funext e x
  cases x.2.req <;> rfl

/-- Settles O48 (how the defects' lists are merged, the status of an image that fails, and what a restart finds are log entries 106, 109
and 111). -/
theorem startUp : Obligations.StartUp := by
  refine fun s ha => ⟨fun found untested => ⟨fun h => ?tested, fun h => ?test⟩, fun mb op hm => ?load, ?late,
    fun code cfgOk => ⟨fun h1 h3 => ?noFirmware, fun h hbad => ?fails, fun h hc hn => ?restart⟩⟩
  case tested =>
    change execBistDone found untested s = _
    rw [execBistDone, onDev_alive _ ha, if_pos h]
  case test =>
    change execBistDone found untested s = _
    rw [execBistDone, onDev_alive _ ha, if_neg (Nat.not_le.mpr h)]
    rfl
  case load =>
    have row : ∀ t, loadRow mb op s = .next t →
        (op = 2 → exec (.fwLoad mb) s = .next t) ∧ (op = 0x0103 → exec (.z8FwLoad mb) s = .next t) := by
      refine fun t h => ⟨fun e => ?_, fun e => ?_⟩ <;> subst e <;> exact h
    refine ⟨fun h hf => row _ (loadRow_idle ha hm h hf), fun h => row _ (loadRow_none ha hm (by rw [h]; rfl)), fun r hr => ⟨
      fun h => row _ (loadRow_none ha hm ?_), fun hop h hf => row _ (loadRow_busy ha hm hr hop h hf), fun hop h => ?_⟩⟩
    · rw [hr, Option.filter_some, if_neg (mt (isOp_iff op r).1 h)]
    have loads : ∀ e, s.dev.fwLoad s.trust.svn mb r = e →
        (op = 2 → exec (.fwLoad mb) s = .next (s.withDev e)) ∧ (op = 0x0103 → exec (.z8FwLoad mb) s = .next (s.withDev e)) :=
      fun e he => row _ (he ▸ loadRow_waits ha hm hr hop h)
    refine ⟨fun h12 h24 => loads _ (Dev.fwLoad_length h12 h24), fun h24 hl => loads _ (Dev.fwLoad_misaligned h24 hl), fun hb => ⟨
      fun hl => loads _ (Dev.fwLoad_badLength hb hl), fun lo hi hn => loads _ (Dev.fwLoad_unread hb lo hi hn), fun image lo hi him => ⟨
      fun hv => loads _ (Dev.fwLoad_unverified hb lo hi him hv), fun hv hn => loads _ (Dev.fwLoad_rollback hb lo hi him hv hn),
      fun hv hn => ⟨fun hl => loads _ (Dev.fwLoad_listFailed hb lo hi him hv hn hl), fun hl => loads _ ?_, fun hl => loads _ ?_,
        fun es ignored hl => loads _ ?_⟩⟩⟩⟩
    all_goals
      change s.dev.loadList r = _ at hl
      refine (Dev.fwLoad_accepted hb lo hi him hv hn (by simp [hl])).trans ?_
      rw [hl]
    · exact Dev.loadAccepted_none ..
    · exact Dev.loadAccepted_rejected ..
    · exact Dev.loadAccepted_taken ..
  case late =>
    change execReadyLate s = _
    rw [execReadyLate, onDev_alive _ ha]
    by_cases h : s.dev.boot.merged = true ∧ s.dev.boot.stage ≠ 7
    · rw [if_pos (by simp [h]), Dev.readyLate_eq]
      simp only [h, ne_eq, not_false_eq_true, true_and]
      rfl
    · rw [if_neg (by simpa using h), if_neg fun ⟨hb, h7, _⟩ => h ⟨hb, h7⟩]
      rfl
  case noFirmware =>
    change execWatchdogRestart code cfgOk s = _
    rw [execWatchdogRestart, onDev_alive _ ha, if_pos (by simp [h1, h3])]
  case fails =>
    change execWatchdogRestart code cfgOk s = _
    rw [execWatchdogRestart, onDev_alive _ ha, if_neg (by simpa [imp_iff_neg_or] using h)]
    dsimp only
    rw [if_pos (by simp only [Bool.or_eq_true, decide_eq_true_eq]; exact hbad)]
    rfl
  case restart =>
    change execWatchdogRestart code cfgOk s = _
    rw [execWatchdogRestart, onDev_alive _ ha, if_neg (by simpa [imp_iff_neg_or] using h)]
    dsimp only
    rw [if_neg (by simp only [Bool.or_eq_true, decide_eq_true_eq]; exact fun h => h.elim (absurd hc) (Nat.not_le.mpr hn)),
      Dev.configAgain_eq, Dev.answerRestarted_eq]
    rfl

end Sys2Proof.Machine
end

section
/-! Failed converter and regulator phases (R350, R354, R355), and what a cluster's clock and rail do (R62, R353, R356, R357, R374). -/

namespace Sys2Proof.Machine

/-! ### Failed phases -/

section
variable {s : State} {i : Nat} (ha : s.dev.alive = true) (hi : i < 12)
  (hg : (s.dev.fld R.PWR_CONV F.PWR_CONV_GOOD).testBit i = true)
include ha hi hg

/-- A converter phase that was good is marked and listed, and the number left decides what follows. -/
theorem execConvPhaseFailed_good :
    let good := s.dev.fld R.PWR_CONV F.PWR_CONV_GOOD
    let n := s.dev.fld R.PWR_CONV F.PWR_CONV_COUNT - 1
    let d := s.dev.setFld R.PWR_CONV F.PWR_CONV_GOOD (good - 2 ^ i)
    let d := (d.setFld R.PWR_CONV F.PWR_CONV_COUNT n).addDefect 12 0 i 1
    let e := (d.raisePwr 0x0D13 i [n]).raisePwr 0x0D14 i [n]
    execConvPhaseFailed i s = .next (s.withDev
      (if n < 7 then (d.raisePwr 0x0D15 i [n]).stopBegin 7 6 i 0 false
      else if n ≤ 10 then { e with pwr := { e.pwr with convCeil := some (convCeiling n) } } else d.raisePwr 0x0D13 i [n])) := by
  rw [execConvPhaseFailed, onUnit_alive _ hi ha]
  dsimp only
  rw [if_neg (by simp [hg])]
  rfl

end

/-- Settles O50 (the ceiling that a count of phases gives is log entry 99). -/
theorem phaseFailures : Obligations.PhaseFailures := by
  refine fun s ha => ⟨fun i hi => ⟨fun hg => ?failed, fun hg hn => ?stops, fun hg hlo hhi => ?lowers, fun hg hn => ?tells⟩,
    fun c i hc hi => ⟨fun hf => ?again, fun hf => ?fails⟩⟩
  case failed =>
    change execConvPhaseFailed i s = _
    rw [execConvPhaseFailed, onUnit_alive _ hi ha]
    dsimp only
    rw [if_pos hg]
  case stops => exact (execConvPhaseFailed_good ha hi hg).trans (by rw [if_pos hn])
  case lowers => exact (execConvPhaseFailed_good ha hi hg).trans (by rw [if_neg (Nat.not_lt.mpr hlo), if_pos hhi]; rfl)
  case tells => exact (execConvPhaseFailed_good ha hi hg).trans (by rw [if_neg (by omega), if_neg (Nat.not_le.mpr hn)])
  case again =>
    change execIvrPhaseFailed c i s = _
    rw [execIvrPhaseFailed, onUnits_alive _ (by simp [badUnit, hc, hi]) ha]
    dsimp only
    rw [if_pos hf]
  case fails =>
    change execIvrPhaseFailed c i s = _
    rw [execIvrPhaseFailed, onUnits_alive _ (by simp [badUnit, hc, hi]) ha]
    dsimp only
    rw [if_neg (by simp [hf])]
    rfl

/-! ### A cluster's clock and rail -/

section
variable {d : Dev} {quad : Nat}

/-- A token with nobody to take it stays. -/
theorem Dev.takeToken_none
    (h : d.tokenThere quad = false ∨ d.wakeBarred = true ∨ allClusters.find? (fun k => quadrant k = quad && d.cluWake k = 1) = none) :
    d.takeToken quad = d := by
  by_cases hb : d.tokenThere quad = false ∨ d.wakeBarred = true
  · rw [Dev.takeToken, if_pos (by simpa using hb)]
  · have hw := (or_assoc.mpr h).resolve_left hb
    rw [Dev.takeToken, if_neg (by simpa using hb), hw]

/-- A token goes to the first cluster that waits for it. -/
theorem Dev.takeToken_some {w : Nat} (ht : d.tokenThere quad = true) (hb : d.wakeBarred = false)
    (hw : allClusters.find? (fun k => quadrant k = quad && d.cluWake k = 1) = some w) :
    let late := (d.clu w).wakeAt.any (fun t => decide (t + 12000 < d.now))
    let e := { d with pwr := { d.pwr with tokens := put quad d.now d.pwr.tokens } }
    d.takeToken quad = (if late then e.raisePwr 0x0D21 w [] else e).softStart w := by
  rw [Dev.takeToken, if_neg (by simp [ht, hb]), hw]

end

/-- Settles O51 (that an event of a gated cluster does nothing is log entry 7). -/
theorem clusterEvents : Obligations.ClusterEvents := by
  refine fun s c ha hc => ⟨fun hp => ⟨?boost0, ?clamp0, ?stretch0, ?bubble0⟩, fun hp => ?boost, fun hp => ?clamp, fun hp => ?stretch, ?age,
    ⟨fun hf => ?noBubble, fun hf hp => ?bubble⟩, fun quad hq => ⟨fun h => ?noToken, fun w ht hb hw => ?token⟩⟩
  case boost0 =>
    change execDroopBoost c s = _
    rw [execDroopBoost, onUnit_alive _ hc ha, if_neg (by simp [hp])]
  case clamp0 =>
    change execShuntClamp c s = _
    rw [execShuntClamp, onUnit_alive _ hc ha, if_neg (by simp [hp])]
  case stretch0 =>
    change execClockStretch c s = _
    rw [execClockStretch, onUnit_alive _ hc ha, if_pos hp]
  case bubble0 =>
    change execThrottleBubble c s = _
    rw [execThrottleBubble, onUnit_alive _ hc ha]
    dsimp only
    rw [if_pos (by simp [hp])]
  case boost =>
    change execDroopBoost c s = _
    rw [execDroopBoost, onUnit_alive _ hc ha, if_pos hp]
    rfl
  case clamp =>
    change execShuntClamp c s = _
    rw [execShuntClamp, onUnit_alive _ hc ha, if_pos hp]
    rfl
  case stretch =>
    change execClockStretch c s = _
    rw [execClockStretch, onUnit_alive _ hc ha, if_neg (by simp [hp])]
    rfl
  case age =>
    change execAgeStep c s = _
    rw [execAgeStep, onUnit_alive _ hc ha]
    simp only [Bool.and_eq_true, decide_eq_true_eq]
    rfl
  case noBubble =>
    change execThrottleBubble c s = _
    rw [execThrottleBubble, onUnit_alive _ hc ha]
    dsimp only
    rw [if_pos (by simp [hf])]
  case bubble =>
    change execThrottleBubble c s = _
    rw [execThrottleBubble, onUnit_alive _ hc ha]
    dsimp only
    rw [if_neg (by simp [hp, Nat.ne_of_gt hf])]
    rfl
  case noToken =>
    change execSlopeTokenReturn quad s = _
    rw [execSlopeTokenReturn, onUnit_alive _ hq ha]
    rw [Dev.takeToken_none h]
  case token =>
    change execSlopeTokenReturn quad s = _
    rw [execSlopeTokenReturn, onUnit_alive _ hq ha, Dev.takeToken_some ht hb hw]
    rfl

end Sys2Proof.Machine
end

section
/-! Power samples and the windows of the cap and of the frequency (R359, R360, R362, R363, R371). -/

namespace Sys2Proof.Machine

/-! ### The end of a window -/

section
variable {d : Dev} {kind unit : Nat} {f : Dev → Dev}

/-- The end of a window that is over begins the next one and does its work. -/
theorem Dev.atWindow_over (h : d.windowOver kind unit = true) : d.atWindow kind unit f = f (d.windowOpens kind unit) := if_pos h

/-- An end that comes before its window is over changes nothing. -/
theorem Dev.atWindow_early (h : d.windowOver kind unit = false) : d.atWindow kind unit f = d := if_neg (by simp [h])

end

/-- Settles O52 (which window an energy belongs to, the law at a cap of 0, and the F that a window counts are log entries 93, 94 and 95). -/
theorem powerSamplesAndWindows : Obligations.PowerSamplesAndWindows := by
  refine fun s ha => ⟨fun vin cur => ?sample,
    fun clusterNj currents slots granules memNj => ⟨fun hw => ?early, fun hw hx => ?cap, fun x hw hx => ?setting⟩, ?freq⟩
  case sample =>
    change execPowerSample vin cur s = _
    rw [execPowerSample, onDev_alive _ ha]
    simp only [Bool.and_eq_true, decide_eq_true_eq, Bool.not_eq_true']
    rfl
  case early =>
    change execCappingWindow clusterNj currents slots granules memNj s = _
    rw [execCappingWindow, onDev_alive _ ha, Dev.atWindow_early hw]
  case cap =>
    change execCappingWindow clusterNj currents slots granules memNj s = _
    rw [execCappingWindow, onDev_alive _ ha, Dev.atWindow_over hw]
    dsimp only
    rw [hx]
    rfl
  case setting =>
    change execCappingWindow clusterNj currents slots granules memNj s = _
    rw [execCappingWindow, onDev_alive _ ha, Dev.atWindow_over hw]
    dsimp only
    rw [hx]
    rfl
  case freq =>
    change execFreqWindow s = _
    rw [execFreqWindow, onDev_alive _ ha]
    cases hw : s.dev.windowOver 1 0 with
    | false =>
      rw [Dev.atWindow_early hw]
      rfl
    | true =>
      rw [Dev.atWindow_over hw]
      simp only [Bool.and_eq_true, decide_eq_true_eq, Bool.not_eq_true', and_assoc]
      by_cases h : (s.dev.windowOpens 1 0).pwr.fCount = 0
      · simp only [h]
        rfl
      · simp only [h]
        rfl

end Sys2Proof.Machine
end

section
/-! Temperature samples, thermal levels, the coolant and the leak input (R376, R379, R380, R386, R387, R424). -/

namespace Sys2Proof.Machine

/-- What a sample of a spot does: past the comparators, and past the judgement of its value, a device that trips goes no further. -/
theorem Dev.sample_eq (d : Dev) (p : Spot) (raw : List (Option Int)) (granules : List Nat) : d.sample p raw granules =
    let on := { d with pins := { d.pins with thermtrip := true } }
    let noted := (on.noteInvalid p raw).updSpot p (fun x => { x with last := some d.now })
    let readings := noted.usable p raw
    let compared := noted.comparators p readings
    let ready := compared.beforeValue p readings granules
    let value := (ready.spotValue p readings).1
    let judged := value.elim ready (fun v => ready.judge p v (ready.spotValue p readings).2 (ready.fastTest p readings v))
    if compared.alive = false then compared
    else if judged.alive = false then judged else ((judged.showSpot p raw readings value).afterValue p).showStat := by
  rw [Dev.sample]
  dsimp only
  congr 1
  generalize Dev.spotValue _ p _ = v
  obtain ⟨value, source⟩ := v
  cases value <;> rfl

/-- The state after a choice of three devices is a choice of three states. -/
theorem State.withDev_ite_ite (s : State) (p q : Prop) [Decidable p] [Decidable q] (a b c : Dev) :
    s.withDev (if p then a else if q then b else c) = if p then s.withDev a else if q then s.withDev b else s.withDev c := by
  rw [State.withDev_ite, State.withDev_ite]

/-- Settles O53 (which window a coolant sample belongs to, how a spot is judged, and the windows of the coolant are log entries 93, 102 and
104). -/
theorem samplesAndCoolant : Obligations.SamplesAndCoolant := by
  refine ⟨fun v => ⟨rfl, rfl⟩, fun s ha => ⟨fun spot raw granules hs => ?sensor, fun flow inlet outlet => ?flow, fun high => ?leak, ?window⟩⟩
  case sensor =>
    change execSensorSample spot raw granules s = _
    rw [execSensorSample, if_pos hs, onDev_alive _ ha]
    cases hd : s.dev.sampleDue spot with
    | false => rfl
    | true =>
      rw [if_pos rfl, if_neg (show ¬ (true = false) by decide)]
      exact congrArg Host.Outcome.next ((congrArg s.withDev (s.dev.sample_eq spot raw granules)).trans (State.withDev_ite_ite ..))
  case flow =>
    change execFlowSample flow inlet outlet s = _
    rw [execFlowSample, onDev_alive _ ha]
    cases inlet <;> cases outlet <;> cases flow <;> rfl
  case leak =>
    change execLeak high s = _
    rw [execLeak, onDev_alive _ ha]
    by_cases ho : s.dev.owner 0 ≠ 1
    · rw [if_pos ho, if_pos ho]
    · rw [if_neg ho, if_neg ho]
      simp only [Bool.and_eq_true, Bool.not_eq_true', decide_eq_false_iff_not]
      rfl
  case window =>
    change execCoolantWindow s = _
    rw [execCoolantWindow, onDev_alive _ ha]
    cases hw : s.dev.windowOver 2 0 with
    | false =>
      rw [Dev.atWindow_early hw]
      rfl
    | true =>
      rw [Dev.atWindow_over hw]
      by_cases hn : (s.dev.windowOpens 2 0).thm.inletN = 0
      · dsimp only
        rw [if_pos hn, if_neg (not_not_intro hn), if_neg (not_not_intro hn)]
        generalize (if (s.dev.windowOpens 2 0).thm.flowN = 0 then s.dev.windowOpens 2 0 else _) = d
        by_cases hv : d.fld R.THM_COOLANT F.THM_COOLANT_INLET = 0xFFF
        · rw [if_pos hv, if_pos hv, if_pos hv]
          dsimp only
          generalize lowerLimit _ _ = l
          cases l <;> rfl
        · rw [if_neg hv, if_neg hv, if_neg hv]
          dsimp only
          generalize lowerLimit _ _ = l
          cases l <;> rfl
      · dsimp only
        rw [if_neg hn, if_pos hn, if_pos hn]
        dsimp only
        generalize lowerLimit _ _ = l
        cases l <;> rfl

end Sys2Proof.Machine
end

section
/-! Keep-warm, castling and the end of an orderly stop (R389, R392, R394). -/

namespace Sys2Proof.Machine

/-! ### Castling -/

section
variable (d : Dev) (a b : Nat) (mask : Word)

/-! A swap of two registers writes registers only. -/

theorem Dev.swapRegs_tile (t : Nat) : (d.swapRegs a b mask).tile t = d.tile t := rfl
theorem Dev.swapRegs_mem : (d.swapRegs a b mask).mem = d.mem := rfl
theorem Dev.swapRegs_queues : (d.swapRegs a b mask).queues = d.queues := rfl
theorem Dev.swapRegs_ctxs : (d.swapRegs a b mask).ctxs = d.ctxs := rfl
theorem Dev.swapRegs_extents : (d.swapRegs a b mask).extents = d.extents := rfl

end

section
variable (d : Dev) (k : Castle)

/-- The cool tile holds what the hot one held, but the errors of its SRAM. -/
theorem Dev.castleSwap_tile_cool :
    (d.castleSwap k).tile k.cool = { d.tile k.hot with sramErr := [], ceTimes := (d.tile k.cool).ceTimes } := by
  change (look k.cool (put k.cool _ (put k.hot _ d.tiles))).getD Tile.blank = _
  rw [look_put_same]
  rfl

/-- The hot tile holds what the cool one held, but the errors of its SRAM. -/
theorem Dev.castleSwap_tile_hot (h : k.hot ≠ k.cool) :
    (d.castleSwap k).tile k.hot = { d.tile k.cool with sramErr := [], ceTimes := (d.tile k.hot).ceTimes } := by
  change (look k.hot (put k.cool _ (put k.hot _ d.tiles))).getD Tile.blank = _
  rw [look_put_other _ _ h, look_put_same]
  rfl

/-- A swap of two tiles leaves memory, queues, contexts and extents alone. -/
theorem Dev.castleSwap_others : (d.castleSwap k).mem = d.mem ∧ (d.castleSwap k).queues = d.queues ∧ (d.castleSwap k).ctxs = d.ctxs ∧
    (d.castleSwap k).extents = d.extents :=
  ⟨(Dev.swapRegs_mem ..).trans (Dev.swapRegs_mem ..), (Dev.swapRegs_queues ..).trans (Dev.swapRegs_queues ..),
    (Dev.swapRegs_ctxs ..).trans (Dev.swapRegs_ctxs ..), (Dev.swapRegs_extents ..).trans (Dev.swapRegs_extents ..)⟩

variable {d k}

/-- What abandoning the castling in hand changes. -/
theorem Dev.castleAbandon_some (hk : d.thm.castle = some k) :
    d.castleAbandon = (({ d with thm := { d.thm with castle := none } } : Dev).satFld R.THM_CASTLE F.THM_CASTLE_ABANDONED 1).raise
      { code := 0x0E41, unit := k.hot, args := [0, k.hot, k.cool] } := by
  rw [Dev.castleAbandon, hk]

variable {s : State} (ha : s.dev.alive = true) (hk : s.dev.thm.castle = some k)
include ha hk

/-- The castling in hand is abandoned once 4 µs are over and its tiles do not stand still. -/
theorem execCastleAbandoned_some :
    execCastleAbandoned s = .next (s.withDev
      (if s.dev.castleStill k = false ∧ k.start + 4000 ≤ s.dev.now then s.dev.castleAbandon.resumeSends else s.dev)) := by
  rw [execCastleAbandoned, onDev_alive _ ha, hk]
  simp only [Bool.and_eq_true, decide_eq_true_eq, Bool.not_eq_true', and_comm]
  rfl

end

/-! ### The end of a stop -/

/-- When an orderly stop ends: it runs, and every resign of its own has run out. -/
theorem Dev.stopEnds_iff (d : Dev) : (d.stopState = 1 && (d.resigns.filter (fun r => r.scope = 4)).all d.resignOver) = true ↔
    d.stopState = 1 ∧ ∀ r ∈ d.resigns, r.scope = 4 → d.resignOver r = true := by
  simp only [Bool.and_eq_true, decide_eq_true_eq, List.all_eq_true, List.mem_filter, and_imp]

/-- Settles O54 (which window a shadow issue belongs to, what is swapped, and what a cluster that is kept warm shows are log entries 93, 103
and 152). -/
theorem warmthCastlingAndStop : Obligations.WarmthCastlingAndStop := by
  refine fun s ha => ⟨fun c hc => ?warm, fun h => ⟨?none, ?none'⟩, fun k hk => ⟨fun h => ?moving, fun h => ?standing, fun h => ?early,
    fun h => ⟨?castled, s.dev.castleSwap_tile_cool k, s.dev.castleSwap_tile_hot k, s.dev.castleSwap_others k⟩, fun h ht => ?abandoned⟩,
    fun h => ?runs, fun h => ?ends⟩
  case warm =>
    change execKeepWarm c s = _
    rw [execKeepWarm, onUnit_alive _ hc ha]
    cases hw : s.dev.windowOver 3 c with
    | false =>
      rw [Dev.atWindow_early hw]
      rfl
    | true =>
      rw [Dev.atWindow_over hw, if_neg (show ¬ (true = false) by decide)]
      exact congrArg Host.Outcome.next (State.withDev_ite_ite s ..)
  case none =>
    change execCastled s = _
    rw [execCastled, onDev_alive _ ha, h]
  case none' =>
    change execCastleAbandoned s = _
    rw [execCastleAbandoned, onDev_alive _ ha, h]
  case moving =>
    change execCastled s = _
    rw [execCastled, onDev_alive _ ha, hk]
    dsimp only
    rw [if_pos h]
  case castled =>
    change execCastled s = _
    rw [execCastled, onDev_alive _ ha, hk]
    dsimp only
    rw [if_neg (by simp [h])]
    rfl
  case standing => exact (execCastleAbandoned_some ha hk).trans (by rw [if_neg (by simp [h])]; rfl)
  case early => exact (execCastleAbandoned_some ha hk).trans (by rw [if_neg (by omega)]; rfl)
  case abandoned => exact (execCastleAbandoned_some ha hk).trans (by rw [if_pos ⟨h, ht⟩, Dev.castleAbandon_some hk])
  case runs =>
    change execStopDone s = _
    rw [execStopDone, onDev_alive _ ha, if_neg (mt s.dev.stopEnds_iff.mp h)]
  case ends =>
    change execStopDone s = _
    rw [execStopDone, onDev_alive _ ha, if_pos (s.dev.stopEnds_iff.mpr h)]
    rfl

end Sys2Proof.Machine
end

section
/-! Resets, supplies and a lost clock (R294, R391, R395, R400, R416 to R418, R422). -/

namespace Sys2Proof.Machine

/-! ### What the pins do to the device -/

section
variable (s : State) (q : Pins)

/-- Pins that hold the device in reset reset it. -/
theorem resetPins_held (h : (q.perst && q.modReset && q.inputGood) = false) :
    resetPins s q = { s with trust := s.trust.relock, dev := s.dev.resetBy q.showPwrGood } :=
  if_pos (show (!(q.perst && q.modReset && q.inputGood)) = true by rw [h]; rfl)

variable (hp : q.perst = true) (hm : q.modReset = true) (hi : q.inputGood = true)
include hp hm hi

/-- Pins that hold no reset leave the device out of reset. -/
theorem showPwrGood_free : ¬ ({ s.dev with pins := q.showPwrGood } : Dev).inReset = true := by
  simp [Dev.inReset, Pins.showPwrGood, hp, hm, hi]

/-- A device out of reset only shows its pins. -/
theorem resetPins_stays (h : s.dev.inReset = false) : resetPins s q = s.withDev { s.dev with pins := q.showPwrGood } := by
  dsimp only [resetPins]
  rw [if_neg (showPwrGood_free s q hp hm hi), if_neg (by simp [h])]
  rfl

/-- A device in reset is released. -/
theorem resetPins_releases (h : s.dev.inReset = true) : resetPins s q = s.withDev { s.dev with
    now := 0
    pins := { q.showPwrGood with clkreq := true, slotId := q.strap }
    thm := { s.dev.thm with tripFound := decide (s.dev.fld R.THM_TRIP_REC F.THM_TRIP_REC_VALID = 1) } } := by
  dsimp only [resetPins]
  rw [if_neg (showPwrGood_free s q hp hm hi), if_pos h, Dev.released, if_pos (by simp [Pins.showPwrGood, hp, hm, hi])]
  rfl

end

/-- Settles O55 (what survives a reset, the readings that INPUT_GOOD takes, and what the auxiliary supply implies are log entries 92, 113 and
114). -/
theorem resetsAndSupplies : Obligations.ResetsAndSupplies := by
  refine fun s => ⟨fun level => ⟨fun h => ?perst0, fun h => ?mod0, fun ho hl => ?perst, fun ho hl => ?mod⟩, fun h => ?good0, fun ho hg => ?good,
    fun mV h => ?out, fun mV hlo hhi => ?inside,
    ⟨fun q h => resetPins_held s q h,
      fun q hr hp hm hi => resetPins_stays s q hp hm hi hr,
      fun q hr hp hm hi => resetPins_releases s q hp hm hi hr, rfl⟩, fun ha => ?clock⟩
  case perst0 =>
    change execPerstN level s = _
    rw [execPerstN, if_pos (by simpa using h.symm)]
  case mod0 =>
    change execModResetN level s = _
    rw [execModResetN, if_pos (by simpa using h.symm)]
  case perst =>
    change execPerstN level s = _
    rw [execPerstN, if_neg (by simp [ho, hl])]
  case mod =>
    change execModResetN level s = _
    rw [execModResetN, if_neg (by simp [ho, hl])]
  case good0 =>
    change execInputGood s = _
    rw [execInputGood]
    dsimp only
    rw [if_pos (by simpa using h.symm)]
  case good =>
    change execInputGood s = _
    rw [execInputGood]
    dsimp only
    rw [if_neg (by simp [ho, hg])]
    simp only [Bool.or_eq_true, decide_eq_true_eq]
  case out =>
    change execInputLockout mV s = _
    rw [execInputLockout, if_pos (by simpa using h)]
  case inside =>
    change execInputLockout mV s = _
    rw [execInputLockout, if_neg (by simp [hlo, hhi])]
  case clock =>
    change execPllLockLoss s = _
    rw [execPllLockLoss, onDev_alive _ ha]
    rfl

end Sys2Proof.Machine
end

section
/-! The pins and the sideband: supply ranges, straps, GPIOs, the I3C target and the test access port (R417, R420, R422 to R426). -/

namespace Sys2Proof.Machine

/-! ### The supplies -/

/-- What a supply's reading outside its range raises, on a device that works. -/
theorem rangeTold_iff {alive : Bool} {mV lo hi : Nat} : (alive && (decide (mV < lo) || decide (hi < mV))) = true ↔
    alive = true ∧ (mV < lo ∨ hi < mV) := by
  rw [Bool.and_eq_true, Bool.or_eq_true, decide_eq_true_eq, decide_eq_true_eq]

section
variable {s : State} (ho : s.dev.pins.auxOn = true) (mV : Nat)
include ho

/-- VIN_RANGE with the auxiliary supply present. -/
theorem execVinRange_on :
    let d := { s.dev with pins := ({ s.dev.pins with vin := mV } : Pins).showPwrGood }
    execVinRange mV s = .next (s.withDev
      (if d.alive = true ∧ (mV < 40000 ∨ 60000 < mV) then d.raise { code := 0x1001, unit := 0, args := [mV] } else d)) := by
  rw [execVinRange, if_neg (by simp [ho])]
  exact congrArg (fun e => Host.Outcome.next (s.withDev e)) (ite_of_iff rangeTold_iff ..)

/-- AUX_RANGE with the auxiliary supply present. -/
theorem execAuxRange_on :
    let d := { s.dev with pins := ({ s.dev.pins with aux := mV } : Pins).showPwrGood }
    execAuxRange mV s = .next (s.withDev
      (if d.alive = true ∧ (mV < 3135 ∨ 3465 < mV) then d.raise { code := 0x1002, unit := 1, args := [mV] } else d)) := by
  rw [execAuxRange, if_neg (by simp [ho])]
  exact congrArg (fun e => Host.Outcome.next (s.withDev e)) (ite_of_iff rangeTold_iff ..)

end

/-! ### The I3C target -/

/-- What the I3C target answers. -/
def Dev.i3cAnswers (d : Dev) : I3cReq → List Byte
  | .mctpControl => [0]
  | .fruSerial => i3cValue 8 Config.serial.toNat
  | .fruRevision => i3cValue 1 0x11
  | .tripRecord => i3cValue 8 (d.reg R.THM_TRIP_REC).toNat
  | .sensor i => if d.alive then d.i3cSensor i else i3cUnavailable
  | .other => i3cUnavailable

section
variable {s : State} (ho : s.dev.pins.auxOn = true)
include ho

/-- I3C_REQUEST with the auxiliary supply present. -/
theorem execI3cRequest_on (req : I3cReq) :
    execI3cRequest req s = .next (s.withDev { s.dev with pins := { s.dev.pins with i3cAnswer := s.dev.i3cAnswers req } }) := by
  rw [execI3cRequest, if_neg (by simp [ho])]
  cases req <;> rfl

/-- A sensor of a device that works is answered with its value. -/
theorem execI3cRequest_sensor (ha : s.dev.alive = true) (i : Nat) : execI3cRequest (.sensor i) s =
    .next (s.withDev { s.dev with pins := { s.dev.pins with i3cAnswer := s.dev.i3cSensor i } }) := by
  rw [execI3cRequest_on ho, Dev.i3cAnswers, if_pos ha]

/-- A sensor that there is not, or of a device that does not work, is unavailable. -/
theorem execI3cRequest_unavailable {i : Nat} (h : s.dev.alive = false ∨ 6 ≤ i) : execI3cRequest (.sensor i) s =
    .next (s.withDev { s.dev with pins := { s.dev.pins with i3cAnswer := [1] } }) := by
  cases ha : s.dev.alive with
  | true =>
    obtain ⟨j, rfl⟩ := Nat.exists_eq_add_of_le' (h.resolve_left (by simp [ha]))
    exact execI3cRequest_sensor ho ha (j + 6)
  | false =>
    rw [execI3cRequest_on ho, Dev.i3cAnswers, if_neg (by simp [ha])]
    rfl

end

/-! ### The test access port -/

/-- What the test access port accepts beyond IDCODE and BYPASS. -/
theorem tapAccepts_iff {debug ir : Nat} (h : 2 ≤ ir) :
    tapAccepts debug ir = true ↔ (ir = 2 ∨ ir = 4) ∧ 2 ≤ debug ∨ ir = 3 ∧ 1 ≤ debug := by
  obtain ⟨j, rfl⟩ := Nat.exists_eq_add_of_le' h
  obtain _ | _ | _ | j := j
  · simp [tapAccepts]
  · simp [tapAccepts]
  · simp [tapAccepts]
  · simp [tapAccepts]

section
variable {s : State} {ir : Nat}

/-- An instruction that the port accepts scans out. -/
theorem execTestAccessPort_scans (h : 2 ≤ ir) (ha : s.dev.alive = true) (hx : tapAccepts s.trust.debug ir = true) :
    execTestAccessPort ir s = .next { s with
      trust := { s.trust with tapIr := ir, tapOut := (Config.scanOut s.dev.fresh).toNat }
      dev := s.dev.drew } := by
  obtain ⟨j, rfl⟩ := Nat.exists_eq_add_of_le' h
  unfold execTestAccessPort
  rw [if_pos (by simp [ha, hx])]
  rfl

end

/-- Settles O56 (the port's instructions and the I3C answers, PWR_GOOD's readings, and when an I3C address is told are log entries 23, 113
and 115). -/
theorem pinsAndSideband : Obligations.PinsAndSideband := by
  refine fun s => ⟨fun ho => ⟨fun mV => ⟨?vin0, ?aux0⟩, fun slot hs => ?strap0, fun g level hg => ?gpio0, fun addr ha => ?i3cAddr0,
      fun req => ?i3c0⟩,
    fun ho => ⟨fun mV => ?vin, fun mV => ?aux, fun slot hs => ?strap, fun g level hg => ⟨fun hl => ?stands, fun hl => ?edge⟩,
      fun addr hx => ?i3cAddr, ?i3c⟩,
    fun ha => ⟨fun g hg => ?pps, ?idcode, ?bypass, fun ir hi => ⟨fun h => ?scan, fun h => ?refused⟩⟩⟩
  case vin0 =>
    change execVinRange mV s = _
    rw [execVinRange, if_pos ho]
  case aux0 =>
    change execAuxRange mV s = _
    rw [execAuxRange, if_pos ho]
  case strap0 =>
    change execStrapChanged slot s = _
    rw [execStrapChanged, if_neg (Nat.not_le.mpr hs), if_pos ho]
  case gpio0 =>
    change execGpioEdge g level s = _
    rw [execGpioEdge, if_neg (Nat.not_le.mpr hg), if_pos (by simp [ho])]
  case i3cAddr0 =>
    change execI3cAddressed addr s = _
    rw [execI3cAddressed, if_neg (Nat.not_le.mpr ha), if_pos ho]
  case i3c0 =>
    change execI3cRequest req s = _
    rw [execI3cRequest, if_pos ho]
  case vin => exact ⟨fun h => (execVinRange_on ho mV).trans (by rw [if_pos h]), fun h => (execVinRange_on ho mV).trans (by rw [if_neg h])⟩
  case aux => exact ⟨fun h => (execAuxRange_on ho mV).trans (by rw [if_pos h]), fun h => (execAuxRange_on ho mV).trans (by rw [if_neg h])⟩
  case strap =>
    change execStrapChanged slot s = _
    rw [execStrapChanged, if_neg (Nat.not_le.mpr hs), if_neg (by simp [ho])]
    simp only [Bool.and_eq_true, decide_eq_true_eq, Bool.not_eq_true', and_assoc, State.withDev_ite, apply_ite Host.Outcome.next]
    rfl
  case stands =>
    change execGpioEdge g level s = _
    rw [execGpioEdge, if_neg (Nat.not_le.mpr hg), if_pos (by simp [hl])]
  case edge =>
    change execGpioEdge g level s = _
    rw [execGpioEdge, if_neg (Nat.not_le.mpr hg), if_neg (by simp [ho, hl])]
    simp only [Bool.and_eq_true, decide_eq_true_eq, and_assoc, State.withDev_ite, apply_ite Host.Outcome.next]
    rfl
  case i3cAddr =>
    change execI3cAddressed addr s = _
    rw [execI3cAddressed, if_neg (Nat.not_le.mpr hx), if_neg (by simp [ho])]
    rfl
  case i3c =>
    exact ⟨execI3cRequest_on ho .mctpControl, execI3cRequest_on ho .fruSerial, execI3cRequest_on ho .fruRevision,
      execI3cRequest_on ho .tripRecord, execI3cRequest_on ho .other, fun i h => execI3cRequest_unavailable ho h,
      fun ha => ⟨execI3cRequest_sensor ho ha 0, execI3cRequest_sensor ho ha 1, execI3cRequest_sensor ho ha 2,
        execI3cRequest_sensor ho ha 3, execI3cRequest_sensor ho ha 4, execI3cRequest_sensor ho ha 5⟩⟩
  case pps =>
    change execTempoPps g s = _
    rw [execTempoPps, onUnit_alive _ hg ha]
    by_cases h : s.dev.owner g = 7
    · rw [if_pos h, if_neg (not_not_intro h)]
      rfl
    · rw [if_neg h, if_pos h]
  case idcode =>
    change execTestAccessPort 0 s = _
    rw [execTestAccessPort, if_pos (by simp [ha, tapAccepts])]
  case bypass =>
    change execTestAccessPort 1 s = _
    rw [execTestAccessPort, if_pos (by simp [ha, tapAccepts])]
  case scan => exact execTestAccessPort_scans hi ha ((tapAccepts_iff hi).mpr h)
  case refused =>
    change execTestAccessPort ir s = _
    unfold execTestAccessPort
    rw [if_neg]
    rw [Bool.and_eq_true, tapAccepts_iff hi]
    exact fun ⟨_, hx⟩ => h hx

end Sys2Proof.Machine
end
